-- ==== Sys2Proof/Word.lean ====
section
/-! DEFINITION. The word types of the model and the type of sparse tables. -/
namespace Sys2Proof

/-- One byte. -/
abbrev Byte := BitVec 8

/-- A string of bytes in address or wire order. -/
abbrev Bytes := List Byte

/-- A 32-bit register or instruction word. -/
abbrev Word := BitVec 32

/-- A sparse table: entries by strictly rising key, none equal to what an unlisted key reads as. -/
abbrev SMap (α : Type) := List (Nat × α)

end Sys2Proof
end

