-- ==== Sys2Proof/Config.lean ====
section
/-! DEFINITION. What one part fixes (identity, ROM contents, factory values) and the free values: every
opaque constant here has no body, so no proof can see a value of it. -/
namespace Sys2Proof.Config

/-- The n-th 256-bit block of entropy the noise well delivers (R275): a free value. -/
opaque noise : Nat → BitVec 256

/-- A value the spec leaves open, fresh at each use of the model's own counter (log 5). -/
opaque freeValue : Nat → Nat

/-- Device serial, OTP (R9, R407): fixed at manufacture, its value is not in the spec. -/
opaque serial : Nat

/-- Stepping code, two ASCII characters (R8, R520): fixed at manufacture. -/
opaque stepCode : Nat

/-- Device derivation secret, OTP (R283, R407). -/
opaque derivationSecret : BitVec 256

/-- The key of the KHASH of counter lines, fixed for the life of the part (R123, R124; log 20). -/
opaque lineKey : BitVec 128

/-- ROM contents by core (true: vault) and address (R373): not in the spec. -/
opaque romByte : Bool → Nat → BitVec 8

/-- ID_ROM (R520). -/
opaque romVersion : Nat

/-- Version and SVN of the images the part is shipped with, by core (true: vault) (R361, R362). -/
opaque factoryVersion : Bool → Nat
opaque factorySvn : Bool → Nat

/-- Entry offset of the images the part is shipped with, by core (true: vault) (R362; log 60). -/
opaque factoryEntry : Bool → Nat

/-- Code size of the image the part is shipped with on the control core (R362; log 60). -/
opaque factorySize : Nat

/-- The SHA-384 hash of Bluortis root slot keys, OTP (R360, R407). -/
opaque rootHash : Nat → BitVec 384

/-- Factory calibration value of an item (R504, R505): loaded from the factory page. -/
opaque factoryCal : Nat → Int

/-- Manufacturing record of the OTP, by byte (R407). -/
opaque otpManufacture : Nat → BitVec 8

/-- Bytes of the MRAM regions whose record layout the spec does not give (R401), as a core reads them. -/
opaque mramByte : Nat → BitVec 8

/-- ECDSA P-384 verification (public key, message, signature): a standard the spec names (R353). -/
opaque ecdsaVerify : Nat → Bytes → Bytes → Bytes → Bool

/-- ML-DSA-65 verification with empty context (R353, R285). -/
opaque mlDsaVerify : Bytes → Bytes → Bytes → Bool

/-- Ed25519 verification (R285). -/
opaque ed25519Verify : Bytes → Bytes → Bytes → Bool

/-- A signature under a private key with extra data (R285): key type, key, message, drawn bits. -/
opaque sign : Nat → Bytes → Bytes → BitVec 256 → Bytes

/-- ML-KEM-768 decapsulation (R358): key seed, ciphertext. -/
opaque mlKemDecap : Bytes → Bytes → Bytes

/-- Derivation of a public key from a private one (R359): key type, private key. -/
opaque publicKey : Nat → Bytes → Bytes

/-- A key made for a KTYPE from drawn bits, by firmware on the modular engine (R284). -/
opaque makeKey : Nat → BitVec 256 → Bytes

/-- WRAPPED of the keeper slots of a part as it leaves the factory, by slot (R245, R248; log 123). -/
opaque factoryWrapped : Nat → Bytes

/-- The device signing keys, derived from the derivation secret: P-384 when the flag is false, the ML-DSA-65 seed when it
is true (R359). -/
opaque identityKey : Bool → Bytes

/-- The key-encryption key in BBRAM of a part as it leaves the factory (R408). -/
opaque factoryKek : BitVec 256

/-- Flash contents of the images the part is shipped with, by flash offset (R361; log 60). -/
opaque flashByte : Nat → BitVec 8

/-- The Bluortis root slot that signed the image the part is shipped with, by core (true: vault) (R360; log 46). -/
opaque factorySigner : Bool → Nat

/-- The private value of an asymmetric key as the modular engine takes it: key type, key bytes (R265; log 40). -/
opaque privateValue : Nat → Bytes → Nat

/-- The mask generator of a pump (R171): an output block of a 256-bit state, and the state after it. -/
opaque maskOut : BitVec 256 → BitVec 512
opaque maskNext : BitVec 256 → BitVec 256

/-- Test rows of the pump key store and the test vector, as the ROM holds them (R162, R175): not in the spec. -/
opaque testKey : Nat → BitVec 256
opaque testVector : Bytes

/-- SPDU padding, APDU and record bytes of the standards: how an identifier or a key statement is laid out (R359). -/
opaque keyStatement : Nat → Nat → Bytes

end Sys2Proof.Config
end

