-- ==== Sys2Proof/Syntax.lean ====
section
/-! DEFINITION. The commands the block takes: the operand types, and Instr, one constructor per row of
spec/opcode_table.json. An operand `dt` of a timed event is the number of time-clock ticks (4 ns, R180) that
pass before it; where an event's instant has not come, the event has no effect (log 2). -/
namespace Sys2Proof

/-- The two Eblith cores (R409). -/
inductive CoreId | control | vault
  deriving DecidableEq, Repr

/-- A general register number, g0 to g15 (R409). -/
abbrev Reg := Fin 16

/-- The session a command packet arrives in (R212). -/
inductive Via
  | ring (r : Fin 4)
  | spi
  | applet (k : CoreId) (tid : Nat)
  | contactless
  deriving DecidableEq, Repr

/-- One TLV (R216): type number, CRIT bit, value. -/
structure Tlv where
  ty : Nat
  crit : Bool
  val : Bytes
  deriving DecidableEq, Repr

/-- A request packet after R214 to R216 (header fields and TLVs, in sender order). -/
structure Packet where
  major : Nat
  minor : Nat
  tag : Nat
  fence : Bool
  expert : Bool
  tlvs : List Tlv
  deriving DecidableEq, Repr

/-- A command packet as the interpreter takes it: its session, packet, and on a ring the index of its request ring entry
and the address that the entry gives for the reply (R227). -/
structure Call where
  via : Via
  desc : Nat
  pkt : Packet
  rsp : Nat := 0
  deriving DecidableEq, Repr

/-- A request ring entry, its 32 bytes as the host wrote them (R227), with the bytes the host put in its request buffer. -/
structure RingReq where
  entry : Bytes
  packet : Bytes
  deriving DecidableEq, Repr

/-- A receive or a transmit queue (R523). -/
inductive QueueId
  | rx (q : Fin 64)
  | tx (q : Fin 64)
  deriving DecidableEq, Repr

/-- A field between the source MAC and the EtherType (R48, R49). -/
inductive L2Tag
  | vlan (tpid : Nat) (vid : Nat)
  | hsr (path : Nat) (seq : Nat)
  deriving DecidableEq, Repr

/-- The six bytes before the FCS read as a redundancy control trailer (R50); `lan` is its LAN identifier, 0xA or 0xB for
the two LANs (log 110). -/
structure Rct where
  seq : Nat
  lan : Nat
  size : Nat
  suffix : Nat
  deriving DecidableEq, Repr

/-- IPv6 extension headers as R53 tells them apart. -/
inductive ExtHdr | hopByHop | destOpts | fragment | other
  deriving DecidableEq, Repr

/-- What a UDP datagram to port 102 carries (R45); a session with the payload encryption the device does not support
(R46) shows nothing of its payload. -/
inductive Session905 | sv | goose | encrypted | none
  deriving DecidableEq, Repr

/-- A UDP header: destination port, length, checksum (0 is none), and whether the checksum is the one of the bytes. -/
structure Udp where
  dport : Nat
  len : Nat := 0
  sum : BitVec 16 := 0
  sumOk : Bool := true
  session : Session905
  deriving DecidableEq, Repr

/-- The IP header fields the classifier uses (R45, R52, R53) and those the device updates (R152): `len` is the IPv4 total
or the IPv6 payload length, `hdrSum` the IPv4 header checksum. -/
structure IpInfo where
  v6 : Bool
  dst : Nat
  len : Nat := 0
  hdrSum : BitVec 16 := 0
  hdrSumOk : Bool
  moreFrags : Bool
  fragOff : Nat
  exts : List ExtHdr
  udp : Option Udp
  deriving DecidableEq, Repr

/-- MAC algorithm identifiers of the IEC 62351-6 extension (R151). -/
inductive MacAlg
  | hmacSha256x128
  | aesGmac128
  | other (n : Nat)
  deriving DecidableEq, Repr

/-- The security extension of a frame: none, IEC 62351-6 with its length (R52, R151) or the Bluortis extension (R153). -/
inductive SecExt
  | none
  | iec (len : Nat) (alg : MacAlg) (keyId : Nat) (iv : BitVec 96) (mac : BitVec 128)
  | bluortis (ty len fmt prof keyId : Nat) (salt : BitVec 32) (counter : BitVec 64) (tag : BitVec 128)
  deriving DecidableEq, Repr

/-- One ASDU of a sampled-value APDU (R119, R199, R202). -/
structure Asdu where
  smpCnt : Nat
  smpSynch : Nat
  deriving DecidableEq, Repr

/-- A run of MAC-covered bytes in frame order; `secret` marks seqData and allData contents (R154). -/
structure Seg where
  secret : Bool
  bytes : Bytes
  deriving DecidableEq, Repr

/-- A length field of the APDU, an ASDU, the security extension or the session (R52): its value, the bytes that remain in
the frame behind it, and whether the standard makes it cover the security extension (R152). -/
structure LenField where
  value : Nat
  room : Nat
  covers : Bool
  deriving DecidableEq, Repr

/-- The protected application unit, as far as the device uses its fields (R45, R52, R119, R199).
The k-th secret segment is the seqData of ASDU k, or the allData. `lens` are its length fields (R52), `sec` is what
stands where IEC 62351-6 puts the extension, `sig` what stands where IEC 61850-90-5 puts the session's signature (R46). -/
structure Apdu where
  appid : Nat
  ident : Option Bytes
  gocbRef : Bytes
  lens : List LenField
  asdus : List Asdu
  stNum : Nat
  sqNum : Nat
  tSec : Nat
  tFrac : Nat
  clockFailure : Bool
  clockNotSync : Bool
  spdu : Nat
  segs : List Seg
  sec : SecExt
  sig : SecExt := .none
  deriving DecidableEq, Repr

/-- A PTP message (R47, R191 to R193): messageType, correctionField in 2^-16 ns, whether it has a UDP checksum. -/
structure Ptp where
  msgType : Nat
  correction : Int
  originSec : Nat
  originNs : Nat
  deriving DecidableEq, Repr

/-- A frame on a line port or in host memory. `len` is the length in bytes with the FCS on the wire and
without it in host memory; `rest` is the payload of a frame with no APDU, `pad` the padding behind the payload. -/
structure Frame where
  len : Nat
  fcsOk : Bool
  codingError : Bool
  dst : BitVec 48
  src : BitVec 48
  tags : List L2Tag
  etherType : Nat
  ip : Option IpInfo
  ptp : Option Ptp
  apdu : Option Apdu
  rct : Option Rct
  rest : Bytes
  pad : Bytes := []
  deriving DecidableEq, Repr

/-- The IPv4 header checksum and the UDP checksum of a frame's bytes, which the standards lay out and the spec does not:
free values (log 75). -/
opaque Config.hdrSum : Frame → BitVec 16
opaque Config.udpSum : Frame → BitVec 16

/-- A transmit descriptor (R240) with the frame in its buffer. -/
structure TxDesc where
  addr : Nat := 0
  len : Nat
  port : Fin 4
  pair : Bool
  bypass : Bool
  oneStep : Bool
  stream : Nat
  frame : Frame
  deriving DecidableEq, Repr

/-- A descriptor the host posts on a queue: its 16 bytes (R237, R240), with the frame in its buffer. -/
inductive Desc
  | rx (entry : Bytes)
  | tx (entry : Bytes) (frame : Frame)
  deriving DecidableEq, Repr

/-- Who makes a register write: the host through BAR0, or the keeper of a core (R519, R525, R526). -/
inductive RegBus
  | host
  | core (k : CoreId)
  deriving DecidableEq, Repr

/-- What the ECC of a word read finds (R374). -/
inductive MemErr | clean | corrected | uncorrectable
  deriving DecidableEq, Repr

/-- The memories of R373 and the MRAM (R399). -/
inductive MemId
  | controlRam | controlRom | controlBit | streamCache | pumpStore | delivery | transmit
  | vaultX | vaultY | vaultRom | mailbox | vaultBit | engineBuffers | mram
  deriving DecidableEq, Repr

/-- What befalls one bus transfer: nothing, a code mismatch (R322), an ECC finding (R374), or a flash
unit that decodes at the given retry, 0 for none of the three (R386). -/
inductive BusEvt
  | clean
  | badRequestCode
  | badResponseCode
  | ecc (e : MemErr)
  | flashRetry (first : Fin 4)
  deriving DecidableEq, Repr

/-- A flash unit with an uncorrectable error: its index, and the first retry that decodes, 0 for none (R386). -/
structure FlashErr where
  unit : Nat
  firstRetry : Fin 4
  deriving DecidableEq, Repr

/-- An ISO/IEC 7816-4 command of the tag application (R296), with the MAC of secure messaging (R306). `collapse` is the
number of word writes that complete before the field collapses during the command, where it does (R288). -/
structure Apdu7816 where
  p1 : Nat
  p2 : Nat
  data : Bytes
  le : Nat
  mac : Bytes
  collapse : Option Nat := none
  deriving DecidableEq, Repr

/-- What a badge, or the air, answers the reader (R315). -/
inductive BadgeFrame
  | answered (several : Bool)
  | aid (accepted : Bool)
  | certificate (obj : Bytes)
  | signature (rs : Bytes)
  | refused
  deriving DecidableEq, Repr

/-- What a faulty lane does to the check of a frame (R160): the bits of its tag that it gets wrong, and whether it inverts
its pass bit. -/
structure LaneFault where
  tag : BitVec 128 := 0
  pass : Bool := false
  deriving DecidableEq, Repr

/-- What start-up finds in the hardware (R333, R345, R347): noise-bank start-up tests, pumps' first
known-answer round, failing regions of the march test, whether the factory page verifies (R505), and the calibration
items whose user word fails its check (R506). -/
structure BootEnv where
  bank0Ok : Bool
  bank1Ok : Bool
  katOk : Bool
  marchFails : List (MemId × Nat)
  factoryPageOk : Bool
  badUserCal : List Nat := []
  deriving DecidableEq, Repr

/-- The commands: one constructor per row of the table of operations and events. -/
inductive Instr
  /-- Command packet HELLO (R223). -/
  | hello (c : Call)
  /-- Command packet SESSION_INFO (R243). -/
  | sessionInfo (c : Call)
  /-- Command packet ECHO (R222). -/
  | echo (c : Call)
  /-- Command packet IDENT (R9). -/
  | ident (c : Call)
  /-- Command packet POLICY_LOAD (R355). -/
  | policyLoad (c : Call)
  /-- Command packet POLICY_GET (R243). -/
  | policyGet (c : Call)
  /-- Command packet PORT_CFG (R91). -/
  | portCfg (c : Call)
  /-- Command packet PAIR_CFG (R91). -/
  | pairCfg (c : Call)
  /-- Command packet RXQ_CFG (R531). -/
  | rxqCfg (c : Call)
  /-- Command packet TXQ_CFG (R243). -/
  | txqCfg (c : Call)
  /-- Command packet RXMAP_SET (R54). -/
  | rxmapSet (c : Call)
  /-- Command packet CFG_GET (R243). -/
  | cfgGet (c : Call)
  /-- Command packet STREAM_ADD (R105). -/
  | streamAdd (c : Call)
  /-- Command packet STREAM_DEL (R128). -/
  | streamDel (c : Call)
  /-- Command packet STREAM_MOD (R136). -/
  | streamMod (c : Call)
  /-- Command packet STREAM_GET (R135). -/
  | streamGet (c : Call)
  /-- Command packet STREAM_MOVE (R106). -/
  | streamMove (c : Call)
  /-- Command packet KEY_LOAD (R168). -/
  | keyLoad (c : Call)
  /-- Command packet KEY_RELEASE (R133). -/
  | keyRelease (c : Call)
  /-- Command packet KEY_INFO (R168). -/
  | keyInfo (c : Call)
  /-- Command packet ASSOC_LOAD (R534). -/
  | assocLoad (c : Call)
  /-- Command packet TXN_OPEN (R135). -/
  | txnOpen (c : Call)
  /-- Command packet TXN_COMMIT (R138). -/
  | txnCommit (c : Call)
  /-- Command packet TXN_ABORT (R139). -/
  | txnAbort (c : Call)
  /-- Command packet TXN_STATUS (R135). -/
  | txnStatus (c : Call)
  /-- Command packet EPOCH_ADVANCE (R141). -/
  | epochAdvance (c : Call)
  /-- Command packet TIME_GET (R194). -/
  | timeGet (c : Call)
  /-- Command packet TIME_SET (R194). -/
  | timeSet (c : Call)
  /-- Command packet TIME_FEED (R190). -/
  | timeFeed (c : Call)
  /-- Command packet TIME_SRC (R194). -/
  | timeSrc (c : Call)
  /-- Command packet PPS_CFG (R186). -/
  | ppsCfg (c : Call)
  /-- Command packet TC_CFG (R192). -/
  | tcCfg (c : Call)
  /-- Command packet TIME_CFG (R194). -/
  | timeCfg (c : Call)
  /-- Command packet CONS_SET (R201). -/
  | consSet (c : Call)
  /-- Command packet CONS_DEL (R208). -/
  | consDel (c : Call)
  /-- Command packet CONS_GET (R209). -/
  | consGet (c : Call)
  /-- Command packet CONS_STATUS (R209). -/
  | consStatus (c : Call)
  /-- Command packet VKEY_GEN (R249). -/
  | vkeyGen (c : Call)
  /-- Command packet VKEY_IMPORT (R249). -/
  | vkeyImport (c : Call)
  /-- Command packet VKEY_DESTROY (R249). -/
  | vkeyDestroy (c : Call)
  /-- Command packet VKEY_INFO (R284). -/
  | vkeyInfo (c : Call)
  /-- Command packet VC_BLOCK (R284). -/
  | vcBlock (c : Call)
  /-- Command packet VC_DECRYPT_VERIFY (R260). -/
  | vcDecryptVerify (c : Call)
  /-- Command packet VC_HASH (R284). -/
  | vcHash (c : Call)
  /-- Command packet MOD_OP (R284). -/
  | modOp (c : Call)
  /-- Command packet VSIGN (R285). -/
  | vsign (c : Call)
  /-- Command packet VVERIFY (R285). -/
  | vverify (c : Call)
  /-- Command packet RNG_GET (R284). -/
  | rngGet (c : Call)
  /-- Command packet NOISE_STATUS (R284). -/
  | noiseStatus (c : Call)
  /-- Command packet TAG_READ (R312). -/
  | tagRead (c : Call)
  /-- Command packet TAG_WRITE (R311). -/
  | tagWrite (c : Call)
  /-- Command packet TAG_COUNTER (R308). -/
  | tagCounter (c : Call)
  /-- Command packet TAG_ACCESS (R311). -/
  | tagAccess (c : Call)
  /-- Command packet CL_MODE (R289). -/
  | clMode (c : Call)
  /-- Command packet BADGE_READ (R315). -/
  | badgeRead (c : Call)
  /-- Command packet TAMPER_STATUS (R327). -/
  | tamperStatus (c : Call)
  /-- Command packet TAMPER_TEST (R329). -/
  | tamperTest (c : Call)
  /-- Command packet LIFECYCLE_GET (R243). -/
  | lifecycleGet (c : Call)
  /-- Command packet LIFECYCLE_SET (R334). -/
  | lifecycleSet (c : Call)
  /-- Command packet UNLOCK (R337). -/
  | unlock (c : Call)
  /-- Command packet DEBUG_AUTH (R339). -/
  | debugAuth (c : Call)
  /-- Command packet ROOT_REVOKE (R360). -/
  | rootRevoke (c : Call)
  /-- Command packet OWN_TAKE (R334). -/
  | ownTake (c : Call)
  /-- Command packet SNAPSHOT (R85). -/
  | snapshot (c : Call)
  /-- Command packet SELFTEST (R243). -/
  | selftest (c : Call)
  /-- Command packet PUMP_RESTORE (R177). -/
  | pumpRestore (c : Call)
  /-- Command packet MARCH_RUN (R379). -/
  | marchRun (c : Call)
  /-- Command packet LOOPBACK (R243). -/
  | loopback (c : Call)
  /-- Command packet FW_INFO (R363). -/
  | fwInfo (c : Call)
  /-- Command packet FW_BEGIN (R364). -/
  | fwBegin (c : Call)
  /-- Command packet FW_CHUNK (R365). -/
  | fwChunk (c : Call)
  /-- Command packet FW_ACTIVATE (R366). -/
  | fwActivate (c : Call)
  /-- Command packet FW_ROLLBACK (R368). -/
  | fwRollback (c : Call)
  /-- Command packet APPLET_LOAD (R366). -/
  | appletLoad (c : Call)
  /-- Command packet APPLET_CTL (R366). -/
  | appletCtl (c : Call)
  /-- Command packet CAL_GET (R504). -/
  | calGet (c : Call)
  /-- Command packet CAL_SET (R504). -/
  | calSet (c : Call)
  /-- Command packet CAL_CLEAR (R506). -/
  | calClear (c : Call)
  /-- Command packet EV_CFG (R514). -/
  | evCfg (c : Call)
  /-- Command packet EV_READ (R514). -/
  | evRead (c : Call)
  /-- Command packet SUMP_READ (R518). -/
  | sumpRead (c : Call)
  /-- Command packet SUMP_CLEAR (R518). -/
  | sumpClear (c : Call)
  /-- Command packet LOG_READ (R346). -/
  | logRead (c : Call)
  /-- PUT (R229). -/
  | spiPut (pkt : Bytes)
  /-- GET (R229). -/
  | spiGet (shifted : Nat)
  /-- STATUS (R229). -/
  | spiStatus
  /-- CMD_SUBMIT (R453). -/
  | cmdSubmit (k : CoreId)
  /-- CMD_WAIT (R453). -/
  | cmdWait (k : CoreId)
  /-- EV_WAIT (R453). -/
  | evWait (k : CoreId)
  /-- YIELD (R453). -/
  | yield_ (k : CoreId)
  /-- EXIT (R453). -/
  | exit (k : CoreId)
  /-- SYSTEM_CALL_TIMEOUT (R453). -/
  | systemCallTimeout (dt : Nat) (k : CoreId)
  /-- CRQ_TAIL (R522). -/
  | crqTail (ring : Fin 4) (tail : Nat) (reqs : List RingReq)
  /-- CRQ_BASE_HI (R522). -/
  | crqBaseHi (ring : Fin 4) (v : Word)
  /-- CRP_HEAD (R522). -/
  | crpHead (ring : Fin 4) (v : Nat)
  /-- DTAIL (R523). -/
  | dtail (q : QueueId) (tail : Nat) (descs : List Desc)
  /-- CHEAD (R523). -/
  | chead (q : QueueId) (v : Nat)
  /-- EV_PEND (R510). -/
  | evPend (bank : Fin 8) (v : Word)
  /-- INTC_PEND (R510). -/
  | intcPend (k : CoreId) (bank : Fin 8) (v : Word)
  /-- EV_RAISE (R528). -/
  | evRaise (k : CoreId) (v : Word)
  /-- SUMP_CLR (R528). -/
  | sumpClr (k : CoreId) (bank : Fin 8) (v : Word)
  /-- TU_CTL_STEP (R189). -/
  | tuCtlStep (v : Word)
  /-- TU_CTL_SNAP (R187). -/
  | tuCtlSnap (v : Word)
  /-- TU_UNCERT (R188). -/
  | tuUncert (v : Word)
  /-- VALVE_ENTRY_COMMIT (R464). -/
  | valveEntryCommit (k : CoreId) (entry : Fin 256) (v : Word)
  /-- ESCREQ (R450). -/
  | escreq (k : CoreId) (v : Word)
  /-- ME_CTL_ABORT (R273). -/
  | meCtlAbort (v : Word)
  /-- VC_QTAIL (R250). -/
  | vcQtail (v : Word)
  /-- ME_QTAIL (R265). -/
  | meQtail (v : Word)
  /-- NW_RAND (R281). -/
  | nwRand (rd : Reg)
  /-- CYCLE_LO (R410). -/
  | cycleLo (k : CoreId) (rd : Reg)
  /-- REGISTER_WRITE (R12). -/
  | registerWrite (by_ : RegBus) (addr : Nat) (v : Word)
  /-- FRAME_RECEIVE (R43). -/
  | frameReceive (dt : Nat) (port : Fin 4) (sof : Nat) (f : Frame)
  /-- ENTRY_READ_COMPLETE (R103). -/
  | entryReadComplete (dt : Nat) (idx : Nat) (flips : BitVec 1024) (tagFlips : BitVec 128)
  /-- INGRESS_STEP_6 (R122). -/
  | ingressStep6 (dt : Nat) (ticket : Nat) (errA errB : LaneFault)
  /-- CONSISTENCY_EVALUATION (R205). -/
  | consistencyEvaluation (dt : Nat)
  /-- VERDICT_RELEASE (R73). -/
  | verdictRelease (dt : Nat) (ticket : Nat)
  /-- LATE_VERDICT (R74). -/
  | lateVerdict (dt : Nat) (ticket : Nat)
  /-- SPILL_START (R69). -/
  | spillStart (dt : Nat) (q : Fin 64)
  /-- STAGING_DRAW (R70). -/
  | stagingDraw (q : Fin 64) (tagOk : Bool)
  /-- RECORD_DELIVERY (R56). -/
  | recordDelivery (q : Fin 64) (e : MemErr)
  /-- TX_DESCRIPTOR_FETCH (R61). -/
  | txDescriptorFetch (q : Fin 64)
  /-- TICKET_RETRY (R61). -/
  | ticketRetry (q : Fin 64)
  /-- TX_DATA_COMPLETE (R87). -/
  | txDataComplete (dt : Nat) (ticket : Nat) (errA errB : BitVec 128) (guardA guardB : Bool)
  /-- EGRESS_RELEASE (R89). -/
  | egressRelease (dt : Nat) (ticket : Nat)
  /-- LATE_RELEASE (R89). -/
  | lateRelease (dt : Nat) (ticket : Nat)
  /-- TRANSMIT_COMPLETE (R241). -/
  | transmitComplete (dt : Nat) (ticket : Nat) (port : Fin 4) (stamp : Nat)
  /-- BLOCK_GRANT (R126). -/
  | blockGrant
  /-- KEY_STORE_LOAD (R163). -/
  | keyStoreLoad
  /-- SLOT_DRAINED (R133). -/
  | slotDrained (slot : Nat)
  /-- REMASK_SWEEP (R165). -/
  | remaskSweep (dt : Nat) (e : MemErr)
  /-- KNOWN_ANSWER_TEST (R175). -/
  | knownAnswerTest (dt : Nat) (pump : Fin 4) (err : BitVec 384)
  /-- PAIRING_ROTATION (R146). -/
  | pairingRotation (dt : Nat)
  /-- MASK_RESEED (R171). -/
  | maskReseed (dt : Nat) (pump : Fin 4)
  /-- MASK_RESEED_OVERDUE (R171). -/
  | maskReseedOverdue (dt : Nat) (pump : Fin 4)
  /-- LINK_CHANGE (R43). -/
  | linkChange (port : Fin 4) (up : Bool)
  /-- RISER_GROUP_RECEIVED (R19). -/
  | riserGroupReceived (dt : Nat) (toWellhead : Bool) (flips : BitVec 1024)
  /-- RETRAIN_COMPLETE (R19). -/
  | retrainComplete (dt : Nat)
  /-- RISER_DOWN (R22). -/
  | riserDown (dt : Nat)
  /-- RISER_KEY_REPLACEMENT (R18). -/
  | riserKeyReplacement (dt : Nat)
  /-- TXN_ARMED_INSTANT (R138). -/
  | txnArmedInstant (dt : Nat) (slot : Fin 8)
  /-- SETTLING_START (R141). -/
  | settlingStart (dt : Nat) (slot : Fin 8)
  /-- SETTLE_ENTRY (R141). -/
  | settleEntry (slot : Fin 8)
  /-- CLEANUP_ENTRY (R141). -/
  | cleanupEntry (slot : Fin 8)
  /-- HOLDOVER_ENTRY (R188). -/
  | holdoverEntry (dt : Nat)
  /-- FREERUN_ENTRY (R188). -/
  | freerunEntry (dt : Nat)
  /-- REFERENCE_LOST (R181). -/
  | referenceLost (dt : Nat)
  /-- PPS_IN_EDGE (R185). -/
  | ppsInEdge (dt : Nat) (rising : Bool) (sub : Nat)
  /-- PPS_IN_MISSING (R185). -/
  | ppsInMissing (dt : Nat)
  /-- PPS_OUT_EDGE (R186). -/
  | ppsOutEdge (dt : Nat)
  /-- PPS_OUT_PULSE_END (R186). -/
  | ppsOutPulseEnd (dt : Nat)
  /-- REPLICA_REANCHOR (R182). -/
  | replicaReanchor (dt : Nat)
  /-- UTCOFF_EFFECTIVE (R195). -/
  | utcoffEffective (dt : Nat)
  /-- ENC (R252). -/
  | vcEnc
  /-- DEC (R252). -/
  | vcDec
  /-- KEYSTREAM (R258). -/
  | keystream
  /-- VDEC (R260). -/
  | vdec
  /-- NONCE_BASE (R259). -/
  | nonceBase
  /-- SHA256 (R252). -/
  | sha256
  /-- SHA512 (R252). -/
  | sha512
  /-- HKEY (R252). -/
  | hkey
  /-- MODADD (R267). -/
  | modadd
  /-- MODSUB (R267). -/
  | modsub
  /-- MODMUL (R267). -/
  | modmul
  /-- MODEXP (R267). -/
  | modexp
  /-- MODINV (R267). -/
  | modinv
  /-- ECBASE (R267). -/
  | ecbase (resultFaulty : Bool)
  /-- ECMUL (R267). -/
  | ecmul (resultFaulty : Bool)
  /-- ECMUL2 (R267). -/
  | ecmul2 (resultFaulty : Bool)
  /-- ECCHECK (R267). -/
  | eccheck
  /-- X25519 (R267). -/
  | x25519 (resultFaulty : Bool)
  /-- NTT (R267). -/
  | ntt
  /-- INTT (R267). -/
  | intt
  /-- PMUL (R267). -/
  | pmul
  /-- PADD (R267). -/
  | padd
  /-- PSUB (R267). -/
  | psub
  /-- CONDITIONING_BLOCK (R275). -/
  | conditioningBlock (bank : Fin 2)
  /-- HEALTH_TEST_FAILURE (R277). -/
  | healthTestFailure (dt : Nat) (osc : Fin 8) (adaptive : Bool)
  /-- STARTUP_TEST_COMPLETE (R277). -/
  | startupTestComplete (bank : Fin 2)
  /-- NOISE_ESTIMATE (R278). -/
  | noiseEstimate (osc : Fin 8) (bias : Int) (lags : List Int)
  /-- DRBG_RESEED (R279). -/
  | drbgReseed (dt : Nat)
  /-- ENGINE_MASK_RESEED (R262). -/
  | engineMaskReseed (dt : Nat)
  /-- FIELD_ON (R287). -/
  | fieldOn
  /-- FIELD_LOSS (R291). -/
  | fieldLoss
  /-- REQA (R291). -/
  | reqa
  /-- WUPA (R291). -/
  | wupa
  /-- SELECT (R291). -/
  | selectCard (uid : BitVec 32)
  /-- HLTA (R291). -/
  | hlta
  /-- RATS (R292). -/
  | rats
  /-- PPS (R293). -/
  | pps (dsi dri : Nat)
  /-- S_DESELECT (R291). -/
  | sDeselect
  /-- S_WTX (R299). -/
  | sWtx (dt : Nat)
  /-- SELECT_APPLICATION (R295). -/
  | selectApplication (aid : Bytes)
  /-- VERIFY_PWD (R304). -/
  | verifyPwd (a : Apdu7816)
  /-- AUTH1 (R305). -/
  | auth1 (a : Apdu7816)
  /-- AUTH2 (R305). -/
  | auth2 (a : Apdu7816)
  /-- READ (R296). -/
  | tagApduRead (a : Apdu7816)
  /-- WRITE (R309). -/
  | tagApduWrite (a : Apdu7816)
  /-- CTR_READ (R296). -/
  | ctrRead (a : Apdu7816)
  /-- CTR_INC (R308). -/
  | ctrInc (a : Apdu7816)
  /-- EXEC (R298). -/
  | exec7816 (pkt : Bytes)
  /-- MIRROR_UPDATE (R313). -/
  | mirrorUpdate
  /-- BADGE_POLL (R315). -/
  | badgePoll (dt : Nat) (extField : Bool)
  /-- BADGE_RESPONSE (R315). -/
  | badgeResponse (dt : Nat) (r : BadgeFrame)
  /-- BADGE_TIMEOUT (R315). -/
  | badgeTimeout (dt : Nat)
  /-- TAMPER_FIRE (R327). -/
  | tamperFire (dt : Nat) (srcs : BitVec 32)
  /-- TAMPER_REARM (R328). -/
  | tamperRearm (dt : Nat) (src : Fin 24)
  /-- BACKUP_SAMPLE (R330). -/
  | backupSample (dt : Nat) (conds : BitVec 32)
  /-- DEBUG_SCOPE_EXPIRY (R339). -/
  | debugScopeExpiry (dt : Nat)
  /-- DEBUG_ACCESS (R341). -/
  | debugAccess (k : CoreId) (addr : Nat) (write : Bool) (v : Word)
  /-- BYPASS (R499). -/
  | bypass
  /-- IDCODE (R500). -/
  | idcode
  /-- SAMPLE_PRELOAD (R499). -/
  | samplePreload
  /-- EXTEST (R503). -/
  | extest
  /-- INTEST (R503). -/
  | intest
  /-- CLAMP (R503). -/
  | clamp
  /-- HIGHZ (R503). -/
  | highz
  /-- EXTEST_PULSE (R503). -/
  | extestPulse
  /-- EXTEST_TRAIN (R503). -/
  | extestTrain
  /-- DEBUG (R499). -/
  | tapDebug
  /-- PWR_OK_RISE (R474). -/
  | pwrOkRise (dt : Nat)
  /-- PWR_OK_FALL (R475). -/
  | pwrOkFall (dt : Nat)
  /-- RESET_N (R485). -/
  | resetN (dt : Nat)
  /-- WRST_N (R485). -/
  | wrstN (dt : Nat)
  /-- PERST (R487). -/
  | perst (dt : Nat)
  /-- TRST_N (R501). -/
  | trstN
  /-- TESTMODE (R470). -/
  | testmode (level : Bool)
  /-- RESET_RELEASE (R347). -/
  | resetRelease (dt : Nat) (env : BootEnv)
  /-- REFCLK_LINE_LOST (R484). -/
  | refclkLineLost (dt : Nat)
  /-- REFCLK_LINE_RETURN (R484). -/
  | refclkLineReturn (dt : Nat)
  /-- PCIE_REFCLK_LOST (R484). -/
  | pcieRefclkLost (dt : Nat)
  /-- XTAL25_LOST (R484). -/
  | xtal25Lost (dt : Nat)
  /-- XTAL25_RETURN (R484). -/
  | xtal25Return (dt : Nat)
  /-- XTAL32_STOPPED (R484). -/
  | xtal32Stopped (dt : Nat)
  /-- OVERTEMP (R497). -/
  | overtemp (sensor : Fin 4) (tenthsC : Int)
  /-- SCRUB (R375). -/
  | scrub (m : MemId) (word : Nat) (e : MemErr)
  /-- MARCH_BLOCK (R378). -/
  | marchBlock (dt : Nat) (m : MemId) (block : Nat) (fails : List Nat)
  /-- FL_READ (R394). -/
  | flRead (errs : List FlashErr)
  /-- FL_PROGRAM (R395). -/
  | flProgram (verifyOk : Bool)
  /-- FL_ERASE (R391). -/
  | flErase
  /-- FL_POLL (R394). -/
  | flPoll
  /-- FL_BLANK (R394). -/
  | flBlank
  /-- FL_INFO (R394). -/
  | flInfo
  /-- FL_CONFIG (R390). -/
  | flConfig
  /-- FL_REFRESH (R397). -/
  | flRefresh (marginClean : Bool) (doneOk : Bool)
  /-- ERASE_SUSPEND_REQUEST (R387). -/
  | eraseSuspendRequest (dt : Nat) (addr : Nat)
  /-- SUSPEND_ACCEPT (R388). -/
  | suspendAccept (dt : Nat)
  /-- ERASE_RESUME (R387). -/
  | eraseResume (dt : Nat)
  /-- FLASH_DONE (R391). -/
  | flashDone (dt : Nat) (verifyOk : Bool)
  /-- FW_ACTIVATE_INSTANT (R366). -/
  | fwActivateInstant (dt : Nat)
  /-- TRIAL_END (R367). -/
  | trialEnd (dt : Nat) (k : CoreId)
  /-- INTERRUPT_ENTRY (R446). -/
  | interruptEntry (k : CoreId)
  /-- IMPRECISE_BUS_ERROR (R449). -/
  | impreciseBusError (k : CoreId) (addr : Word)
  /-- LOCKSTEP_MISMATCH (R455). -/
  | lockstepMismatch (dt : Nat) (k : CoreId)
  /-- ADD (R418). -/
  | add (k : CoreId) (rd rs rt : Reg)
  /-- SUB (R418). -/
  | sub (k : CoreId) (rd rs rt : Reg)
  /-- AND (R418). -/
  | and_ (k : CoreId) (rd rs rt : Reg)
  /-- OR (R418). -/
  | or_ (k : CoreId) (rd rs rt : Reg)
  /-- XOR (R418). -/
  | xor (k : CoreId) (rd rs rt : Reg)
  /-- NOR (R418). -/
  | nor (k : CoreId) (rd rs rt : Reg)
  /-- SLL (R418). -/
  | sll (k : CoreId) (rd rs rt : Reg)
  /-- SRL (R418). -/
  | srl (k : CoreId) (rd rs rt : Reg)
  /-- SRA (R418). -/
  | sra (k : CoreId) (rd rs rt : Reg)
  /-- ROR (R418). -/
  | ror (k : CoreId) (rd rs rt : Reg)
  /-- MUL (R418). -/
  | mul (k : CoreId) (rd rs rt : Reg)
  /-- MULH (R418). -/
  | mulh (k : CoreId) (rd rs rt : Reg)
  /-- MULHU (R418). -/
  | mulhu (k : CoreId) (rd rs rt : Reg)
  /-- DIV (R418). -/
  | div (k : CoreId) (rd rs rt : Reg)
  /-- DIVU (R418). -/
  | divu (k : CoreId) (rd rs rt : Reg)
  /-- REM (R418). -/
  | rem (k : CoreId) (rd rs rt : Reg)
  /-- REMU (R418). -/
  | remu (k : CoreId) (rd rs rt : Reg)
  /-- CLZ (R418). -/
  | clz (k : CoreId) (rd rs : Reg)
  /-- CTZ (R418). -/
  | ctz (k : CoreId) (rd rs : Reg)
  /-- POPC (R418). -/
  | popc (k : CoreId) (rd rs : Reg)
  /-- BREV (R418). -/
  | brev (k : CoreId) (rd rs : Reg)
  /-- ADDI (R417). -/
  | addi (k : CoreId) (rd rs : Reg) (imm : BitVec 18)
  /-- ANDI (R417). -/
  | andi (k : CoreId) (rd rs : Reg) (imm : BitVec 18)
  /-- ORI (R417). -/
  | ori (k : CoreId) (rd rs : Reg) (imm : BitVec 18)
  /-- XORI (R417). -/
  | xori (k : CoreId) (rd rs : Reg) (imm : BitVec 18)
  /-- SLLI (R417). -/
  | slli (k : CoreId) (rd rs : Reg) (sh : BitVec 5)
  /-- SRLI (R417). -/
  | srli (k : CoreId) (rd rs : Reg) (sh : BitVec 5)
  /-- SRAI (R417). -/
  | srai (k : CoreId) (rd rs : Reg) (sh : BitVec 5)
  /-- RORI (R417). -/
  | rori (k : CoreId) (rd rs : Reg) (sh : BitVec 5)
  /-- LUI (R417). -/
  | lui (k : CoreId) (rd : Reg) (imm : BitVec 22)
  /-- LB (R431). -/
  | lb (k : CoreId) (rd rs : Reg) (imm : BitVec 18) (e : BusEvt)
  /-- LBU (R431). -/
  | lbu (k : CoreId) (rd rs : Reg) (imm : BitVec 18) (e : BusEvt)
  /-- LH (R431). -/
  | lh (k : CoreId) (rd rs : Reg) (imm : BitVec 18) (e : BusEvt)
  /-- LHU (R431). -/
  | lhu (k : CoreId) (rd rs : Reg) (imm : BitVec 18) (e : BusEvt)
  /-- LW (R431). -/
  | lw (k : CoreId) (rd rs : Reg) (imm : BitVec 18) (e : BusEvt)
  /-- SB (R431). -/
  | sb (k : CoreId) (rt rs : Reg) (imm : BitVec 18) (e : BusEvt)
  /-- SH (R431). -/
  | sh (k : CoreId) (rt rs : Reg) (imm : BitVec 18) (e : BusEvt)
  /-- SW (R431). -/
  | sw (k : CoreId) (rt rs : Reg) (imm : BitVec 18) (e : BusEvt)
  /-- CBEQ (R420). -/
  | cbeq (k : CoreId) (rs rt : Reg) (off : BitVec 18)
  /-- CBNE (R420). -/
  | cbne (k : CoreId) (rs rt : Reg) (off : BitVec 18)
  /-- CBLT (R420). -/
  | cblt (k : CoreId) (rs rt : Reg) (off : BitVec 18)
  /-- CBGE (R420). -/
  | cbge (k : CoreId) (rs rt : Reg) (off : BitVec 18)
  /-- CBLTU (R420). -/
  | cbltu (k : CoreId) (rs rt : Reg) (off : BitVec 18)
  /-- CBGEU (R420). -/
  | cbgeu (k : CoreId) (rs rt : Reg) (off : BitVec 18)
  /-- J (R420). -/
  | jump (k : CoreId) (off : BitVec 26)
  /-- JAL (R420). -/
  | jal (k : CoreId) (off : BitVec 26)
  /-- JR (R417). -/
  | jr (k : CoreId) (rs : Reg)
  /-- JALR (R420). -/
  | jalr (k : CoreId) (rd rs : Reg)
  /-- SEQ (R424). -/
  | seq (k : CoreId) (rd rs rt : Reg)
  /-- SNE (R424). -/
  | sne (k : CoreId) (rd rs rt : Reg)
  /-- SLT (R424). -/
  | slt (k : CoreId) (rd rs rt : Reg)
  /-- SLTU (R424). -/
  | sltu (k : CoreId) (rd rs rt : Reg)
  /-- SEL (R424). -/
  | sel (k : CoreId) (rd rs rt ru : Reg)
  /-- MASK (R424). -/
  | maskBit (k : CoreId) (rd rs : Reg)
  /-- BSET (R415). -/
  | bset (k : CoreId) (rb : Reg) (imm : BitVec 16)
  /-- BCLR (R415). -/
  | bclr (k : CoreId) (rb : Reg) (imm : BitVec 16)
  /-- BTGL (R415). -/
  | btgl (k : CoreId) (rb : Reg) (imm : BitVec 16)
  /-- BMOV (R415). -/
  | bmov (k : CoreId) (rs rb : Reg) (imm : BitVec 16)
  /-- BTST (R415). -/
  | btst (k : CoreId) (rd rb : Reg) (imm : BitVec 16)
  /-- LOOP (R425). -/
  | loop (k : CoreId) (rs : Reg) (fin : BitVec 12)
  /-- LOOPI (R425). -/
  | loopi (k : CoreId) (count : BitVec 10) (fin : BitVec 12)
  /-- MACX (R428). -/
  | macx (k : CoreId) (acc : Fin 4)
  /-- MACXU (R428). -/
  | macxu (k : CoreId) (acc : Fin 4)
  /-- MSUX (R428). -/
  | msux (k : CoreId) (acc : Fin 4)
  /-- MACR (R428). -/
  | macr (k : CoreId) (acc : Fin 4) (rd rs : Reg)
  /-- MFA (R428). -/
  | mfa (k : CoreId) (rd : Reg) (acc : Fin 4) (part : Fin 3)
  /-- MTA (R428). -/
  | mta (k : CoreId) (acc : Fin 4) (rs : Reg) (part : Fin 3)
  /-- CLRA (R428). -/
  | clra (k : CoreId) (acc : Fin 4)
  /-- SHRA (R428). -/
  | shra (k : CoreId) (acc : Fin 4) (sh : BitVec 6)
  /-- SWAP (R432). -/
  | swap (k : CoreId) (rd rs rt : Reg)
  /-- CAS (R432). -/
  | cas (k : CoreId) (rd rs rt : Reg)
  /-- AMOADD (R432). -/
  | amoadd (k : CoreId) (rd rs rt : Reg)
  /-- AMOAND (R432). -/
  | amoand (k : CoreId) (rd rs rt : Reg)
  /-- AMOOR (R432). -/
  | amoor (k : CoreId) (rd rs rt : Reg)
  /-- SCALL (R452). -/
  | scall (k : CoreId) (n : Fin 8)
  /-- SRET (R452). -/
  | sret (k : CoreId)
  /-- ERET (R445). -/
  | eret (k : CoreId)
  /-- MFS (R410). -/
  | mfs (k : CoreId) (rd : Reg) (n : BitVec 8)
  /-- MTS (R410). -/
  | mts (k : CoreId) (rs : Reg) (n : BitVec 8)
  /-- FENCE (R433). -/
  | fence (k : CoreId)
  /-- IFENCE (R433). -/
  | ifence (k : CoreId)
  /-- WFI (R434). -/
  | wfi (k : CoreId)
  /-- BREAK (R434). -/
  | break_ (k : CoreId)
  /-- EMULATION (R435). -/
  | emulation (k : CoreId) (w : Word)
  /-- COUNTER_BLOCK_REQUEST (R126). -/
  | counterBlockRequest
  /-- TAMPER_SOURCE_INACTIVE (R328). -/
  | tamperSourceInactive (dt : Nat) (src : Fin 24)
  /-- XTAL32_RESTART (R484). -/
  | xtal32Restart (dt : Nat)
  /-- PERST_RELEASE (R349). -/
  | perstRelease
  /-- PCIE_REFCLK_RETURN (R484). -/
  | pcieRefclkReturn (dt : Nat)
  deriving DecidableEq, Repr

end Sys2Proof
end

