-- ==== Sys2Proof/Machine/State.lean ====
section
/-! DEFINITION. The state of the block, as plain data, grouped by what owns it and by what a reset clears;
the state right after a cold reset; and the reasons a step can stop. PTP instants are naturals in units of
2^-16 ns since the epoch unless a field says otherwise; elapsed times are time-clock ticks of 4 ns (log 2). -/
namespace Sys2Proof.Machine

/-! ## Why a step stops -/

/-- Faults. Nothing in this block stops the machine by a fault of the model: a fault of a core is an exception
entry (R445) and a fault of the hardware is a degraded mode (R35), both next states. -/
inductive Fault
  /-- Raised by nobody: kept so that the outcome type is complete. Safe. -/
  | unreachable
  deriving DecidableEq, Repr

/-- Refusals. -/
inductive Refusal
  /-- A command the model has no meaning for yet; raised by arms of exec only. Safe. -/
  | notModelled (mnemonic : String)
  /-- A core access to a vendor block whose register layout the spec keeps out of the interface (R527);
  raised by loads, stores and atomics at those addresses. Safe: the machine stops where the hardware goes on. -/
  | vendorBlock (addr : Nat)
  deriving DecidableEq, Repr

/-! ## Clocks, pins and start-up -/

/-- Elapsed time. `now` counts time-clock ticks of 4 ns (R180); `rtc` counts 2^-15 s (R517). `turns` holds, for each kind
of same-clock contention, the tick and the rank of the last contender served (log 101). -/
structure Clk where
  now : Nat := 0
  turns : SMap (Nat × Nat) := []
  rtc : Nat := 0
  rtcRem : Nat := 0
  rtcRuns : Bool := true
  deriving DecidableEq, Repr

/-- BOOT_STAGE (R350). -/
inductive Stage | reset | wellheadRom | riser | pumphouse | tableInit | ready | recovery | swapC | swapV
  deriving DecidableEq, Repr

/-- The kinds of reset of the whole device (R344, R485). -/
inductive ResetKind | cold | warm
  deriving DecidableEq, Repr

/-- A running hitless swap (R369, R370): its core, the session it activates (none is a rollback), the cause its new
firmware starts with, its swap point, its commit point and its end by the maxima of the spec (log 54), whether it has
passed the first two, and the applets it has stopped. -/
structure Swap where
  core : CoreId
  sess : Option Nat
  cause : Word
  pointAt : Nat
  commitAt : Nat
  endsAt : Nat
  pointed : Bool := false
  committed : Bool := false
  apps : List Nat := []
  deriving DecidableEq, Repr

/-- Power, reset and clock inputs, and start-up (chapters 10 and 14). -/
structure Plat where
  pwrOk : Bool := true
  pwrOkAt : Nat := 0
  vbat : Bool := true
  testMode : Bool := false
  resetKind : ResetKind := .cold
  resetAt : Nat := 0
  stage : Stage := .reset
  dpReleased : Bool := false
  pcieReset : Bool := false
  pcieL0 : Bool := true
  refLine : Bool := true
  pcieRef : Bool := true
  xtal25 : Bool := true
  xtal32 : Bool := true
  lostAt : Nat := 0
  swap : Option Swap := none
  readyAt : Nat := 0
  dualOn : Bool := true
  overtemp : List Nat := []
  deriving DecidableEq, Repr

/-! ## Events and sump (chapter 15) -/

/-- What the control core or the stream engine has to ask of the vault core over the KEY channel and could not yet
(R22, R23): the new value of counter 4 (R130), a fresh block for a line whose entry was re-read (R115: entry index),
the release or the freeing of a line (R128). -/
inductive KeyReq
  | epoch (e : Nat)
  | reload (idx : Nat)
  | release (line : Nat) (free : Bool)
  deriving DecidableEq, Repr

structure Ev where
  pend : BitVec 256 := 0
  mask : BitVec 256 := BitVec.allOnes 256
  lvl : SMap Nat := []
  alertLvl : Nat := 3
  intcPendC : BitVec 256 := 0
  intcPendV : BitVec 256 := 0
  intcLvlC : SMap Nat := []
  intcLvlV : SMap Nat := []
  sumpP : BitVec 256 := 0
  sumpW : BitVec 256 := 0
  msixMask : BitVec 64 := BitVec.allOnes 64
  msixPba : BitVec 64 := 0
  msixTable : SMap Nat := []
  logFull : Bool := false
  waitToP : List Nat := []
  waitToV : List (Nat × List Nat) := []
  waitKey : List KeyReq := []
  deriving DecidableEq, Repr

/-! ## Frame path (chapter 02) -/

/-- Frame classes with their codes 0 to 4 (R45). -/
inductive FClass | bypass | sv | goose | rsv | rgoose
  deriving DecidableEq, Repr

/-- Authenticity codes (R77). -/
inductive Code | authOk | authFail | unknownStream | noKey | keyExpired | malformed | laneMismatch | unprotected
  deriving DecidableEq, Repr

/-- Transmit statuses (R88). -/
inductive TxStatus | sent | sentOne | noEntry | noKey | keyExpired | wrapRefused | malformed | laneMismatch | portDown
  deriving DecidableEq, Repr

/-- The match key of R100: entry bytes 0 to 27. -/
structure MatchKey where
  daddr : Bytes
  idHash : BitVec 64
  appid : Nat
  vid : Nat
  fclass : Nat
  publish : Bool
  deriving DecidableEq, Repr

/-- A control bank (R109). -/
structure Bank where
  kpair : Nat := 0
  prof : Nat := 0
  kepoch : Nat := 0
  rxq : Nat := 0
  pfv : Nat := 0
  tbnd : Nat := 0
  salt : Nat := 0
  deriving DecidableEq, Repr

/-- The verdict word (R75), field by field. -/
structure Verdict where
  ver : Nat
  code : Code
  flags : BitVec 5
  corr : Bool
  cinc : Bool
  memerr : Bool
  len : Nat
  ts : Nat
  stream : Nat
  port : Nat
  rclass : Nat
  fclass : Nat
  vtag : Bool
  epoch : Nat
  deriving DecidableEq, Repr

/-- A verdicted record of a receive queue (R56): verdict word, delivered frame and its length; `rel` is the tick of the
frame's last bit, which with the port gives its place in the queue (R57). -/
structure Rec where
  verdict : Verdict
  frame : Frame
  flen : Nat
  port : Nat
  rel : Nat
  at_ : Nat
  ticket : Option Nat
  cells : Nat
  deriving DecidableEq, Repr

/-- A row of the pump key store as a lane holds it (R164): the two shares it read, and the value of its generator that it
put into both. The lane's shares are the two exclusive-ored with the mask, so its key is theirs. -/
structure Latch where
  share0 : BitVec 256
  share1 : BitVec 256
  mask : BitVec 256
  deriving DecidableEq, Repr

/-- Where an ingress frame stands between its ticket and its verdict (R74). -/
inductive IngStage
  | reading (rank : Nat)
  | waitRead (rank : Nat)
  | working
  | done
  deriving DecidableEq, Repr

/-- A consistency answer (R204); `open_` while the instant is not evaluated. -/
inductive Ans | open_ | consistent | inconsistent | incomplete
  deriving DecidableEq, Repr

/-- A frame's part in an instant of a check group (R203, R206). -/
structure Contrib where
  group : Nat
  n : Nat
  ans : Ans
  deriving DecidableEq, Repr

/-- The time unit's values that judge a frame, as they stood at its arrival timestamp (R197). -/
structure TimeSnap where
  state : Nat := 0
  uset : Nat := 0
  tset : Int := 0
  drift : Nat := 0
  umax : Nat := 0
  utcoff : Int := 0
  utcvalid : Bool := false
  preStep : Nat := 0
  deriving DecidableEq, Repr

/-- An ingress frame that holds a ticket (R60 to R81): with its located extension (R46), the path and number of its HSR
tag (R49), the number and LAN of its RCT (R50), the PTP mark (R47), the shares each lane has latched (R164), and the
corrected errors found in its cells (R68). -/
structure Ing where
  ticket : Nat
  port : Fin 4
  frame : Frame
  flen : Nat
  fclass : FClass
  parseOk : Bool
  rclass : Nat
  vtag : Bool
  ts : Nat
  sofTick : Nat
  lastBit : Nat
  sec : SecExt
  hsr : Option (Nat × Nat)
  rct : Option (Nat × Nat)
  ptpMark : Bool
  key : Option MatchKey
  cands : List Nat
  snap : TimeSnap
  paired : Bool
  stage : IngStage
  entry : Option Nat := none
  bank : Option Bank := none
  slot : Option Nat := none
  slotNo : Nat := 0
  slotEpoch : Nat := 0
  work : Nat := 0
  lanes : List Nat := []
  latched : List Latch := []
  code : Option Code := none
  flags : BitVec 5 := 0
  contribs : List Contrib := []
  over8 : Bool := false
  committed : Bool := false
  memErr : Bool := false
  corrs : Nat := 0
  cells : Nat
  doneAt : Nat := 0
  deriving DecidableEq, Repr

/-- Settings, pointers, records and counters of a receive queue (R54 to R83, R237 to R239, R523, R524). -/
structure RxQ where
  base : Nat := 0
  size : Nat := 0
  cbase : Nat := 0
  csize : Nat := 0
  vector : Nat := 0
  vfmt : Nat := 1
  drop : Nat := 0
  coalNs : Nat := 0
  coalN : Nat := 0
  intMask : Bool := false
  dtail : Nat := 0
  dhead : Nat := 0
  chead : Nat := 0
  ctail : Nat := 0
  phase : Bool := true
  bufs : List (Nat × Nat) := []
  bufUsed : Nat := 0
  stagedBytes : Nat := 0
  recs : List Rec := []
  staged : List Rec := []
  spilling : Bool := false
  ovfRaised : Bool := false
  delivered : Nat := 0
  dropCode : SMap Nat := []
  dropFlag : SMap Nat := []
  overflow : Nat := 0
  late : Nat := 0
  corrected : Nat := 0
  deriving DecidableEq, Repr

/-- A transmit completion (R241). -/
structure TxComp where
  desc : Nat
  status : TxStatus
  ports : List Nat
  tsA : Nat
  tsB : Nat
  counter : Nat
  deriving DecidableEq, Repr

/-- Settings, pointers and counters of a transmit queue (R61, R86 to R90, R240, R241, R523, R524).
`order` lists the descriptors whose completion is still owed, oldest first, with the completion once known. -/
structure TxQ where
  base : Nat := 0
  size : Nat := 0
  cbase : Nat := 0
  csize : Nat := 0
  vector : Nat := 0
  coalNs : Nat := 0
  coalN : Nat := 0
  intMask : Bool := false
  dtail : Nat := 0
  dhead : Nat := 0
  chead : Nat := 0
  ctail : Nat := 0
  phase : Bool := true
  descs : List TxDesc := []
  waiting : Bool := false
  order : List (Nat × Option TxComp) := []
  status : SMap Nat := []
  lateRel : Nat := 0
  deriving DecidableEq, Repr

/-- Where an egress frame stands (R87, R89). -/
inductive EgrStage | reading (rank : Nat) | waitRead (rank : Nat) | fetching | waitJob | working | signed | refused | released
  deriving DecidableEq, Repr

/-- What faulty lanes do to an egress job: errors in the tags, and failures of the nonce guards (R158, R160). -/
structure LaneErr where
  errA : BitVec 128 := 0
  errB : BitVec 128 := 0
  guardA : Bool := false
  guardB : Bool := false
  deriving DecidableEq, Repr

/-- An egress frame that holds a ticket: with its image and key slot (R87, R132), its job (R147, R164), the tick by which
the job's tags are complete, and what faulty lanes do to it. -/
structure Egr where
  ticket : Nat
  q : Fin 64
  desc : Nat
  d : TxDesc
  stage : EgrStage
  key : Option MatchKey := none
  cands : List Nat := []
  entry : Option Nat := none
  bank : Option Bank := none
  slot : Option Nat := none
  lanes : List Nat := []
  work : Nat := 0
  latched : List Latch := []
  readyAt : Nat := 0
  fault : LaneErr := {}
  counter : Nat := 0
  lastByte : Option Nat := none
  out : Option Frame := none
  refusal : Option TxStatus := none
  toSend : List Nat := []
  sent : List (Nat × Nat) := []
  doneAt : Nat := 0
  cells : Nat := 0
  deriving DecidableEq, Repr

/-- A frame that waits to leave a port (R90): a local one by its ticket, or one that the pair's other port received. -/
inductive LineFrame
  | mine (ticket : Nat)
  | forwarded (port ts : Nat) (f : Frame)
  deriving DecidableEq, Repr

/-- A place in a port's order of release (R90): the tick of release, its rank among those of the tick, and the frame. -/
structure LineItem where
  at_ : Nat
  rank : Nat
  item : LineFrame
  deriving DecidableEq, Repr

/-- A line port (R43, R50, R90, R91, R524). `mode` 0 is off. -/
structure Port where
  mode : Nat := 0
  link : Bool := false
  linkIn : Bool := true
  loopback : Nat := 0
  txeq : Nat := 0
  rxadapt : Nat := 0
  freeAt : Nat := 0
  line : List LineItem := []
  fcsErr : Nat := 0
  runts : Nat := 0
  oversize : Nat := 0
  coding : Nat := 0
  admitted : Nat := 0
  starved : Nat := 0
  wrongLan : Nat := 0
  mapUnprot : Nat := 0
  mapUnknown : Nat := 0
  mapMalformed : Nat := 0
  deriving DecidableEq, Repr

/-- Redundancy mode of a pair (R91). -/
inductive PairMode | independent | prp | hsr
  deriving DecidableEq, Repr

/-- A frame the HSR node forwarded: source MAC, sequence number, direction, tick (R94). -/
structure FwdMark where
  src : BitVec 48
  seq : Nat
  up : Bool
  at_ : Nat
  deriving DecidableEq, Repr

/-- A redundant pair (R91 to R94, R192). -/
structure Pair where
  mode : PairMode := .independent
  nodeMac : BitVec 48 := 0
  seq : Nat := 0
  marks : List FwdMark := []
  queueUp : List (Nat × Nat) := []
  queueDown : List (Nat × Nat) := []
  fwdOvf : Nat := 0
  tcEn : Bool := false
  tcMask : Nat := 3
  deriving DecidableEq, Repr

/-- The frame path. `backAt` is the tick of the last returns; what returned in it, tickets of ingress and of egress and
cells of the two memories, still counts as held (R63, R84). -/
structure Fp where
  ports : SMap Port := []
  pairs : SMap Pair := []
  rxq : SMap RxQ := []
  txq : SMap TxQ := []
  ing : List Ing := []
  egr : List Egr := []
  nextTicket : Nat := 0
  wdDelivery : Nat := 0
  wdTransmit : Nat := 0
  lentDelivery : Nat := 0
  lentTransmit : Nat := 0
  rrQueue : Nat := 0
  backAt : Nat := 0
  backIng : Nat := 0
  backEgr : Nat := 0
  backDelivery : Nat := 0
  backTransmit : Nat := 0
  deriving DecidableEq, Repr

/-! ## Stream engine (chapter 03) -/

/-- Bank states (R110). -/
inductive BankSt | idle | active | pending | pendingDel
  deriving DecidableEq, Repr

/-- A stream entry (R108), without its ETAG, which is a function of the other bytes (R117). -/
structure Entry where
  daddr : Bytes := []
  idHash : BitVec 64 := 0
  appid : Nat := 0
  vid : Nat := 0
  fclass : Nat := 0
  publish : Bool := false
  sta : BankSt := .idle
  stb : BankSt := .idle
  txa : Nat := 0
  txb : Nat := 0
  used : Bool := false
  quar : Bool := false
  primed : Bool := false
  req : Bool := false
  rank : Nat := 0
  wrapLine : Nat := 0
  win : BitVec 256 := 0
  resend : Nat := 0
  seq : Nat := 0
  good : Nat := 0
  bad : Nat := 0
  tflag : Nat := 0
  chain : Nat := 0
  bankA : Bank := {}
  bankB : Bank := {}
  version : Nat := 0
  deriving DecidableEq, Repr

/-- A line of the stream cache: index, entry, and whether it is newer than the cistern (R113). -/
structure CLineC where
  way : Nat
  idx : Nat
  entry : Entry
  dirty : Bool
  deriving DecidableEq, Repr

/-- Transaction states (R134). -/
inductive TxnSt | free | open_ | armed | committed | aborting
  deriving DecidableEq, Repr

/-- One staged change (R136): a control change, a deletion, an addition, a move, an addition that waits for
its moves, or the epoch advance. -/
inductive Change
  | control (idx : Nat)
  | delete (idx : Nat) (free : Bool)
  | add (idx : Nat)
  | move (src dst : Nat)
  | addMoved (idx : Nat) (e : Entry)
  | epoch
  deriving DecidableEq, Repr

/-- A transaction slot. `settling` is set once settling has begun, `failed` when R141 aborted it. -/
structure Txn where
  st : TxnSt := .free
  instant : Nat := 0
  wallAt : Nat := 0
  staged : List Change := []
  settled : Nat := 0
  settling : Bool := false
  failed : Bool := false
  deriving DecidableEq, Repr

/-- A key slot descriptor (R129), with the pump key store's per-slot books (R162, R166). -/
structure KSlot where
  keyId : Nat := 0
  epoch : Nat := 0
  notAfter : Nat := 0
  state : Nat := 0
  ref : Nat := 0
  ktype : Nat := 0
  corrected : Nat := 0
  spare : Option Nat := none
  drainBad : Bool := false
  drainAt : Option Nat := none
  deriving DecidableEq, Repr

/-- A load message on the KEY channel (R163): slot, descriptor and masked row (K xor M, M). -/
structure KeyMsg where
  slot : Nat
  ktype : Nat
  keyId : Nat
  epoch : Nat
  notAfter : Nat
  share0 : BitVec 256
  share1 : BitVec 256
  deriving DecidableEq, Repr

/-- The stream engine. -/
structure Se where
  idKey : BitVec 128 := 0
  posKey : BitVec 128 := 0
  entryKey : BitVec 128 := 0
  dataKey : BitVec 128 := 0
  tweakKey : BitVec 128 := 0
  tagKey : BitVec 128 := 0
  hashKey : BitVec 128 := 0
  table : SMap Entry := []
  cache : SMap (List CLineC) := []
  wdWays : List Nat := []
  corrWays : SMap Nat := []
  reads : List Nat := []
  cwait : SMap Nat := []
  misses : Nat := 0
  mapped : List Nat := []
  regionFails : SMap Nat := []
  kslots : SMap KSlot := []
  epoch : Nat := 0
  epochPrev : Nat := 0
  epochAt : Nat := 0
  epochOk : Bool := true
  txns : SMap Txn := []
  blockReqs : List Nat := []
  grants : List (Nat × Nat) := []
  deriving DecidableEq, Repr

/-! ## Pumps (chapter 04) -/

/-- One pump (R144, R171, R175 to R177). `katAt` is the tick from which its next known-answer round is due, `katNow` that a
lane mismatch asks for one at once. -/
structure Pump where
  failed : Bool := false
  standby : Bool := false
  katFails : Nat := 0
  katPasses : Nat := 0
  work : Nat := 0
  jobs : Nat := 0
  gen : BitVec 256 := 0
  reseedAt : Nat := 0
  overdue : Bool := false
  katAt : Nat := 0
  katNow : Bool := false
  deriving DecidableEq, Repr

/-- A row of the pump key store: the two shares of its key (R162). -/
structure Row where
  share0 : BitVec 256 := 0
  share1 : BitVec 256 := 0
  deriving DecidableEq, Repr

/-- The pumps together. `rows` are the rows of the key store by number: 0 to 32,767 the slots', 32,768 to 32,831 the spare
ones (R162); `testRows` the test rows that no longer hold what the ROM gave them; `badRows` the rows that hold an
uncorrectable error (R166). -/
structure Pu where
  pumps : SMap Pump := []
  rot : Nat := 0
  rotAt : Nat := 0
  mism : List (List (List Nat)) := [[], [], []]
  rows : SMap Row := []
  testRows : SMap (BitVec 256) := []
  badRows : List Nat := []
  sparesUsed : Nat := 0
  sweep : Nat := 0
  sweepAt : Nat := 0
  keyChan : List KeyMsg := []
  queued : List KeyMsg := []
  drained : List Nat := []
  deriving DecidableEq, Repr

/-! ## Time unit and consistency unit (chapter 05) -/

/-- The time unit, the servo, PPS and the transparent clock. `time` is in units of 2^-48 ns; `refPresent` says whether the
10 MHz reference is there (R181); `replicas` is by how much the replicas of ports 0 to 3 and of the pump domain (4) differ
from the time, in 2^-16 ns (R182). -/
structure Tu where
  time : Nat := 0
  state : Nat := 0
  refSel : Bool := false
  refOk : Bool := false
  ppsOutEn : Bool := false
  abs : Bool := false
  freq : Int := 0
  uset : Nat := 0
  tset : Int := 0
  tsetAt : Nat := 0
  hwStateAt : Option Nat := none
  stepLo : Word := 0
  stepHi : Word := 0
  drift : Nat := 100
  holdto : Nat := 30
  umax : Nat := 100000
  utcoff : Int := 0
  utcvalid : Bool := false
  utcNext : Option (Int × Nat) := none
  snap : Nat := 0
  steps : List (Nat × Nat) := []
  unchecked : Nat := 0
  src : Nat := 0
  ref10 : Bool := false
  stepThr : Nat := 100000
  kp : Nat := 45875
  ki : Nat := 19661
  lockThr : Nat := 1000
  lockN : Nat := 8
  integ : Int := 0
  haveLast : Bool := false
  last : Int := 0
  offs : List Int := []
  lockCount : Nat := 0
  ppsInFalling : Bool := false
  ppsWindow : Nat := 900
  ppsLast : Option Nat := none
  ppsLastAt : Nat := 0
  ppsIgnored : Nat := 0
  ppsMissing : Bool := false
  ppsOut : Bool := false
  ppsOutAt : Nat := 0
  ppsWidth : Nat := 100000000
  ppsOffset : Int := 0
  ppsLastEdge : Int := -1
  ldelay : SMap Nat := []
  refPresent : Bool := true
  replicas : SMap Int := []
  reanchorAt : Nat := 0
  hist : List (Nat × TimeSnap) := []
  deriving DecidableEq, Repr

/-- One operand of a check group (R200, R202): stream index, channel, gain, sample and quality offsets; `live` until its
stream is deleted (R201). -/
structure Operand where
  idx : Nat
  chan : Nat
  gain : Int
  sOff : Nat
  qOff : Nat
  live : Bool := true
  deriving DecidableEq, Repr

/-- One instant slot (R203): samples and contributing tickets by operand. -/
structure CSlot where
  n : Nat
  xs : SMap Int := []
  have_ : Nat := 0
  bad : Nat := 0
  evaluated : Bool := false
  queued : Bool := false
  from_ : List (Nat × Nat) := []
  lastTs : Nat := 0
  deriving DecidableEq, Repr

/-- A check group (R200). -/
structure Group where
  ops : List Operand := []
  thr : Nat := 0
  prop : Nat := 0
  w : Nat := 0
  rate : Nat := 0
  d : Nat := 8
  accept : Nat := 0
  top : Nat := 0
  primed : Bool := false
  slots : List CSlot := []
  pend : List Nat := []
  nCons : Nat := 0
  nIncons : Nat := 0
  nInc : Nat := 0
  nStale : Nat := 0
  incArmed : Bool := false
  lastRec : Option (Nat × Int × Int × Nat) := none
  deriving DecidableEq, Repr

/-- A request for an evaluation (R205): the tick and the port of the frame that completed the instant, group, instant. -/
structure EvalReq where
  at_ : Nat
  port : Nat
  group : Nat
  n : Nat
  deriving DecidableEq, Repr

structure Co where
  groups : SMap Group := []
  queue : List EvalReq := []
  hwm : Nat := 0
  evalTimes : List Nat := []
  deriving DecidableEq, Repr

/-! ## Command packets (chapter 06) -/

/-- A protocol session (R222, R223). -/
structure Sess where
  negotiated : Bool := false
  maj : Nat := 0
  min : Nat := 0
  feat : Nat := 0
  deriving DecidableEq, Repr

/-- A command ring pair (R227, R228, R522). The four base words are as last written; `on` and `size` as committed. -/
structure Ring where
  reqLo : Word := 0
  reqHi : Word := 0
  rspLo : Word := 0
  rspHi : Word := 0
  sizeReg : Nat := 0
  size : Nat := 0
  reqBase : Nat := 0
  rspBase : Nat := 0
  reqTail : Nat := 0
  reqHead : Nat := 0
  rspHead : Nat := 0
  rspTail : Nat := 0
  phase : Bool := true
  intMask : Bool := false
  sess : Sess := {}
  fetched : List RingReq := []
  deriving DecidableEq, Repr

/-- A reply as the device forms it (R214, R217). -/
structure Reply where
  via : Via
  major : Nat
  minor : Nat
  opcode : Nat
  tag : Nat
  status : Nat
  tlvs : List Tlv
  desc : Nat
  rsp : Nat := 0
  deriving DecidableEq, Repr

/-- What an unreplied command waits for (R231, R232). `vkeyGone` bears the counts of requests either engine completes
before the erasure (R249); `cipher` and `modular` the count at which a command's own request has its place (R250, R265);
`unlock` and `debug` the tick from which the last step of a token may run, LCCTR being written (R337, R339). -/
inductive Wait
  | keyLoaded (slot : Nat)
  | slotEmpty (slots : List Nat)
  | vkeyGone (slot vcTo meTo : Nat)
  | cipher (place : Nat)
  | modular (place : Nat)
  | chunk (sess off : Nat) (data : Bytes)
  | badge
  | armedSwap (sess : Nat) (at_ : Nat)
  | swap (core : CoreId) (sess : Option Nat)
  | unlock (target at_ : Nat)
  | debug (scope duration at_ : Nat)
  | marchIdle
  | march (m : MemId) (block : Nat) (count : Nat) (first : List Nat)
  | held
  deriving DecidableEq, Repr

/-- A command taken and not replied. -/
structure Owed where
  call : Call
  opcode : Nat
  wait : Wait
  deriving DecidableEq, Repr

/-- What an applet's system call waits for (R453): a reply or an event, and the tick of its timeout; `done` holds
the results of an answered wait until the applet runs again. -/
inductive AppWait
  | none
  | reply (tag : Nat) (until_ : Option Nat)
  | event (src : Nat) (until_ : Option Nat)
  | done (status bytes : Nat)
  deriving DecidableEq, Repr

/-- An applet (R361, R366, R453). -/
structure Applet where
  id : Nat := 0
  tid : Nat := 0
  installed : Bool := false
  running : Bool := false
  quota : Nat := 0
  version : Nat := 0
  sess : Sess := {}
  bufs : List (Nat × Nat) := []
  replies : List Reply := []
  wait : AppWait := .none
  deriving DecidableEq, Repr

/-- The command interpreter's state. `stuck` holds the packets of SPI, applets and the contactless session that wait at
their transports for room in the hold list (R235); `turn` is the transport of the next turn (R230). -/
structure Cmd where
  rings : SMap Ring := []
  spiSess : Sess := {}
  spiReplies : List Reply := []
  spiOverrun : Nat := 0
  clSess : Bool := false
  owed : List Owed := []
  applets : SMap Applet := []
  stuck : List (Via × Bytes) := []
  turn : Nat := 0
  deriving DecidableEq, Repr

/-! ## Vault (chapter 07) -/

/-- A vault key slot record (R245). -/
structure VSlot where
  ktype : Nat := 255
  usage : Nat := 0
  nmode : Nat := 0
  slimit : Nat := 32
  salt : Nat := 0
  next : Nat := 0
  baseset : Bool := false
  wrapped : Bytes := []
  deriving DecidableEq, Repr

/-- A line of the cipher engine's key cache: a slot's key in two shares (R248, R262). -/
structure VcLine where
  slot : Nat
  share0 : Bytes
  share1 : Bytes
  deriving DecidableEq, Repr

/-- The cipher engine and the modular engine (R250, R256, R265). `vcDone` and `meDone` count completed requests; `vcMine`
and `meMine` are the counts at which a place of the queue is a command's own request (log 85). `sessOwner` is the caller a
session is assigned to (R257; log 125). `hold` is the hold buffer as far as it is not zero (R260). -/
structure Eng where
  vcQBase : Nat := 0
  vcCBase : Nat := 0
  vcTail : Nat := 0
  vcHead : Nat := 0
  vcCache : List VcLine := []
  vcSess : SMap (Option (Nat × Nat)) := []
  vcDone : Nat := 0
  vcMine : List Nat := []
  sessOwner : SMap Via := []
  vcGen : BitVec 256 := 0
  vcReseedAt : Nat := 0
  hold : Bytes := []
  meQBase : Nat := 0
  meTail : Nat := 0
  meHead : Nat := 0
  meDone : Nat := 0
  meMine : List Nat := []
  meWork : Bytes := []
  meGen : BitVec 256 := 0
  deriving DecidableEq, Repr

/-- Noise-well bank states (R277). -/
inductive BankState | testing | inService | failed
  deriving DecidableEq, Repr

structure NBank where
  st : BankState := .testing
  fails : Nat := 0
  recent : List Nat := []
  deriving DecidableEq, Repr

/-- The CTR_DRBG working state (R279). -/
structure Drbg where
  key : BitVec 256
  v : BitVec 128
  served : Nat
  reseedAt : Nat
  deriving DecidableEq, Repr

/-- Estimates of one oscillator (R278), Q1.15. -/
structure Est where
  bias : Int := 0
  lags : List Int := [0, 0, 0, 0]
  deriving DecidableEq, Repr

structure Nw where
  bank0 : NBank := {}
  bank1 : NBank := {}
  ests : SMap Est := []
  pool : List (BitVec 256) := []
  drbg : Option Drbg := none
  lost : Bool := false
  deriving DecidableEq, Repr

/-! ## Contactless (chapter 08) -/

/-- ISO/IEC 14443-3 states (R291). -/
inductive Iso | idle | ready | active | halted
  deriving DecidableEq, Repr

inductive TagApp | none | tag | command
  deriving DecidableEq, Repr

/-- Memory security states (R303). -/
inductive MemSec | closed | open_ | secured
  deriving DecidableEq, Repr

/-- Where a running BADGE_READ stands (R315). -/
inductive BadgeStep | waiting | sensing | polling | selecting | reading | challenged
  deriving DecidableEq, Repr

structure BadgeRun where
  call : Call
  step : BadgeStep
  startedAt : Nat
  timeout : Nat
  pollAt : Nat
  saved : Nat
  cert : Bytes
  challenge : Bytes
  deriving DecidableEq, Repr

/-- The port. `frameTo` and `lockTo` are the ticks up to which the last reader frame lasts and the field holds the lock of
the tag memory (R290, R313; log 52); `fuel` is the number of word writes that complete before a collapse of the field
during the running tag command (R288). -/
structure Cl where
  role : Nat := 1
  field : Bool := false
  iso : Iso := .idle
  fromHalted : Bool := false
  rats : Bool := false
  dsi : Nat := 0
  dri : Nat := 0
  app : TagApp := .none
  sec : MemSec := .closed
  rndB : Option (BitVec 128) := none
  skEnc : BitVec 128 := 0
  skMac : BitVec 128 := 0
  cc : Nat := 0
  uid : BitVec 32 := 0
  tuning : Option Int := none
  mirror : Bool := false
  execAt : Option Nat := none
  frameTo : Nat := 0
  lockTo : Nat := 0
  fuel : Option Nat := none
  badge : Option BadgeRun := none
  lastBadge : Option (Bytes × Nat) := none
  deriving DecidableEq, Repr

/-! ## Non-volatile state: MRAM, flash, OTP, BBRAM (chapters 07 to 11) -/

/-- Lifecycle states with the codes of R300. -/
inductive Life | factory | owned | operational | sealed | retired
  deriving DecidableEq, Repr

/-- The policy body (R356). -/
structure Policy where
  version : Nat := 0
  dual : Bool := true
  autorevC : Bool := true
  autorevV : Bool := true
  kemreq : Bool := true
  unlock : Nat := 0
  expertPcie : Nat := 0
  expertSpi : Nat := 0
  expertApp : Nat := 0
  trial : Nat := 300
  tamper : List Nat := List.replicate 24 1 ++ List.replicate 8 8
  deriving DecidableEq, Repr

/-- An authority object (R353), cut into its fields. -/
structure AuthObj where
  kind : Nat
  fmt : Nat
  signer : Nat
  rsv : Bool
  bodyLen : Nat
  domain : Bytes
  spubEc : Bytes
  spubPq : Bytes
  body : Bytes
  sigEc : Bytes
  sigPq : Bytes
  deriving DecidableEq, Repr

/-- A word kept in two copies (R307, R403); none is a copy that is not valid. -/
structure Mono where
  prim : Option Nat := some 0
  back : Option Nat := some 0
  deriving DecidableEq, Repr

/-- A transmit counter line (R123). `entry` is the model's mark of the entry bound to it; `drawn` is the number of key
store loads before the line's last draw (R124, R128). -/
structure CtrLine where
  khash : BitVec 64 := 0
  resend : Nat := 0
  salt : Nat := 0
  pair : Nat := 0
  state : Nat := 0
  entry : Option Nat := none
  drawn : Nat := 0
  deriving DecidableEq, Repr

/-- A stored association (R156, R534): peer serial. -/
structure Assoc where
  peer : Nat := 0
  held : Bool := false
  deriving DecidableEq, Repr

/-- An image record (R363). -/
structure ImgRec where
  active : Nat := 0
  trial : Bool := false
  prev : Bool := false
  floor : Nat := 0
  deriving DecidableEq, Repr

/-- The body of a firmware or applet authority object (R362). -/
structure FwBody where
  target : Nat := 0
  isa : Nat := 2
  abi : Nat := 0
  version : Nat := 0
  svn : Nat := 0
  size : Nat := 0
  hash : Bytes := []
  entry : Nat := 0
  applet : Nat := 0
  quota : Nat := 0
  deriving DecidableEq, Repr

/-- What an image area holds (R361): nothing, the image the part was shipped with, or a loaded object. -/
inductive Area
  | empty
  | factory
  | loaded (o : AuthObj) (b : FwBody)
  deriving DecidableEq, Repr

/-- A sector's MRAM record and erase flag (R384, R391, R394). -/
structure Sector where
  flag : Bool := false
  bad : Bool := false
  erases : Nat := 0
  refreshQ : Bool := false
  retries : Nat := 0
  deriving DecidableEq, Repr

/-- The refresh record (R397). -/
inductive Refresh | none | copied (sec res : Nat) | done (sec res : Nat)
  deriving DecidableEq, Repr

/-- A sump log entry (R517); `seq` 0 is free. -/
structure LogRec where
  seq : Nat := 0
  rtc : Nat := 0
  ptp : Nat := 0
  source : Nat := 0
  die : Nat := 0
  flags : Nat := 0
  detail : List Nat := []
  deriving DecidableEq, Repr

/-- BBRAM (R408). The key-encryption key is none once erased, or when bytes written by a core do not carry its check
value; `odd` then holds such bytes 0 to 47. -/
structure Bbram where
  kek : Option (BitVec 256) := some Config.factoryKek
  sticky : BitVec 32 := 0
  pending : Nat := 255
  times : SMap Nat := []
  lost : Bool := false
  odd : Bytes := []
  deriving DecidableEq, Repr

/-- Records of keeper slots (R245): KTYPE, USAGE and WRAPPED. Which keeper slot holds which key is the model's choice: 0 the
static X25519 key, 1 the static ML-KEM-768 key, 2 and 3 the device signing keys of P-384 and ML-DSA-65, 4 the derivation
key (log 123). -/
def keeperSlots (wrapped : Nat → Bytes) : SMap VSlot :=
  [(0, { ktype := 6, usage := 128, wrapped := wrapped 0 }), (1, { ktype := 8, usage := 128, wrapped := wrapped 1 }),
   (2, { ktype := 4, usage := 32, wrapped := wrapped 2 }), (3, { ktype := 9, usage := 32, wrapped := wrapped 3 }),
   (4, { ktype := 2, usage := 4, wrapped := wrapped 4 })]

structure Nv where
  life : Life := .factory
  zeroised : Bool := false
  ownerHash : Option Bytes := none
  domain : Bytes := List.replicate 16 0
  monos : SMap Mono := []
  polA : Option AuthObj := none
  polB : Option AuthObj := none
  recC : ImgRec := {}
  recV : ImgRec := {}
  areas : SMap Area := [(0, .factory), (2, .factory)]
  slots : SMap VSlot := keeperSlots Config.factoryWrapped
  keeperGen : Nat := 0
  lines : SMap CtrLine := []
  loads : Nat := 0
  slotLoads : SMap Nat := []
  oldSalts : List (Nat × Nat × Nat) := []
  assocs : SMap Assoc := []
  tag : SMap (BitVec 8) := []
  kRnd : Option (BitVec 128) := none
  log : SMap LogRec := []
  lostRecs : Nat := 0
  userCal : SMap Int := []
  installed : List Nat := []
  revoked : SMap Nat := []
  units : SMap Bytes := []
  torn : List Nat := []
  flashTorn : List Nat := []
  sectors : SMap Sector := []
  refresh : Refresh := .none
  refreshStage : Nat := 0
  mram : SMap (BitVec 8) := []
  bbram : Bbram := {}
  deriving DecidableEq, Repr

/-! ## Tamper logic and its backup domain (chapter 09) -/

/-- The tamper logic. `lfsr` are the registers of the four wire loops and `shield` those of the shield's tracks, as they
stood at tick `lfsrAt` (R321). -/
structure Bk where
  cond : BitVec 32 := 0
  active : BitVec 32 := 0
  disarmed : BitVec 32 := 0
  offAt : SMap Nat := []
  counts : SMap Nat := []
  applied : Option Nat := none
  /-- Of it, the highest level applied since the reset in force began: a start-up without a pending level keeps no other
  (R327, R489). -/
  resetLevel : Option Nat := none
  table : List Nat := List.replicate 24 1 ++ List.replicate 8 8
  caseLvl : BitVec 4 := 0
  loopMiss : BitVec 4 := 0
  lfsr : List Word := [1, 2, 3, 4]
  shield : List Word := (List.range 32).map (fun i => BitVec.ofNat 32 (i + 5))
  lfsrAt : Nat := 0
  sampleAt : Nat := 0
  raiseLater : BitVec 32 := 0
  deriving DecidableEq, Repr

/-! ## Firmware, memories, flash (chapters 10 and 11) -/

/-- An open firmware session (R364): target (0 control, 1 vault, 2 applet), its area, the object, and erased and programmed bytes. -/
structure FwSess where
  id : Nat
  core : CoreId
  applet : Bool
  area : Nat
  obj : AuthObj
  body : FwBody
  done : List (Nat × Nat)
  toErase : List Nat
  deriving DecidableEq, Repr

structure Fw where
  chosenC : Option Nat := none
  chosenV : Option Nat := none
  trialAtC : Nat := 0
  trialAtV : Nat := 0
  verC : Nat := 0
  verV : Nat := 0
  sessions : List FwSess := []
  nextSess : Nat := 1
  stmt : Bytes := []
  trialWas : Option (CoreId × Nat × ImgRec) := none
  logMem : SMap (BitVec 8) := []
  deriving DecidableEq, Repr

/-- An erase in progress (R387, R388). -/
structure Erase where
  sector : Nat
  suspended : Bool
  resumedAt : Nat
  everResumed : Bool
  requestedAt : Option Nat
  haltedAt : Nat
  lastRead : Nat
  deriving DecidableEq, Repr

/-- Volatile memories, march and scrub state, flash controller (R373 to R398). Bytes not listed read 0 (R345). `mbxNow` are
the writes of one tick to the riser mailbox: whether by port M, address and length (R381). -/
structure Me where
  ctrlRam : SMap (BitVec 8) := []
  vaultRam : SMap (BitVec 8) := []
  mailbox : SMap (BitVec 8) := []
  workArea : SMap (BitVec 8) := []
  faulty : List (MemId × Nat) := []
  corrected : SMap Nat := []
  withdrawn : List (MemId × Nat) := []
  marchAtP : Nat := 0
  marchAtW : Nat := 0
  mbxCollisions : Nat := 0
  mbxNow : Nat × List (Bool × Nat × Nat) := (0, [])
  unified : Bool := true
  erase : Option Erase := none
  lastErase : Nat := 0
  lastSector : Nat := 0
  margin : Nat := 0
  refreshSel : Option (Nat × Nat) := none
  deriving DecidableEq, Repr

/-! ## Cores and valve tables (chapters 12 and 13) -/

/-- A fault of a tenant that the keeper has taken and not yet resolved or reported: what its report holds (R451). -/
structure TenantFault where
  tid : BitVec 4
  epc : Word
  ecause : Word
  einsn : Word
  excAddr : Word
  deriving DecidableEq, Repr

/-- One core's program-visible state (R409, R410, R440, R450). `restarting` is the instant by which a core restart ends
(R455; log 54), `restartAt` the instant of the last. -/
structure Cpu where
  regs : Vector Word 16 := Vector.replicate 16 0
  pc : Word := 0x200
  lc : Word := 0
  ls : Word := 0
  le : Word := 0
  px : Word := 0
  py : Word := 0
  stride : Word := 0x101
  acc : Vector (BitVec 80) 4 := Vector.replicate 4 0
  mask : BitVec 3 := 7
  priv : Bool := true
  sc : Bool := false
  esc : Bool := false
  psc : Bool := false
  pmask : BitVec 3 := 7
  ppriv : Bool := true
  tid : BitVec 4 := 0
  epc : Word := 0
  ecause : Word := 0x100
  einsn : Word := 0
  sentry : Vector Word 8 := Vector.replicate 8 0
  cycleHi : Word := 0
  cycleBase : Nat := 0
  excAddr : Word := 0
  escPc : Word := 0
  escCause : Word := 0
  vsel : Bool := false
  lock : Bool := false
  restarts : Nat := 0
  restartAt : Option Nat := none
  restarting : Option Nat := none
  bits : BitVec 4096 := 0
  stopped : Bool := false
  halted : Bool := false
  waiting : Bool := false
  fault : Option TenantFault := none
  deriving DecidableEq, Repr

/-- A valve-table entry (R458). -/
structure Valve where
  valid : Bool := false
  base : BitVec 24 := 0
  limit : BitVec 24 := 0
  mset : BitVec 16 := 0
  tid : BitVec 4 := 0
  kr : Bool := false
  kw : Bool := false
  kx : Bool := false
  tr : Bool := false
  tw : Bool := false
  tx : Bool := false
  sealed : Bool := false
  cache : BitVec 2 := 0
  order : BitVec 2 := 0
  lock : Bool := false
  stage1 : Option Word := none
  stage2 : Option Word := none
  deriving DecidableEq, Repr

/-! ## Riser, TAP, debug, calibration -/

inductive RiserSt | up | retraining | down
  deriving DecidableEq, Repr

/-- The channels of the riser link (R20). -/
inductive RChan | evt | key | mbx
  deriving DecidableEq, Repr

/-- The queue on the far die that a riser transfer names (R15): one for each kind of payload R20 lists (log 102). -/
inductive RQueue
  | events | sumpLog | timeOfDay | tamperNotices | keyStore | keyReleases | epochNotices | counterBlocks | mailbox
  deriving DecidableEq, Repr

/-- A flit group as its sender keeps it for replay (R16 to R19): its number, its payload flits with their channels, its
credit-return field, the key it goes under, and the mark of the last group under a key. -/
structure RGroup where
  seq : Nat
  flits : List (RChan × BitVec 128) := []
  credit : Nat := 0
  keyGen : Nat := 0
  last : Bool := false
  deriving DecidableEq, Repr

/-- One channel in one direction (R20): the flits that wait at the sender, the sender's credits that are spent, and the
flits the receiver has taken out whose credit is not yet returned. -/
structure RBook where
  wait : List (BitVec 128) := []
  spent : Nat := 0
  back : Nat := 0
  deriving DecidableEq, Repr

/-- One direction of the link (R16 to R21). `seq` is the number of the next new group, `next` of the next group to send,
which is lower during a replay; `noMbx` counts the last groups without MBX payload; `sent` keeps the last 16 groups
that are not idle; `failed` counts the replays of group `next` that failed. -/
structure RDir where
  seq : Nat := 0
  next : Nat := 0
  evt : RBook := {}
  key : RBook := {}
  mbx : RBook := {}
  noMbx : Nat := 0
  sent : List RGroup := []
  failed : Nat := 0
  deriving DecidableEq, Repr

/-- The riser link (R16 to R22): its two directions, the instant its next groups begin, its key with the one before,
and the books of its errors. `keySeq` is the number of the first group under the key. -/
structure Ri where
  st : RiserSt := .up
  since : Nat := 0
  at_ : Nat := 0
  toW : RDir := {}
  toP : RDir := {}
  discards : Nat := 0
  retrains : Nat := 0
  recent : List Nat := []
  recordAt : Option Nat := none
  keyGen : Nat := 0
  key : BitVec 128 := 0
  oldKey : BitVec 128 := 0
  keySeqW : Nat := 0
  keySeqP : Nat := 0
  deriving DecidableEq, Repr

/-! ## Dual-clock queues (R29, R30) -/

/-- The books of one dual-clock queue (R30): entries the sender counts as not free, entries held, entries read and not
yet seen as freed by the sender, and the tick of the last read. -/
structure CdcBook where
  spent : Nat := 0
  held : Nat := 0
  unseen : Nat := 0
  readAt : Nat := 0
  deriving DecidableEq, Repr

/-- TAP instructions (R499). -/
inductive TapIns | bypass | idcode | sample | extest | intest | clamp | highz | extestPulse | extestTrain | debug
  deriving DecidableEq, Repr

/-- The TAP, the boundary register and the debug scope (R339, R499, R502). -/
structure Tap where
  ins : TapIns := .bypass
  bsr : BitVec 64 := 0
  scope : BitVec 4 := 0
  until_ : Nat := 0
  errorBit : Bool := false
  data : Word := 0
  deriving DecidableEq, Repr

/-! ## What the device emits -/

/-- Outputs, in the order emitted: the model's own record of them (log 6). `dma` is what the device writes to host
memory byte for byte and where, beside the item that says it field by field: a verdict word, a completion, a reply, a ring entry. -/
inductive Out
  | reply (r : Reply)
  | ringEntry (ring : Nat) (index tag status desc len : Nat) (phase : Bool)
  | msix (vector : Nat)
  | record (addr q desc offs flen : Nat) (phase bufdone : Bool) (v : Verdict) (f : Frame)
  | rewrite (q : Nat) (v : Verdict)
  | txComp (q : Nat) (phase : Bool) (c : TxComp)
  | wire (port : Nat) (forwarded : Bool) (f : Frame)
  | spi (bytes : Bytes)
  | field (bytes : Bytes)
  | sw (code : Nat) (data : Bytes)
  | reader (bytes : Bytes)
  | tapData (v : Word) (err : Bool)
  | dma (addr : Nat) (bytes : Bytes)
  deriving DecidableEq, Repr

/-! ## The whole state -/

structure State where
  clk : Clk := {}
  plat : Plat := {}
  ev : Ev := {}
  fp : Fp := {}
  se : Se := {}
  pu : Pu := {}
  tu : Tu := {}
  co : Co := {}
  cmd : Cmd := {}
  eng : Eng := {}
  nw : Nw := {}
  cl : Cl := {}
  nv : Nv := {}
  bk : Bk := {}
  fw : Fw := {}
  me : Me := {}
  cpuC : Cpu := {}
  cpuV : Cpu := {}
  vtP : SMap Valve := []
  vtW : SMap Valve := []
  ri : Ri := {}
  cdc : SMap CdcBook := []
  tap : Tap := {}
  pol : Policy := {}
  factoryPageOk : Bool := true
  free : Nat := 0
  out : List Out := []
  pending : List Instr := []
  deriving DecidableEq, Repr

/-- The machine right after a cold reset of a part as it leaves the factory: every field at its default above,
which is the Reset column's value where the spec gives one (R13) and otherwise the value log 1 names. -/
def State.reset : State := {}

end Sys2Proof.Machine
end

