-- ==== Sys2Proof/Machine/Ops.lean ====
section
/-! DEFINITION. Operations every family shares: sparse tables, byte strings, the passing of time, monotonic
counters, events, the sump and its log, and outputs. -/
namespace Sys2Proof.Machine

/-- What a meaning answers. -/
abbrev Res := Host.Outcome State Fault Refusal

/-! ## Sparse tables -/

/-- The entry listed at k, if any. -/
def smFind {α : Type} : SMap α → Nat → Option α
  | [], _ => none
  | (j, v) :: r, k => if j = k then some v else smFind r k

/-- The value at k, `d` where none is listed. -/
def smGet {α : Type} (d : α) (m : SMap α) (k : Nat) : α := (smFind m k).getD d

/-- No entry at k. -/
def smDel {α : Type} : SMap α → Nat → SMap α
  | [], _ => []
  | (j, v) :: r, k => if j = k then smDel r k else (j, v) :: smDel r k

def smPut {α : Type} : SMap α → Nat → α → SMap α
  | [], k, v => [(k, v)]
  | (j, w) :: r, k, v =>
    if k < j then (k, v) :: (j, w) :: r
    else if k = j then (k, v) :: r
    else (j, w) :: smPut r k v

/-- Write v at k; writing what an unlisted key reads as removes the entry. -/
def smSet {α : Type} [DecidableEq α] (d : α) (m : SMap α) (k : Nat) (v : α) : SMap α :=
  if v = d then smDel m k else smPut m k v

/-- Change the value at k by f. -/
def smMod {α : Type} [DecidableEq α] (d : α) (m : SMap α) (k : Nat) (f : α → α) : SMap α :=
  smSet d m k (f (smGet d m k))

/-- Keys strictly rising. -/
def smSorted {α : Type} : SMap α → Bool
  | [] => true
  | [_] => true
  | (j, _) :: (k, w) :: r => j < k && smSorted ((k, w) :: r)

/-- The canonical form of a table: keys strictly rising, no entry equal to the default. -/
def smWf {α : Type} [DecidableEq α] (d : α) (m : SMap α) : Bool :=
  smSorted m && m.all (fun e => decide (e.2 ≠ d))

/-- The lowest key from k upward with no entry, of a table with rising keys. -/
def smGap {α : Type} : SMap α → Nat → Nat
  | [], k => k
  | (j, _) :: r, k => if j < k then smGap r k else if j = k then smGap r (k + 1) else k

/-- An element takes its place in a list that is in order; it goes behind its equals. -/
def insertBy {α : Type} (le : α → α → Bool) (a : α) : List α → List α
  | [] => [a]
  | b :: r => if le b a then b :: insertBy le a r else a :: b :: r

/-- A list put in order, equals left as they stand. -/
def sortBy {α : Type} (le : α → α → Bool) (l : List α) : List α := l.foldl (fun m a => insertBy le a m) []

/-! ## Bytes and words -/

/-- Little-endian value of a byte string (R11). -/
def leNat : Bytes → Nat
  | [] => 0
  | b :: r => b.toNat + 256 * leNat r

/-- The low n bytes of v, little-endian. -/
def natLE : Nat → Nat → Bytes
  | 0, _ => []
  | n + 1, v => BitVec.ofNat 8 v :: natLE n (v / 256)

def beNat (b : Bytes) : Nat := leNat b.reverse

/-- The low n bytes of v, big-endian. -/
def natBE (n v : Nat) : Bytes := (natLE n v).reverse

/-- Two's complement of an n-byte field, read as an integer (R218). -/
def toSigned (n v : Nat) : Int := if v < 2 ^ (8 * n - 1) then v else (v : Int) - 2 ^ (8 * n)

/-- An integer as the n-byte two's complement field. -/
def ofSigned (n : Nat) (i : Int) : Nat := (i % (2 ^ (8 * n) : Int)).toNat

/-- len bytes of b from off on. -/
def slice (b : Bytes) (off len : Nat) : Bytes := (b.drop off).take len

/-- b cut or filled with zero bytes to n bytes. -/
def fit (n : Nat) (b : Bytes) : Bytes := b.take n ++ List.replicate (n - b.length) 0

def xorBytes (a b : Bytes) : Bytes := List.zipWith (· ^^^ ·) a b

/-- The 16 bytes of a 128-bit value, first byte most significant. -/
def bytes128 (v : BitVec 128) : Bytes := natBE 16 v.toNat
def of128 (b : Bytes) : BitVec 128 := BitVec.ofNat 128 (beNat b)
def bytes256 (v : BitVec 256) : Bytes := natBE 32 v.toNat
def of256 (b : Bytes) : BitVec 256 := BitVec.ofNat 256 (beNat b)

/-- Bits [hi:lo] of a number. -/
def bitsN (v hi lo : Nat) : Nat := v / 2 ^ lo % 2 ^ (hi + 1 - lo)

def bitN (v i : Nat) : Bool := v.testBit i

def b2n (b : Bool) : Nat := if b then 1 else 0

/-- Round towards zero, as the pseudocode's division does (chapter 00, Timing, pseudocode and examples). -/
def clampI (x lo hi : Int) : Int := if x < lo then lo else if hi < x then hi else x

def satAdd (cap a b : Nat) : Nat := min cap (a + b)

/-! ## Access to the parts of the state -/

def onClk (f : Clk → Clk) (s : State) : State := { s with clk := f s.clk }
def onPlat (f : Plat → Plat) (s : State) : State := { s with plat := f s.plat }
def onEv (f : Ev → Ev) (s : State) : State := { s with ev := f s.ev }
def onFp (f : Fp → Fp) (s : State) : State := { s with fp := f s.fp }
def onSe (f : Se → Se) (s : State) : State := { s with se := f s.se }
def onPu (f : Pu → Pu) (s : State) : State := { s with pu := f s.pu }
def onTu (f : Tu → Tu) (s : State) : State := { s with tu := f s.tu }
def onCo (f : Co → Co) (s : State) : State := { s with co := f s.co }
def onCmd (f : Cmd → Cmd) (s : State) : State := { s with cmd := f s.cmd }
def onEng (f : Eng → Eng) (s : State) : State := { s with eng := f s.eng }
def onNw (f : Nw → Nw) (s : State) : State := { s with nw := f s.nw }
def onCl (f : Cl → Cl) (s : State) : State := { s with cl := f s.cl }
def onNv (f : Nv → Nv) (s : State) : State := { s with nv := f s.nv }
def onBk (f : Bk → Bk) (s : State) : State := { s with bk := f s.bk }
def onFw (f : Fw → Fw) (s : State) : State := { s with fw := f s.fw }
def onMe (f : Me → Me) (s : State) : State := { s with me := f s.me }
def onRi (f : Ri → Ri) (s : State) : State := { s with ri := f s.ri }
def onTap (f : Tap → Tap) (s : State) : State := { s with tap := f s.tap }

/-- One core's registers. -/
def cpu (k : CoreId) (s : State) : Cpu :=
  match k with
  | .control => s.cpuC
  | .vault => s.cpuV

def onCpu (k : CoreId) (f : Cpu → Cpu) (s : State) : State :=
  match k with
  | .control => { s with cpuC := f s.cpuC }
  | .vault => { s with cpuV := f s.cpuV }

/-- The valve table of a core's die (R458). -/
def valves (k : CoreId) (s : State) : SMap Valve :=
  match k with
  | .control => s.vtP
  | .vault => s.vtW

def onValves (k : CoreId) (f : SMap Valve → SMap Valve) (s : State) : State :=
  match k with
  | .control => { s with vtP := f s.vtP }
  | .vault => { s with vtW := f s.vtW }

def emit (o : Out) (s : State) : State := { s with out := s.out ++ [o] }

/-- A fresh free value of at most n bits (log 5), and the counter advanced. -/
def draw (n : Nat) (s : State) : Nat × State :=
  (Config.freeValue s.free % 2 ^ n, { s with free := s.free + 1 })

/-! ## Time -/

/-- Units of the time unit's time in 1 s: 2^48 per nanosecond (R179). -/
def tuPerNs : Nat := 2 ^ 48

/-- What one 250 MHz time clock adds, in 2^-48 ns (R180): 4 ns × (1 + FREQ × 2^-16 × 10^-9), rounded down
to the unit's resolution (log 3). -/
def tuIncr (freq : Int) : Nat :=
  (4 * tuPerNs + 4 * freq * (2 ^ 32) / 1000000000).toNat

/-- The time is held modulo 2^48 seconds (R179). -/
def tuWrap (t : Nat) : Nat := t % (2 ^ 48 * 1000000000 * tuPerNs)

/-- Both dies run: main power is good and the reset has been released (R347, R474). -/
def running (s : State) : Bool := s.plat.pwrOk && s.plat.stage ≠ .reset

/-- `dt` time clocks pass: the elapsed time, the RTC (R517, while its crystal runs) and the time unit (R180,
while Pumphouse runs). -/
def advance (dt : Nat) (s : State) : State :=
  let r := s.clk.rtcRem + dt * 131072
  let s := onClk (fun c =>
    if c.rtcRuns then { c with now := c.now + dt, rtc := c.rtc + r / 1000000000, rtcRem := r % 1000000000 }
    else { c with now := c.now + dt }) s
  if running s then
    onTu (fun t => { t with time := tuWrap (t.time + dt * tuIncr t.freq) }) s
  else s

/-- Same-clock order (R96, R122, R127, R142, R406; log 101). The row is one contender, of the given rank, for the
resource `id` of a kind. It comes in the present tick, unless a contender of a higher rank number, which the spec puts
behind it, has already been served there: then it comes in the next. -/
def inTurn (kind id rank : Nat) (s : State) : State :=
  let k := kind * 2 ^ 32 + id
  let s := if (smFind s.clk.turns k).any (fun e => decide (e.1 = s.clk.now) && decide (rank < e.2)) then advance 1 s else s
  onClk (fun c => { c with turns := smPut (c.turns.filter (fun e => e.2.1 = c.now)) k (c.now, rank) }) s

/-- The kinds of same-clock contention the spec orders: cistern requests (R26), MRAM masters (R406), the window of an
entry (R122), the counter of an entry (R127), tickets and cells (R96), releases to a line port (R90), entry read slots
(R142), verdicts of a queue (R57), the time unit (R195), the noise pool's readers and writers (R280),
event levels and masks (R514). -/
abbrev turnCistern : Nat := 0
abbrev turnMram : Nat := 1
abbrev turnWindow : Nat := 2
abbrev turnCounter : Nat := 3
abbrev turnTicket : Nat := 4
abbrev turnPort : Nat := 5
abbrev turnRead : Nat := 6
abbrev turnQueue : Nat := 7
abbrev turnTime : Nat := 8
abbrev turnPool : Nat := 9
abbrev turnEvCfg : Nat := 10

/-- Masters of the MRAM in the order R406 serves them. -/
abbrev mramTamper : Nat := 0
abbrev mramTag : Nat := 1
abbrev mramCipher : Nat := 2
abbrev mramCore : Nat := 3
abbrev mramDebug : Nat := 4

/-- An access to an MRAM macro in its turn (R406). A read served behind a write of the same word finds the new data. -/
def mramTurn (macroNo master : Nat) (s : State) : State := inTurn turnMram macroNo master s

/-- Ticks of 4 ns in a microsecond, a millisecond, a second. -/
def usTicks (n : Nat) : Nat := n * 250
def msTicks (n : Nat) : Nat := n * 250000
def secTicks (n : Nat) : Nat := n * 250000000

/-- Pump clocks (625 MHz) in a number of ticks, and ticks in a number of pump clocks, rounded up. -/
def pumpClocks (t : Nat) : Nat := t * 5 / 2
def pumpTicks (n : Nat) : Nat := (n * 2 + 4) / 5

/-- The PTP time in nanoseconds, in units of 2^-16 ns, and as the 12 bytes of R218. -/
def ptpNs (s : State) : Nat := s.tu.time / tuPerNs
def ptp16 (s : State) : Nat := s.tu.time / 2 ^ 32
def timeBytes (t16 : Nat) : Bytes :=
  natLE 6 (t16 / 65536 / 1000000000) ++ natLE 4 (t16 / 65536 % 1000000000) ++ natLE 2 (t16 % 65536)
def bytesTime (b : Bytes) : Nat :=
  (leNat (slice b 0 6) * 1000000000 + leNat (slice b 6 4)) * 65536 + leNat (slice b 10 2)

/-! ## Monotonic counters (R403) -/

/-- The larger valid copy; none when neither is valid. -/
def monoVal (m : Mono) : Option Nat :=
  match m.prim, m.back with
  | some a, some b => some (max a b)
  | some a, none => some a
  | none, some b => some b
  | none, none => none

def monoRead (i : Nat) (s : State) : Option Nat := monoVal (smGet {} s.nv.monos i)

/-- Both copies hold v after a complete increment (R308). -/
def monoWrite (i v : Nat) (s : State) : State :=
  onNv (fun n => { n with monos := smSet {} n.monos i { prim := some v, back := some v } }) s

/-! ## Events (R509 to R513) -/

/-- Sources of R511. -/
def evListed (n : Nat) : Bool :=
  n ≤ 23 || (32 ≤ n && n ≤ 46) || (64 ≤ n && n ≤ 78) || (96 ≤ n && n ≤ 101) || (128 ≤ n && n ≤ 152)
    || (192 ≤ n && n ≤ 255)

/-- Whether a source belongs to Wellhead (R511). -/
def evWell (n : Nat) : Bool := n ≤ 23 || (128 ≤ n && n ≤ 152) || 224 ≤ n

/-- Reset levels (R511). -/
def evLevel0 (n : Nat) : Nat :=
  if n ≤ 23 then 3
  else if n ∈ [46, 66, 68, 70, 71, 72, 75, 78, 96, 97, 98] then 3
  else if n ∈ [130, 131, 132, 134, 137, 138, 139, 140, 141, 142, 143, 146, 147, 150] then 3
  else if n ∈ [36, 37, 38, 39, 42, 43, 64, 65, 67, 69, 73, 74, 76, 99, 100] then 2
  else if n ∈ [136, 144, 145, 148, 149, 152] then 2
  else if n ∈ [40, 41, 44, 45, 77, 101, 133] then 1
  else if 192 ≤ n then 1
  else 0

/-- Sticky sources (R511, R515). -/
def evSticky (n : Nat) : Bool :=
  n ≤ 23 || n ∈ [42, 46, 66, 67, 68, 70, 72, 75, 78, 96, 97, 98] ||
  n ∈ [130, 131, 132, 134, 136, 137, 138, 139, 140, 141, 142, 143, 146, 147, 148, 149, 150]

def evLevel (e : Ev) (n : Nat) : Nat := smGet (evLevel0 n) e.lvl n

def bit256 (v : BitVec 256) (n : Nat) : Bool := v.getLsbD n
def set256 (v : BitVec 256) (n : Nat) : BitVec 256 := v ||| BitVec.twoPow 256 n
def clr256 (v : BitVec 256) (n : Nat) : BitVec 256 := v &&& ~~~ BitVec.twoPow 256 n

/-- The OR of R512 for one level: a pending, unmasked source of the level. -/
def evOr (e : Ev) (l : Nat) : Bool :=
  (List.range 256).any (fun n => bit256 e.pend n && !bit256 e.mask n && evLevel e n == l)

/-- The boundary register drives the covered pins (R503). -/
def pinsTaken (s : State) : Bool :=
  match s.tap.ins with
  | .extest => true
  | .intest => true
  | .clamp => true
  | .highz => true
  | .extestPulse => true
  | .extestTrain => true
  | _ => false

/-- The PCIe link carries nothing: the endpoint is in reset, or its reference is lost (R484, R487). -/
def pcieDown (s : State) : Bool := s.plat.pcieReset || !s.plat.pcieL0

/-- An MSI-X message on a vector, or its pending bit while the table masks it (R512). The endpoint in reset
sends nothing (R487). -/
def msix (v : Nat) (s : State) : State :=
  if s.plat.pcieReset then s
  else if s.ev.msixMask.getLsbD v then
    onEv (fun e => { e with msixPba := e.msixPba ||| BitVec.twoPow 64 v }) s
  else emit (.msix v) s

/-- Apply a change of the event registers and send the message of every level whose OR rises (R512). -/
def evChange (f : Ev → Ev) (s : State) : State :=
  let old := s.ev
  let s := onEv f s
  [0, 1, 2, 3].foldl (fun s l => if !evOr old l && evOr s.ev l then msix (60 + l) s else s) s

/-- The riser carries payload (R19, R22). -/
def riserUp (s : State) : Bool := s.ri.st == .up

/-! ## Dual-clock queues (R27 to R30) -/

/-- The clock domains of R27 and their clocks in kHz; a line port's slower clock is taken. -/
inductive Domain | line | pump | control | time | cistern | pcie | riser | wellhead
  deriving DecidableEq, Repr

def Domain.kHz (d : Domain) : Nat :=
  match d with
  | .line => 125000
  | .pump => 625000
  | .control => 500000
  | .time => 250000
  | .cistern => 1066000
  | .pcie => 250000
  | .riser => 500000
  | .wellhead => 200000

/-- A dual-clock queue: from, to, bits of an entry, entries. -/
structure CdcQueue where
  src : Domain
  dst : Domain
  bits : Nat
  depth : Nat
  deriving DecidableEq, Repr

/-- The queues of R29, each by its number in this list; the line-port queues once per port, in port order. -/
def cdcQueues : List CdcQueue :=
  List.replicate 4 ⟨.line, .pump, 64, 128⟩ ++ List.replicate 4 ⟨.pump, .line, 64, 128⟩ ++
  [⟨.pump, .cistern, 256, 64⟩, ⟨.cistern, .pump, 256, 64⟩, ⟨.pump, .pcie, 128, 256⟩, ⟨.pcie, .pump, 128, 256⟩] ++
  [⟨.pcie, .control, 128, 32⟩, ⟨.control, .pcie, 128, 32⟩, ⟨.control, .pump, 128, 64⟩, ⟨.pump, .control, 128, 64⟩] ++
  [⟨.riser, .pump, 128, 32⟩, ⟨.riser, .control, 128, 64⟩, ⟨.control, .riser, 128, 64⟩] ++
  [⟨.riser, .wellhead, 128, 64⟩, ⟨.wellhead, .riser, 128, 64⟩] ++
  List.replicate 4 ⟨.time, .line, 96, 8⟩ ++ [⟨.time, .pump, 96, 8⟩]

abbrev cdcFromLine : Nat := 0
abbrev cdcToLine : Nat := 4
abbrev cdcToCistern : Nat := 8
abbrev cdcFromCistern : Nat := 9
abbrev cdcToPcie : Nat := 10
abbrev cdcFromPcie : Nat := 11
abbrev cdcRequests : Nat := 12
abbrev cdcReplies : Nat := 13
abbrev cdcStaging : Nat := 14
abbrev cdcEvents : Nat := 15
abbrev cdcRiserKey : Nat := 16
abbrev cdcRiserControl : Nat := 17
abbrev cdcControlRiser : Nat := 18
abbrev cdcRiserWell : Nat := 19
abbrev cdcWellRiser : Nat := 20
abbrev cdcTime : Nat := 21

def cdcQueue (q : Nat) : CdcQueue := cdcQueues.getD q ⟨.pump, .pump, 0, 0⟩

/-- Entries the sender counts as free (R30). -/
def cdcFree (q : Nat) (s : State) : Nat := (cdcQueue q).depth - (smGet {} s.cdc q).spent

def onCdc (q : Nat) (f : CdcBook → CdcBook) (s : State) : State := { s with cdc := smMod {} s.cdc q f }

/-- The sender sees what was read at least four of its clocks ago as freed (R30). -/
def cdcSee (q : Nat) (s : State) : State :=
  if (smGet {} s.cdc q).readAt + (4 * 250000 + (cdcQueue q).src.kHz - 1) / (cdcQueue q).src.kHz ≤ s.clk.now then
    onCdc q (fun b => { b with spent := b.spent - b.unseen, unseen := 0 }) s
  else s

/-- The sender writes n entries, as far as it counts entries free. -/
def cdcWrite (q n : Nat) (s : State) : State :=
  let k := min n (cdcFree q s)
  onCdc q (fun b => { b with spent := b.spent + k, held := b.held + k }) s

/-- The reader takes every entry held. -/
def cdcRead (q : Nat) (s : State) : State :=
  onCdc q (fun b => { spent := b.spent, held := 0, unseen := b.unseen + b.held, readAt := s.clk.now }) s

/-- What a row moves through a queue: the sender writes, the reader reads, and the entries read stay uncounted as free
until the sender sees them. What exceeds the free entries flows through as they become free (log 104). -/
def cdcPass (q n : Nat) (s : State) : State := if n = 0 then s else cdcRead q (cdcWrite q n (cdcSee q s))

/-! ## The riser link (R15 to R22; logs 102, 103) -/

def chanCredits (c : RChan) : Nat :=
  match c with
  | .evt => 64
  | .key => 256
  | .mbx => 512

def chanNo (c : RChan) : Nat :=
  match c with
  | .evt => 0
  | .key => 1
  | .mbx => 2

def queueNo (q : RQueue) : Nat :=
  match q with
  | .events => 0
  | .sumpLog => 1
  | .timeOfDay => 2
  | .tamperNotices => 3
  | .keyStore => 4
  | .keyReleases => 5
  | .epochNotices => 6
  | .counterBlocks => 7
  | .mailbox => 8

def chan (c : RChan) (d : RDir) : RBook :=
  match c with
  | .evt => d.evt
  | .key => d.key
  | .mbx => d.mbx

def onChan (c : RChan) (f : RBook → RBook) (d : RDir) : RDir :=
  match c with
  | .evt => { d with evt := f d.evt }
  | .key => { d with key := f d.key }
  | .mbx => { d with mbx := f d.mbx }

/-- The direction towards Wellhead when the flag is set, else towards Pumphouse. -/
def riserDir (toW : Bool) (r : Ri) : RDir := if toW then r.toW else r.toP
def onDir (toW : Bool) (f : RDir → RDir) (r : Ri) : Ri :=
  if toW then { r with toW := f r.toW } else { r with toP := f r.toP }

/-- The order in which channels fill a group's slots (R21). -/
def chanOrder (d : RDir) : List RChan := if 7 ≤ d.noMbx then [.mbx, .evt, .key] else [.evt, .key, .mbx]

/-- A channel puts flits it has both payload and credit for into the free slots of a group (R20, R21). -/
def fillSlots (c : RChan) (x : List (RChan × BitVec 128) × RDir) : List (RChan × BitVec 128) × RDir :=
  let b := chan c x.2
  let n := min (7 - x.1.length) (min b.wait.length (chanCredits c - b.spent))
  (x.1 ++ (b.wait.take n).map (fun f => (c, f)),
    onChan c (fun b => { b with wait := b.wait.drop n, spent := b.spent + n }) x.2)

/-- The credits a group returns for a channel of the other direction: five bits of the credit-return field. -/
def backNow (c : RChan) (d : RDir) : Nat := min 31 (chan c d).back

/-- The credit-return field for what the opposite direction's receiver has taken out. -/
def creditField (d : RDir) : Nat := backNow .evt d + 32 * backNow .key d + 1024 * backNow .mbx d

/-- The last 16 groups of a sender, those that are not idle (R19). -/
def keepLast (d : RDir) : RDir :=
  { d with sent := d.sent.filter (fun g => (d.seq + 2 ^ 48 - g.seq) % 2 ^ 48 ≤ 16) }

/-- The next group of a direction: a kept one during a replay, else a new one, with the credits its end returns. -/
def formGroup (toW : Bool) (last : Bool) (r : Ri) : RGroup × Ri :=
  let d := riserDir toW r
  if d.next ≠ d.seq then ((d.sent.find? (fun g => g.seq == d.next)).getD { seq := d.next, keyGen := r.keyGen }, r)
  else
    let (fl, d) := (chanOrder d).foldl (fun x c => fillSlots c x) ([], d)
    let o := riserDir (!toW) r
    let g : RGroup := { seq := d.seq, flits := fl, credit := creditField o, keyGen := r.keyGen, last := last }
    let o := ([.evt, .key, .mbx] : List RChan).foldl (fun o c => onChan c (fun b => { b with back := b.back - min 31 b.back }) o) o
    let d := keepLast { d with
      seq := (d.seq + 1) % 2 ^ 48, noMbx := if fl.any (fun f => f.1 == .mbx) then 0 else min 7 (d.noMbx + 1)
      sent := if fl = [] && g.credit = 0 && !last then d.sent else d.sent ++ [g] }
    (g, onDir toW (fun _ => d) (onDir (!toW) (fun _ => o) r))

/-- The receiver takes a group that verifies: its flits go to their queues, and the credits it returns reach the sender
of the other direction (R20). -/
def takeGroup (toW : Bool) (g : RGroup) (r : Ri) : Ri :=
  let r := onDir toW (fun d =>
    let d := g.flits.foldl (fun d f => onChan f.1 (fun b => { b with back := b.back + 1 }) d) d
    { d with next := (g.seq + 1) % 2 ^ 48, failed := 0 }) r
  onDir (!toW) (fun d =>
    let d := onChan .evt (fun b => { b with spent := b.spent - g.credit % 32 }) d
    let d := onChan .key (fun b => { b with spent := b.spent - g.credit / 32 % 32 }) d
    onChan .mbx (fun b => { b with spent := b.spent - g.credit / 1024 % 32 }) d) r

/-- One group time of 16 ns: a group in each direction (R17). -/
def linkStep (last : Bool) (r : Ri) : Ri :=
  let (g, r) := formGroup true last r
  let (h, r) := formGroup false last r
  takeGroup false h (takeGroup true g r)

/-- Flits that wait, and credits not yet returned, in one direction. -/
def dirLoad (d : RDir) : Nat :=
  d.evt.wait.length + d.key.wait.length + d.mbx.wait.length + d.evt.back + d.key.back + d.mbx.back

/-- The link has nothing to move but idle groups. -/
def linkQuiet (r : Ri) : Bool :=
  dirLoad r.toW = 0 && dirLoad r.toP = 0 && r.toW.next = r.toW.seq && r.toP.next = r.toP.seq

/-- n idle groups in each direction (R17). -/
def linkIdle (n : Nat) (r : Ri) : Ri :=
  let go (d : RDir) : RDir :=
    keepLast { d with seq := (d.seq + n) % 2 ^ 48, next := (d.next + n) % 2 ^ 48, noMbx := min 7 (d.noMbx + n) }
  { r with toW := go r.toW, toP := go r.toP }

/-- n group times, at most `fuel` of them with payload or credits to move. -/
def linkRun : Nat → Nat → Ri → Ri
  | 0, n, r => linkIdle n r
  | f + 1, n, r => if n = 0 then r else if linkQuiet r then linkIdle n r else linkRun f (n - 1) (linkStep false r)

/-- The groups that have passed since the link's books were last brought up to date: one every four ticks (R17). -/
def linkDue (now : Nat) (r : Ri) : Nat := if r.st == .up then (now - r.at_) / 4 else 0

/-- Bring the books of the link up to n of the groups that are due. -/
def linkSync (n : Nat) (r : Ri) : Ri :=
  { linkRun (2 * (dirLoad r.toW + dirLoad r.toP) + 64) n r with at_ := r.at_ + 4 * n }

/-- The flits of a transfer: one that names its channel, its target queue and its length, then the bytes (R15; log 102). -/
def transferFlits (c : RChan) (q : RQueue) (b : Bytes) : List (BitVec 128) :=
  BitVec.ofNat 128 (chanNo c + 4 * queueNo q + 65536 * b.length) ::
    (List.range ((b.length + 15) / 16)).map (fun i => of128 (fit 16 (slice b (16 * i) 16)))

/-- The queues of R29 that a transfer's flits pass. -/
def riserQueues (toW : Bool) (c : RChan) : List Nat :=
  if toW then (if c = .key then [cdcRiserWell] else [cdcControlRiser, cdcRiserWell])
  else [cdcWellRiser, if c = .key then cdcRiserKey else cdcRiserControl]

/-- A transfer over the riser (R15): its flits join their channel while the link carries payload. What the transfer does
on the far die comes about in the same step (log 102); while the link is not up its sender keeps it (R22). -/
def sendRiser (toW : Bool) (c : RChan) (q : RQueue) (b : Bytes) (s : State) : State :=
  if !riserUp s then s
  else
    let fl := transferFlits c q b
    let s := onRi (fun r => onDir toW (onChan c (fun k => { k with wait := k.wait ++ fl }))
      (linkSync (linkDue s.clk.now r) r)) s
    (riserQueues toW c).foldl (fun s n => cdcPass n fl.length s) s

/-- A source sets the pending bits of the views it reaches (R510). -/
def evPumpViews (n : Nat) (s : State) : State :=
  evChange (fun e => { e with pend := set256 e.pend n, intcPendC := set256 e.intcPendC n }) s

def evVaultView (n : Nat) (s : State) : State :=
  onEv (fun e => { e with intcPendV := set256 e.intcPendV n }) s

/-- An applet that waits for the event source (R453) is answered OK. -/
def appletEvent (n : Nat) (s : State) : State :=
  onCmd (fun c => { c with applets := c.applets.map (fun (i, a) =>
    (i, match a.wait with
        | .event src _ => if src = n then { a with wait := .done 0 0 } else a
        | _ => a)) }) s

/-- The events of a source without its sump record. -/
def evRaise (n : Nat) (s : State) : State :=
  let s := appletEvent n s
  if evWell n then
    let s := evVaultView n s
    if riserUp s then evPumpViews n (sendRiser false .evt .events (natLE 2 n) s)
    else onEv (fun e => { e with waitToP := e.waitToP ++ [n] }) s
  else
    let s := evPumpViews n (cdcPass cdcEvents 1 s)
    if riserUp s then evVaultView n (sendRiser true .evt .events (natLE 2 n) s)
    else onEv (fun e => { e with waitToV := e.waitToV ++ [(n, [])] }) s

/-- Set the sticky bit of a source on the die that owns it (R515). -/
def sumpSet (n : Nat) (s : State) : State :=
  onEv (fun e => if evWell n then { e with sumpW := set256 e.sumpW n } else { e with sumpP := set256 e.sumpP n }) s

/-- Write a sump log record with an RTC time (R517): sequence from monotonic counter 3, in the lowest free entry (log 7); when none is
free or the counter cannot serve, the record is lost and counted. -/
def logRecordAt (rtc source die flags : Nat) (detail : List Nat) (s : State) : State :=
  let i := smGap s.nv.log 0
  if 4096 ≤ i then
    let s := onNv (fun n => { n with lostRecs := satAdd 4294967295 n.lostRecs 1 }) s
    if s.ev.logFull then s else evRaise 152 (onEv (fun e => { e with logFull := true }) s)
  else
    match monoRead 3 s with
    | none => evRaise 139 (sumpSet 139 s)
    | some v =>
      if 2 ^ 64 ≤ v + 1 then onNv (fun n => { n with lostRecs := satAdd 4294967295 n.lostRecs 1 }) s
      else
        let r : LogRec := {
          seq := v + 1, rtc := rtc, ptp := if s.tu.state = 0 then 0 else ptp16 s,
          source := source, die := die, flags := flags, detail := detail }
        onNv (fun n => { n with log := smSet {} n.log i r }) (monoWrite 3 (v + 1) s)

def logRecord (source die flags : Nat) (detail : List Nat) (s : State) : State :=
  logRecordAt s.clk.rtc source die flags detail s

/-- A sump record of Pumphouse crosses the EVT channel with the PTP time it bears (R20, R23, R517). -/
def sendRecord (source : Nat) (detail : List Nat) (s : State) : State :=
  sendRiser true .evt .timeOfDay (timeBytes (ptp16 s))
    (sendRiser true .evt .sumpLog (natLE 2 source ++ (detail.map (natLE 4)).flatten) s)

/-- The sump record of a source (R517). One of Pumphouse crosses the riser, so it waits while the riser carries nothing
(R22, R510). -/
def recordOf (n : Nat) (detail : List Nat) (s : State) : State :=
  if evWell n then logRecord n 1 0 detail s
  else if riserUp s then logRecord n 0 0 detail (sendRecord n detail s)
  else onEv (fun e => { e with waitToV := e.waitToV ++ [(n + 256, detail)] }) s

/-- Raise a source (R510, R515, R517) with the items its rule puts into DETAIL. -/
def raise (n : Nat) (detail : List Nat) (s : State) : State :=
  let s := evRaise n s
  if evSticky n then recordOf n detail (sumpSet n s) else s

/-- What waited while the riser was not up crosses in raise order (R510). -/
def crossWaiting (s : State) : State :=
  let toP := s.ev.waitToP
  let toV := s.ev.waitToV
  let s := onEv (fun e => { e with waitToP := [], waitToV := [] }) s
  let s := toP.foldl (fun s n => evPumpViews n (sendRiser false .evt .events (natLE 2 n) s)) s
  toV.foldl (fun s (n, d) =>
    if n < 256 then evVaultView n (sendRiser true .evt .events (natLE 2 n) s)
    else logRecord (n - 256) 0 0 d (sendRecord (n - 256) d s)) s

/-! ## Outcomes -/

/-- Every meaning of the block but a core's access to a vendor block completes. -/
def done (s : State) : Res := .next s

end Sys2Proof.Machine
end

