-- ==== Sys2Proof/Machine/Command.lean ====
section
/-! DEFINITION. Command packets (chapter 06): packet bytes, the parameters of every opcode, acceptance, the order
in which commands start, and replies. -/
namespace Sys2Proof.Machine

/-! ## Statuses (R221) and detail reasons (R217) -/

abbrev stOk : Nat := 0x0000
abbrev stBusy : Nat := 0x0001
abbrev stDeferred : Nat := 0x0002
abbrev stBadVersion : Nat := 0x0010
abbrev stBadOpcode : Nat := 0x0011
abbrev stBadParam : Nat := 0x0012
abbrev stDenied : Nat := 0x0020
abbrev stSealed : Nat := 0x0021
abbrev stNoSpace : Nat := 0x0030
abbrev stTxnConflict : Nat := 0x0040
abbrev stTxnAborted : Nat := 0x0041
abbrev stNotErased : Nat := 0x0050
abbrev stEraseInterrupted : Nat := 0x0051
abbrev stInputZero : Nat := 0x0060
abbrev stInputGeModulus : Nat := 0x0061
abbrev stNotOnCurve : Nat := 0x0062
abbrev stTagMismatch : Nat := 0x0063
abbrev stLimit : Nat := 0x0070
abbrev stWrapRefused : Nat := 0x0071
abbrev stEntropyFail : Nat := 0x0080
abbrev stHwFault : Nat := 0x00F0

abbrev rsCrc : Nat := 1
abbrev rsLength : Nat := 2
abbrev rsMissing : Nat := 3
abbrev rsUnknown : Nat := 4
abbrev rsRange : Nat := 5
abbrev rsDupTlv : Nat := 6
abbrev rsDupTag : Nat := 7
abbrev rsFeature : Nat := 8

/-- Common TLV types (R217). -/
abbrev tyTxn : Nat := 0x7F01
abbrev tyVersion : Nat := 0x7F02
abbrev tyDetail : Nat := 0x7F03
abbrev tyOffset : Nat := 0x7F04

/-! ## Packet bytes (R214 to R216) -/

/-- One byte into a reflected CRC register of polynomial 0x1EDC6F41 (R215). -/
def crcByte (c : BitVec 32) (b : Byte) : BitVec 32 :=
  (List.range 8).foldl (fun c _ => if c.getLsbD 0 then (c >>> 1) ^^^ 0x82F63B78#32 else c >>> 1)
    (c ^^^ b.setWidth 32)

def crc32c (m : Bytes) : BitVec 32 := (m.foldl crcByte 0xFFFFFFFF#32) ^^^ 0xFFFFFFFF#32

def pad4 (n : Nat) : Nat := (n + 3) / 4 * 4

def tlvSize (t : Tlv) : Nat := 4 + pad4 t.val.length

def tlvBytes (t : Tlv) : Bytes :=
  natLE 2 (t.ty + if t.crit then 32768 else 0) ++ natLE 2 t.val.length ++ fit (pad4 t.val.length) t.val

/-- Bytes of a packet with its CRC (R214, R215). -/
def packetBytes (major minor opcode tag flags status : Nat) (tlvs : List Tlv) : Bytes :=
  let body := (tlvs.map tlvBytes).flatten
  let head := [BitVec.ofNat 8 major, BitVec.ofNat 8 minor] ++ natLE 2 opcode ++ natLE 2 tag ++ natLE 2 flags
    ++ natLE 2 status ++ natLE 2 body.length
  head ++ natLE 4 (crc32c (head ++ [0, 0, 0, 0] ++ body)).toNat ++ body

def replyBytes (r : Reply) : Bytes := packetBytes r.major r.minor r.opcode r.tag 1 r.status r.tlvs

/-- The TLVs that tile the parameter area (R216), with the offset of the first that does not fit. -/
def parseTlvs (off : Nat) : Nat → Bytes → Except Nat (List Tlv)
  | 0, b => if b = [] then .ok [] else .error off
  | n + 1, b =>
    if b = [] then .ok []
    else if b.length < 4 then .error off
    else
      let t := leNat (slice b 0 2)
      let l := leNat (slice b 2 2)
      let full := 4 + pad4 l
      if b.length < full then .error off
      else if (slice b (4 + l) (pad4 l - l)).any (· ≠ 0) then .error off
      else
        match parseTlvs (off + full) n (b.drop full) with
        | .ok r => .ok ({ ty := t % 32768, crit := 32768 ≤ t, val := slice b 4 l } :: r)
        | .error o => .error o

/-- A request as the bytes give it: opcode, packet, and whether step 1 of R220 passes (`bad` gives the reason)
and the parameter area tiles (`tile` gives the offset where it does not). -/
structure Parsed where
  opcode : Nat
  pkt : Packet
  bad : Option Nat
  tile : Option Nat
  deriving DecidableEq, Repr

/-- Read a request of at most `limit` bytes (R214 to R216, R220 step 1). A packet shorter than its header reads
zero bytes there. -/
def parsePacket (limit : Nat) (b : Bytes) : Parsed :=
  let h := fit 16 b
  let plen := leNat (slice h 10 2)
  let body := (b.drop 16).take plen
  let bad :=
    if plen % 4 ≠ 0 || b.length < 16 + plen || limit < 16 + plen || 16384 < 16 + plen then some rsLength
    else if leNat (slice h 12 4) ≠ (crc32c (h.take 12 ++ [0, 0, 0, 0] ++ body)).toNat then some rsCrc
    else none
  let tl := parseTlvs 16 (plen / 4) body
  let fl := leNat (slice h 6 2)
  { opcode := leNat (slice h 2 2) % 32768
    pkt := { major := leNat (slice h 0 1), minor := leNat (slice h 1 1), tag := leNat (slice h 4 2),
             fence := bitN fl 1, expert := 32768 ≤ leNat (slice h 2 2),
             tlvs := match tl with | .ok l => l | .error _ => [] }
    bad := bad
    tile := match tl with | .ok _ => none | .error o => some o }

/-! ## Arguments -/

def argOf (c : Call) (ty : Nat) : Option Bytes := (c.pkt.tlvs.find? (fun t => t.ty == ty)).map (·.val)
def argN (c : Call) (ty : Nat) : Option Nat := (argOf c ty).map leNat
def argD (c : Call) (ty d : Nat) : Nat := (argN c ty).getD d
def argsOf (c : Call) (ty : Nat) : List Bytes := (c.pkt.tlvs.filter (fun t => t.ty == ty)).map (·.val)
def hasArg (c : Call) (ty : Nat) : Bool := (argOf c ty).isSome

/-- Offset of the n-th TLV of a type from the first header byte, 0 when absent (R217). -/
def tlvOffset (p : Packet) (ty n : Nat) : Nat :=
  let rec go : List Tlv → Nat → Nat → Nat
    | [], _, _ => 0
    | t :: r, k, off =>
      if t.ty = ty then (if k = 0 then off else go r (k - 1) (off + tlvSize t))
      else go r k (off + tlvSize t)
  go p.tlvs n 16

def rtlv (ty : Nat) (v : Bytes) : Tlv := { ty := ty, crit := false, val := v }
def r8 (ty v : Nat) : Tlv := rtlv ty (natLE 1 v)
def r16 (ty v : Nat) : Tlv := rtlv ty (natLE 2 v)
def r32 (ty v : Nat) : Tlv := rtlv ty (natLE 4 v)
def r64 (ty v : Nat) : Tlv := rtlv ty (natLE 8 v)
def rtime (ty t : Nat) : Tlv := rtlv ty (timeBytes t)

/-- The DETAIL TLV (R217). -/
def detail (off reason ty : Nat) : Tlv := rtlv tyDetail (natLE 2 off ++ natLE 2 reason ++ natLE 2 ty ++ [0, 0])

/-! ## The parameters of every opcode (R217, R219, R242, R243) -/

/-- One parameter: type, length bounds, largest value where it is an integer, whether it must be present, whether
the expert form adds it, and how often it may appear. -/
structure Par where
  ty : Nat
  lo : Nat
  hi : Nat
  max : Nat := 2 ^ 128
  req : Bool := true
  x : Bool := false
  times : Nat := 1
  deriving DecidableEq, Repr

def pI (n ty max : Nat) : Par := { ty := ty, lo := n, hi := n, max := max }
def pF (n ty : Nat) : Par := { ty := ty, lo := n, hi := n }
def pV (ty lo hi : Nat) : Par := { ty := ty, lo := lo, hi := hi }
def opt (p : Par) : Par := { p with req := false }
def exp (p : Par) : Par := { p with req := false, x := true }

/-- Parameters by basic opcode. A parameter that an expert one may replace is optional here and demanded by the
command itself. -/
def params (opc : Nat) : List Par :=
  match opc with
  | 0x0101 => [pI 1 1 255, pI 1 2 255, pI 1 3 255, pF 8 4]
  | 0x0103 => [pV 1 0 16000]
  | 0x0201 => [pV 1 0 16384]
  | 0x0203 => [pI 1 1 3, opt (pI 1 2 5), exp (pV 3 1 4), exp (pV 4 1 4)]
  | 0x0204 => [pI 1 1 1, opt (pI 1 2 2), opt (pF 6 3)]
  | 0x0205 => [pI 1 1 63, opt (pF 8 2), opt (pF 4 3), opt (pF 8 4), opt (pF 4 5), opt (pI 1 6 55), opt (pI 1 7 2),
      opt (pF 2 8), exp (pF 4 9), exp (pF 4 10)]
  | 0x0206 => [pI 1 1 63, opt (pF 8 2), opt (pF 4 3), opt (pF 8 4), opt (pF 4 5), opt (pI 1 6 55),
      exp (pF 4 7), exp (pF 4 8)]
  | 0x0207 => [pI 1 1 3, opt (pI 1 2 7), opt (pI 1 3 63)]
  | 0x0208 => [opt (pI 1 1 3), opt (pI 1 2 1), opt (pI 1 3 63)]
  | 0x0301 => [pI 1 1 1, pI 1 2 4, pF 16 3, pV 4 1 129, pF 2 5, pI 2 6 4095, pF 2 7, pI 1 8 3, pI 2 9 16383, pF 2 10,
      pI 1 11 63, pI 1 12 1, pF 2 13, opt (pI 1 tyTxn 7), exp (pF 8 14), exp (pI 1 15 16)]
  | 0x0302 => [pI 4 1 0xFFFFFE, opt (pI 1 tyTxn 7), exp (pI 1 2 1), exp (pF 8 tyVersion)]
  | 0x0303 => [pI 4 1 0xFFFFFE, opt (pI 1 2 3), opt (pI 2 3 16383), opt (pF 2 4), opt (pI 1 5 63), opt (pI 1 6 1),
      opt (pF 2 7), opt (pI 1 tyTxn 7), exp (pF 8 tyVersion)]
  | 0x0304 => [opt (pI 4 1 0xFFFFFE), exp (pI 1 2 1), exp (pI 1 3 4), exp (pF 16 4), exp (pV 5 1 129), exp (pF 2 6),
      exp (pI 2 7 4095)]
  | 0x0305 => [pI 4 1 0xFFFFFE, opt (pI 1 tyTxn 7), exp (pI 1 2 15), exp (pF 8 tyVersion)]
  | 0x0401 => [pI 2 1 16383, pV 2 0 16384, exp (pI 2 3 32767), exp (pF 8 4)]
  | 0x0402 => [opt (pI 2 1 32767), exp (pI 2 2 16383)]
  | 0x0403 => [pI 2 1 32767]
  | 0x0404 => [opt (pV 1 0 16384), exp (pI 2 2 16383)]
  | 0x0501 => [exp (pI 2 1 7)]
  | 0x0502 => [pI 1 tyTxn 7, opt (pF 12 1)]
  | 0x0503 => [pI 1 tyTxn 7]
  | 0x0504 => [pI 1 tyTxn 7, exp (pF 4 tyOffset)]
  | 0x0505 => [pI 1 tyTxn 7]
  | 0x0602 => [opt (pF 12 1), exp (pF 8 2)]
  | 0x0603 => [pF 12 1, pF 12 2, pF 8 3, pF 8 4, exp (pI 2 5 32768)]
  | 0x0604 => [pI 1 1 2, pI 1 2 1, exp (pF 8 3), exp (pF 4 4), exp (pF 4 5), exp (pF 4 6), exp (pF 1 7)]
  | 0x0605 => [opt (pI 1 1 1), opt (pF 4 2), opt (pF 4 3), opt (pI 1 4 1), exp (pF 4 5)]
  | 0x0606 => [pI 1 1 1, opt (pI 1 2 1), opt (pF 4 3), opt (pF 4 4), exp (pF 2 5)]
  | 0x0607 => [opt (pF 2 1), opt (pF 12 2), opt (pF 4 3), opt (pF 4 4), opt (pF 4 5)]
  | 0x0701 => [pI 2 1 4095, { opt (pF 12 2) with times := 8 }, opt (pF 4 3), opt (pF 2 4), exp (pF 1 5), exp (pF 4 6),
      { exp (pF 4 7) with times := 8 }, exp (pF 1 8)]
  | 0x0702 => [pI 2 1 4095, exp (pI 2 2 4095)]
  | 0x0703 => [pI 2 1 4095]
  | 0x0801 => [pI 1 1 255, exp (pI 2 2 255), exp (pV 3 1 3)]
  | 0x0802 => [pV 1 0 16384, exp (pI 2 2 255)]
  | 0x0803 => [pI 2 1 255]
  | 0x0804 => [pI 2 1 255]
  | 0x0805 => [pI 2 1 255, pI 1 2 255, pV 3 0 16384, exp (pV 4 1 2), exp (pV 5 1 12)]
  | 0x0806 => [pI 2 1 255, pV 2 0 16384, pV 3 0 16384, pV 4 0 16384, pV 5 0 16]
  | 0x0807 => [pI 1 1 255, pV 2 0 16384, exp (pV 3 0 64)]
  | 0x0808 => [pI 1 1 255, pI 1 2 255, pV 3 0 16384, exp (pV 4 0 1024), exp (pV 5 1 4)]
  | 0x0809 => [pI 2 1 255, pV 2 0 16384, exp (pI 1 3 255)]
  | 0x080A => [pV 1 0 16384, pV 2 0 16384, pV 3 0 16384]
  | 0x080B => [pI 2 1 4096, exp (pI 1 2 7)]
  | 0x0901 => [pI 2 1 65535, pI 2 2 1000]
  | 0x0902 => [pI 2 1 65535, pV 2 16 16000]
  | 0x0903 => [pI 1 1 63, opt (pF 1 2)]
  | 0x0904 => [pF 8 1, pV 2 0 16384, pF 80 3]
  | 0x0905 => [pI 1 1 2, exp (pV 2 1 4)]
  | 0x0906 => [pF 2 1]
  | 0x0A02 => [pI 2 1 23]
  | 0x0A04 => [opt (pI 1 1 255), opt (pV 2 0 16384)]
  | 0x0A05 => [pV 1 0 16384]
  | 0x0A06 => [pV 1 0 16384]
  | 0x0A07 => [pI 2 1 3, pV 2 0 16384]
  | 0x0A08 => [pV 1 0 16384]
  | 0x0B02 => [pI 1 1 255]
  | 0x0B03 => [pI 1 1 3]
  | 0x0B04 => [pI 1 1 1, pV 2 1 4, pI 1 3 1, exp (pI 1 4 1)]
  | 0x0B05 => [pI 1 1 3, pI 1 2 255]
  | 0x0C02 => [pI 1 1 3, pF 4 2, pV 3 0 16384]
  | 0x0C03 => [pF 4 1, pF 4 tyOffset, pV 2 0 16000]
  | 0x0C04 => [pF 4 1, exp (pF 12 2)]
  | 0x0C05 => [pI 1 1 1]
  | 0x0C06 => [pF 4 1]
  | 0x0C07 => [pF 4 1, pI 1 2 2, exp (pF 4 3)]
  | 0x0D01 => [pF 2 1]
  | 0x0D02 => [pF 2 1, opt (pF 4 2)]
  | 0x0D03 => [pF 2 1, exp (pI 1 2 1)]
  | 0x0E01 => [pF 2 1, opt (pI 1 2 3), opt (pI 1 3 1), exp (pF 2 4)]
  | 0x0E02 => [pI 1 1 7]
  | 0x0E03 => [pI 1 1 3, pF 4 2]
  | 0x0E04 => [pI 1 1 3, opt (pF 32 2), opt (pF 4 3), opt (pF 4 4)]
  | 0x0E05 => [pF 4 tyOffset, pF 2 1]
  | _ => []

/-- The basic opcodes of R243. -/
def opcodes : List Nat :=
  [0x0101, 0x0102, 0x0103, 0x0104, 0x0201, 0x0202, 0x0203, 0x0204, 0x0205, 0x0206, 0x0207, 0x0208,
   0x0301, 0x0302, 0x0303, 0x0304, 0x0305, 0x0401, 0x0402, 0x0403, 0x0404, 0x0501, 0x0502, 0x0503, 0x0504, 0x0505,
   0x0601, 0x0602, 0x0603, 0x0604, 0x0605, 0x0606, 0x0607, 0x0701, 0x0702, 0x0703, 0x0704,
   0x0801, 0x0802, 0x0803, 0x0804, 0x0805, 0x0806, 0x0807, 0x0808, 0x0809, 0x080A, 0x080B, 0x080C,
   0x0901, 0x0902, 0x0903, 0x0904, 0x0905, 0x0906, 0x0A01, 0x0A02, 0x0A03, 0x0A04, 0x0A05, 0x0A06, 0x0A07, 0x0A08,
   0x0B01, 0x0B02, 0x0B03, 0x0B04, 0x0B05, 0x0C01, 0x0C02, 0x0C03, 0x0C04, 0x0C05, 0x0C06, 0x0C07,
   0x0D01, 0x0D02, 0x0D03, 0x0E01, 0x0E02, 0x0E03, 0x0E04, 0x0E05]

/-- What is wrong with a request's parameters: status and DETAIL. -/
abbrev Refuse := Nat × Nat × Nat × Nat

/-- Check one TLV against the command's parameters; `seen` counts earlier TLVs of its type (R218, R219). -/
def checkTlv (expert critTlv : Bool) (ps : List Par) (off seen : Nat) (t : Tlv) : Option Refuse :=
  match ps.find? (fun p => p.ty == t.ty && (!p.x || expert)) with
  | none => if critTlv && !t.crit then none else some (stBadParam, off, rsUnknown, t.ty)
  | some p =>
    if p.times ≤ seen then some (stBadParam, off, rsDupTlv, t.ty)
    else if t.val.length < p.lo || p.hi < t.val.length then some (stBadParam, off, rsLength, t.ty)
    else if p.lo = p.hi && p.max < leNat t.val then some (stBadParam, off, rsRange, t.ty)
    else none

def checkTlvs (expert critTlv : Bool) (ps : List Par) : List Tlv → List Nat → Nat → Option Refuse
  | [], _, _ => none
  | t :: r, seen, off =>
    match checkTlv expert critTlv ps off (seen.count t.ty) t with
    | some e => some e
    | none => checkTlvs expert critTlv ps r (t.ty :: seen) (off + tlvSize t)

/-- A parameter that must be there and is not (R219). -/
def missingPar (ps : List Par) (p : Packet) : Option Refuse :=
  match ps.find? (fun q => q.req && !p.tlvs.any (fun t => t.ty == q.ty)) with
  | some q => some (stBadParam, 0, rsMissing, q.ty)
  | none => none

/-! ## Sessions -/

def appletKey (k : CoreId) (tid : Nat) : Nat := (match k with | .control => 0 | .vault => 16) + tid

def ringOf (r : Nat) (s : State) : Ring := smGet {} s.cmd.rings r
def onRing (r : Nat) (f : Ring → Ring) (s : State) : State :=
  onCmd (fun c => { c with rings := smMod {} c.rings r f }) s

def appletOf (i : Nat) (s : State) : Applet := smGet {} s.cmd.applets i
def onApplet (i : Nat) (f : Applet → Applet) (s : State) : State :=
  onCmd (fun c => { c with applets := smMod {} c.applets i f }) s

/-- The session of a request (R212); the contactless one runs at protocol 3.0 without HELLO (R213). -/
def sessOf (v : Via) (s : State) : Sess :=
  match v with
  | .ring r => (ringOf r s).sess
  | .spi => s.cmd.spiSess
  | .applet k t => (appletOf (appletKey k t) s).sess
  | .contactless => { negotiated := true, maj := 3, min := 0, feat := 0 }

def setSess (v : Via) (e : Sess) (s : State) : State :=
  match v with
  | .ring r => onRing r (fun x => { x with sess := e }) s
  | .spi => onCmd (fun c => { c with spiSess := e }) s
  | .applet k t => onApplet (appletKey k t) (fun a => { a with sess := e }) s
  | .contactless => s

/-- Whether a session agreed a feature bit (R224). -/
def agreed (v : Via) (bit : Nat) (s : State) : Bool := bitN (sessOf v s).feat bit

/-- Expert mask of a transport (R39, R40, R41, R212). -/
def expertMask (v : Via) (s : State) : Nat :=
  match v with
  | .ring _ => s.pol.expertPcie
  | .spi => s.pol.expertSpi
  | .applet _ _ => s.pol.expertApp
  | .contactless => 0

/-- TRANSPORT of SESSION_INFO, in the order of R212. -/
def transportNo (v : Via) : Nat :=
  match v with
  | .ring _ => 0
  | .spi => 1
  | .applet _ _ => 2
  | .contactless => 3

/-- Outstanding commands a session may hold (R212). -/
def sessLimit (v : Via) : Nat :=
  match v with
  | .ring _ => 64
  | .spi => 8
  | .applet _ _ => 4
  | .contactless => 1

def outstanding (v : Via) (s : State) : List Owed := s.cmd.owed.filter (fun o => o.call.via = v)

/-- The place of a transport in the round of turns (R230): rings 0 to 3, SPI, applets in their order, contactless. -/
def turnNo (v : Via) : Nat :=
  match v with
  | .ring r => r
  | .spi => 4
  | .applet k t => 5 + appletKey k t
  | .contactless => 37

/-- Transports in a round. -/
def turnCount : Nat := 38

/-- A transport has its turn; the next begins behind it (R230). -/
def myTurn (v : Via) (s : State) : State := onCmd (fun c => { c with turn := (turnNo v + 1) % turnCount }) s

/-- Packets of a transport that wait for room in the hold list (R235). -/
def stuckOf (v : Via) (s : State) : Nat := s.cmd.stuck.countP (fun e => e.1 = v)

/-- Free entries of a reply ring. -/
def replyRoom (g : Ring) : Nat := g.size - 1 - (g.rspTail + g.size - g.rspHead) % g.size

/-! ## SPI (R229) -/

/-- Commands taken by PUT and not replied. -/
def spiOutstanding (s : State) : Nat := (outstanding .spi s).length + stuckOf .spi s

/-- Reply slots that are reserved or hold a reply, of 16. -/
def spiSlots (s : State) : Nat := spiOutstanding s + s.cmd.spiReplies.length

def spiSpace (s : State) : Bool := spiOutstanding s < 8 && spiSlots s < 16

/-- Whether the interpreter can take a packet its transport offers now: from a ring that holds no earlier request and has
more free reply entries than outstanding commands (R228), from SPI while SPACE is 1 (R229). -/
def mayTake (v : Via) (s : State) : Bool :=
  match v with
  | .ring r => (ringOf r s).fetched = [] && (outstanding v s).length < replyRoom (ringOf r s)
  | .spi => spiSpace s
  | _ => true

/-- Whether an applet can send, or a field session is open (R453, R298). -/
def viaOpen (v : Via) (s : State) : Bool :=
  match v with
  | .ring _ => !s.plat.pcieReset
  | .spi => true
  | .applet k t => (appletOf (appletKey k t) s).running
  | .contactless => s.cmd.clSess

/-- A time TLV whose nanoseconds exceed a second is out of range (R179, R218). -/
def badTime (c : Call) (ty : Nat) : Bool :=
  match argOf c ty with
  | some b => 1000000000 ≤ leNat (slice b 6 4)
  | none => false

/-! ## Who serves a command (R243) -/

/-- Calibration items of the vault core, column Core of R507. -/
def calVault (item : Nat) : Bool :=
  item == 0x0400 || item == 0x0402 || (0x0500 ≤ item && item ≤ 0x050B) || item == 0x0604
    || (0x0610 ≤ item && item ≤ 0x0613) || item == 0x0700

def vaultServed (opc : Nat) (c : Call) : Bool :=
  opc == 0x0201 || opc == 0x0202 || opc / 256 == 4 || opc / 256 == 8 || opc / 256 == 9 || opc / 256 == 10 ||
  opc / 256 == 12 || opc == 0x0E03 || opc == 0x0E04 || (opc / 256 == 13 && calVault (argD c 1 0))

/-- The control core interprets nothing: stopped, halted by debug or restarting (R234, R342, R455). -/
def controlDown (s : State) : Bool :=
  s.cpuC.stopped || s.cpuC.halted ||
    s.cpuC.restarting.isSome

/-- The vault cannot serve: stopped, halted, or behind a riser that is down (R22, R35, R342). -/
def vaultDown (s : State) : Bool := s.cpuV.stopped || s.cpuV.halted || s.ri.st == .down

/-- BOOT_STAGE shows a stage in which an interpreter takes packets (R220 step 2, R350). -/
def isReady (s : State) : Bool :=
  s.plat.stage == .ready || s.plat.stage == .recovery || s.plat.stage == .swapC || s.plat.stage == .swapV

/-! ## Acceptance (R220 steps 2 to 7) -/

/-- Opcodes the contactless session takes (R213). -/
def contactlessOps : List Nat := [0x0104, 0x0A01, 0x0A03, 0x0A05, 0x0E03]

/-- The feature bit an opcode needs (R224). -/
def featureOf (opc : Nat) : Option Nat :=
  if opc / 256 = 7 then some 2
  else if opc = 0x0404 then some 3
  else if opc = 0x0906 then some 4
  else if opc = 0x0C06 || opc = 0x0C07 then some 5
  else none

/-- Commands SEALED refuses (R326). -/
def sealedRefuses (opc : Nat) (c : Call) : Bool :=
  opc ∈ [0x0401, 0x0404, 0x0801, 0x0802, 0x0904, 0x0201, 0x0A06, 0x0C06, 0x0A08] ||
  (opc == 0x0C02 && 2 ≤ argD c 1 0) || (opc == 0x0A04 && argD c 1 0 ≠ 4)

/-- Commands RETIRED still serves (R335). -/
def retiredServes : List Nat := [0x0101, 0x0102, 0x0103, 0x0104, 0x0A03, 0x0A01, 0x0E03, 0x0E05, 0x0B01]

/-- The refusal of steps 2 to 7, in their order. -/
def acceptRefuse (opc : Nat) (c : Call) (s : State) : Option Refuse :=
  let e := sessOf c.via s
  if 16384 < 16 + (c.pkt.tlvs.map tlvSize).sum then some (stBadParam, 0, rsLength, 0)
  else if !isReady s then some (stBusy, 0, 0, 0)
  else if !(if e.negotiated then c.pkt.major == e.maj && c.pkt.minor ≤ e.min
            else (opc == 0x0101 || opc == 0x0103 || opc == 0x0104) && 2 ≤ c.pkt.major) then
    some (stBadVersion, 0, 0, 0)
  else if !opcodes.contains opc then some (stBadOpcode, 0, rsRange, 0)
  else if c.via = .contactless && (c.pkt.expert || !contactlessOps.contains opc) then some (stBadOpcode, 0, rsRange, 0)
  else if (match featureOf opc with | some b => !bitN e.feat b | none => false) then some (stBadOpcode, 0, rsFeature, 0)
  else if c.pkt.expert && !bitN (expertMask c.via s) (opc / 256 - 1) then some (stDenied, 0, 0, 0)
  else if sessLimit c.via ≤ (outstanding c.via s).length then some (stBusy, 0, 0, 0)
  else if (outstanding c.via s).any (fun o => o.call.pkt.tag == c.pkt.tag) then some (stBadParam, 0, rsDupTag, 0)
  else if s.nv.life = .sealed && sealedRefuses opc c then some (stSealed, 0, 0, 0)
  else if s.nv.life = .retired && !retiredServes.contains opc then some (stDenied, 0, 0, 0)
  else if vaultServed opc c && 256 ≤ (s.cmd.owed.filter (fun o => vaultServed o.opcode o.call && o.wait == .held)).length
  then some (stBusy, 0, 0, 0)
  else none

/-! ## Replies -/

def refuseTlvs (r : Refuse) : List Tlv :=
  if r.1 = stBadParam || r.1 = stLimit || r.1 = stBadOpcode then [detail r.2.1 r.2.2.1 r.2.2.2] else []

/-- Header version of a reply (R222, R223). -/
def replyVersion (c : Call) (s : State) : Nat × Nat :=
  let e := sessOf c.via s
  if e.negotiated then (e.maj, e.min) else (c.pkt.major, c.pkt.minor)

/-- A word of a core's RAM lies in a range of the core's addresses (R373, R525, R526). -/
def ramWordIn (k : CoreId) (m : MemId) (w a n : Nat) : Bool :=
  let at_ : Option Nat := match k, m with
    | .control, .controlRam => some (0x10000000 + 8 * w)
    | .vault, .vaultX => some (0x100000 + 8 * w)
    | .vault, .vaultY => some (0x140000 + 8 * w)
    | _, _ => none
  at_.any (fun x => x < a + n && a < x + 8)

/-- RAM of a core's applets: control RAM or vault RAM at their addresses (R525, R526). A word that is written is good
again (R374). -/
def ramPut (k : CoreId) (addr : Nat) (b : Bytes) (s : State) : State :=
  let s := if s.me.faulty = [] then s
    else onMe (fun m => { m with faulty := m.faulty.filter (fun e => !ramWordIn k e.1 e.2 addr b.length) }) s
  let put (base size : Nat) (m : SMap Byte) : SMap Byte :=
    b.zipIdx.foldl (fun m (x, i) =>
      if base ≤ addr + i && addr + i < base + size then smSet 0 m (addr + i - base) x else m) m
  match k with
  | .control => onMe (fun m => { m with ctrlRam := put 0x10000000 0x200000 m.ctrlRam }) s
  | .vault => onMe (fun m => { m with vaultRam := put 0x100000 0x80000 m.vaultRam }) s

def ramGet (k : CoreId) (addr len : Nat) (s : State) : Bytes :=
  let get (base size : Nat) (m : SMap Byte) : Bytes :=
    (List.range len).map (fun i => if base ≤ addr + i && addr + i < base + size then smGet 0 m (addr + i - base) else 0)
  match k with
  | .control => get 0x10000000 0x200000 s.me.ctrlRam
  | .vault => get 0x100000 0x80000 s.me.vaultRam

/-- REQ_ADDR, REQ_LEN, RSP_MAX and RSP_ADDR of a request ring entry (R227). -/
def reqAddr (q : RingReq) : Nat := leNat (slice q.entry 0 8)
def reqLen (q : RingReq) : Nat := leNat (slice q.entry 8 2)
def rspMax (q : RingReq) : Nat := leNat (slice q.entry 12 4)
def rspAddr (q : RingReq) : Nat := leNat (slice q.entry 16 8)

/-- A reply ring entry as laid out (R227). -/
def ringEntryBytes (tag status desc len : Nat) (phase : Bool) : Bytes :=
  natLE 2 tag ++ natLE 2 status ++ natLE 2 desc ++ natLE 2 len ++ natLE 1 (b2n phase) ++ List.replicate 7 0

/-- A reply ring entry and its message (R228, R512). The entry is written last; a reply too large for its buffer has
length `len` written. -/
def ringPut (n : Nat) (r : Reply) (len : Nat) (s : State) : State :=
  let g := ringOf n s
  if g.size = 0 then s
  else
    let next := (g.rspTail + 1) % g.size
    let s := emit (.ringEntry n g.rspTail r.tag r.status r.desc len g.phase) s
    let s := emit (.dma (g.rspBase + 16 * g.rspTail) (ringEntryBytes r.tag r.status r.desc len g.phase)) s
    let s := onRing n (fun x => { x with rspTail := next, phase := if next = 0 then !x.phase else x.phase }) s
    if g.intMask then s else msix (56 + n) s

/-- A reply reaches its sender: a reply ring (R228), an SPI slot (R229), an applet's buffer and its CMD_WAIT (R453), or
the reader (R298). The reply of an applet that has been stopped still comes to its buffer; a sender that is gone gets nothing (R232). -/
def deliver (r : Reply) (s : State) : State :=
  match r.via with
  | .ring n => if (ringOf n s).size = 0 then s else ringPut n r (replyBytes r).length (emit (.dma r.rsp (replyBytes r)) (emit (.reply r) s))
  | .spi => onCmd (fun c => { c with spiReplies := c.spiReplies ++ [r] }) (emit (.reply r) s)
  | .applet k t =>
    let i := appletKey k t
    let a := appletOf i s
    if 100 ≤ i then s
    else
      let s := emit (.reply r) s
      let b := replyBytes r
      let s := match a.bufs.find? (fun e => e.1 == r.tag) with
        | some (_, addr) => ramPut k addr b s
        | none => s
      onApplet i (fun a =>
        let a := { a with bufs := a.bufs.eraseP (fun e => e.1 == r.tag) }
        match a.wait with
        | .reply tag _ => if tag = r.tag then { a with wait := .done 0 b.length } else { a with replies := a.replies ++ [r] }
        | _ => if a.running then { a with replies := a.replies ++ [r] } else a) s
  | .contactless =>
    if s.cmd.clSess then emit (.sw 0x9000 (replyBytes r)) (onCl (fun c => { c with execAt := none }) (emit (.reply r) s)) else s

/-- The commands of a transport run on without a session to answer (R232, R298, R487, R522): they move to a sender that
never runs, which keeps the features their session had agreed, under tags that no other command holds. -/
def orphan (v : Via) (s : State) : State :=
  let n := 100 + turnNo v
  let e := sessOf v s
  let top := s.cmd.owed.foldl (fun m o => max m o.call.pkt.tag) 65536
  let s := onCmd (fun c => { c with owed := c.owed.zipIdx.map (fun (o, i) =>
    if o.call.via = v then
      { o with call := { o.call with via := .applet .control n, pkt := { o.call.pkt with tag := top + 1 + i } } }
    else o) }) (onApplet n (fun a => { a with sess := e }) s)
  let owner := s.cmd.owed.find? (fun o => o.wait == .badge)
  onCl (fun x => { x with badge := x.badge.map (fun b => { b with call := (owner.map (·.call)).getD b.call }) }) s

def mkReply (c : Call) (opc st : Nat) (tlvs : List Tlv) (ver : Nat × Nat) : Reply :=
  { via := c.via, major := ver.1, minor := ver.2, opcode := opc + (if c.pkt.expert then 32768 else 0),
    tag := c.pkt.tag, status := st, tlvs := tlvs, desc := c.desc, rsp := c.rsp }

/-- Answer a request that is not taken into the outstanding commands. -/
def answer (c : Call) (opc : Nat) (r : Refuse) (s : State) : State :=
  deliver (mkReply c opc r.1 (refuseTlvs r) (replyVersion c s)) s

/-! ## The way to the vault core (R24, R380) -/

/-- Bytes of a request packet (R214). -/
def requestBytes (opc : Nat) (c : Call) : Bytes :=
  packetBytes c.pkt.major c.pkt.minor (opc + (if c.pkt.expert then 32768 else 0)) c.pkt.tag (if c.pkt.fence then 2 else 0) 0
    c.pkt.tlvs

/-- Commands the control core forwards over the MBX channel: vault-served ones that did not come to the vault core
itself (R24). -/
def overMailbox (opc : Nat) (c : Call) : Bool :=
  vaultServed opc c && (match c.via with
    | .applet .vault _ => false
    | .contactless => false
    | _ => true)

def mailboxWord (a : Nat) (s : State) : Nat := leNat ((List.range 8).map (fun i => smGet 0 s.me.mailbox (a + i)))

/-- Bytes into a sparse memory that reads 0 where nothing is listed. -/
def putBytes (m : SMap Byte) (off : Nat) (b : Bytes) : SMap Byte := b.zipIdx.foldl (fun m (x, i) => smSet 0 m (off + i) x) m

/-- The writes of the other port that a write of n bytes at `a` meets in a word in the same tick (R381). -/
def mailboxMet (portM : Bool) (a n : Nat) (s : State) : List (Bool × Nat × Nat) :=
  if s.me.mbxNow.1 ≠ s.clk.now then []
  else s.me.mbxNow.2.filter (fun (m, x, k) => m != portM && x / 8 < (a + n + 7) / 8 && a / 8 < (x + k + 7) / 8)

/-- A port writes mailbox bytes. Where both ports write a word in one clock, bytes that both write take port M's value, and
the collision is counted and raised (R381). -/
def mailboxWrite (portM : Bool) (a : Nat) (b : Bytes) (s : State) : State :=
  let met := mailboxMet portM a b.length s
  let lost (i : Nat) : Bool := !portM && met.any (fun (_, x, k) => x ≤ a + i && a + i < x + k)
  let past := if s.me.mbxNow.1 = s.clk.now then s.me.mbxNow.2 else []
  let s := onMe (fun m => { m with
    mailbox := if met = [] then putBytes m.mailbox a b
      else b.zipIdx.foldl (fun x (v, i) => if lost i then x else smSet 0 x (a + i) v) m.mailbox
    mbxNow := (s.clk.now, past ++ [(portM, a, b.length)])
    mbxCollisions := if met = [] then m.mbxCollisions else m.mbxCollisions + 1 }) s
  if met = [] then s else raise 142 [a / 8] s

/-- Bytes pass a half of the riser mailbox (R380): the producer writes them into its ring, one slot of 128 bytes after
another, and moves the tail; the consumer takes them and moves the head. Port M, the riser end's, writes requests and
takes replies (log 102). -/
def mailboxPut (out : Bool) (b : Bytes) (s : State) : State :=
  let base := if out then 0x8000 else 0
  let n := (b.length + 127) / 128
  let tail := mailboxWord (base + 8) s
  let s := (List.range n).foldl (fun s i =>
    mailboxWrite (!out) (base + 128 + 128 * ((tail + i) % 255)) (fit 128 (slice b (128 * i) 128)) s) s
  let t := natLE 8 ((tail + n) % 255)
  mailboxWrite out base t (mailboxWrite (!out) (base + 8) t s)

/-- The books of a forwarded command, kept when it is answered (log 102): its packet to the vault core and the reply
back, unchanged, each through the mailbox and over the MBX channel. -/
def carry (opc : Nat) (c : Call) (r : Reply) (s : State) : State :=
  if overMailbox opc c && riserUp s && !vaultDown s then
    let q := requestBytes opc c
    let a := replyBytes r
    sendRiser false .mbx .mailbox a (mailboxPut true a (mailboxPut false q (sendRiser true .mbx .mailbox q s)))
  else s

/-- A reply over the dual-clock queues of a host session (R29), to its sender. -/
def handBack (opc : Nat) (c : Call) (r : Reply) (s : State) : State :=
  let s := carry opc c r s
  let host : Bool := match c.via with
    | .ring _ => true
    | .spi => true
    | _ => false
  deliver r (if host then cdcPass cdcReplies ((replyBytes r).length / 16)
    (cdcPass cdcRequests ((requestBytes opc c).length / 16) s) else s)

def isOwed (c : Call) (o : Owed) : Bool := o.call.via == c.via && o.call.pkt.tag == c.pkt.tag

def dropOwed (c : Call) : List Owed → List Owed
  | [] => []
  | o :: r => if isOwed c o then r else o :: dropOwed c r

/-- The one reply of a taken command (R232). -/
def reply (c : Call) (st : Nat) (tlvs : List Tlv) (s : State) : State :=
  match s.cmd.owed.find? (isOwed c) with
  | none => s
  | some o =>
    let s := onCmd (fun x => { x with owed := dropOwed c x.owed }) s
    handBack o.opcode c (mkReply c o.opcode st tlvs (replyVersion c s)) s

def replyOk (c : Call) (tlvs : List Tlv) (s : State) : State := reply c stOk tlvs s
def refuse (c : Call) (st : Nat) (s : State) : State := reply c st (refuseTlvs (st, 0, rsRange, 0)) s

/-- BAD_PARAM, or LIMIT, for the value of a TLV (R217). -/
def refuseTlv (c : Call) (st reason ty : Nat) (s : State) : State :=
  reply c st (refuseTlvs (st, tlvOffset c.pkt ty 0, reason, ty)) s
def badParam (c : Call) (ty : Nat) (s : State) : State := refuseTlv c stBadParam rsRange ty s

/-- The command completes later, when what it waits for comes (R231, R232). -/
def await (c : Call) (w : Wait) (s : State) : State :=
  onCmd (fun x => { x with owed := x.owed.map (fun o => if isOwed c o then { o with wait := w } else o) }) s

/-! ## Order (R231, R235) -/

/-- The common objects a command names (R231): kind and number. Kinds: 1 stream index, 2 transaction slot, 4 key pair with
its slots, 5 vault key slot, 6 check group, 7 queue, 8 port, 9 pair, 10 tag pages, 11 firmware session, 12 calibration item,
13 time, 14 policy, 15 the badge reader, 16 the lifecycle with LCCTR (log 80). -/
def objects (opc : Nat) (c : Call) : List (Nat × Nat) :=
  let n := argD c 1 0
  let txn := match argN c tyTxn with | some t => [(2, t)] | none => []
  let named (ty kind : Nat) : List (Nat × Nat) := match argN c ty with | some x => [(kind, x)] | none => []
  let pairOf (ty : Nat) : List (Nat × Nat) := match argN c ty with | some x => [(4, x / 2)] | none => []
  let portsOf (p : Nat) : List (Nat × Nat) := [(9, p), (8, 2 * p), (8, 2 * p + 1)]
  match opc / 256 with
  | 2 =>
    if opc = 0x0203 then [(8, n)]
    else if opc = 0x0207 then (8, n) :: named 3 7
    else if opc = 0x0204 then portsOf n
    else if opc = 0x0205 || opc = 0x0206 then [(7, n)]
    else if opc = 0x0208 then named 1 8 ++ named 2 9 ++ named 3 7
    else [(14, 0)]
  | 3 =>
    if opc = 0x0301 then named 9 4 ++ named 11 7 ++ txn
    else if opc = 0x0303 then (1, n) :: (named 3 4 ++ named 5 7 ++ txn)
    else (1, n) :: txn
  | 4 =>
    if opc = 0x0401 then (4, n) :: pairOf 3
    else if opc = 0x0404 then named 2 4
    else pairOf 1 ++ (if opc = 0x0402 then named 2 4 else [])
  | 5 => txn ++ (if opc = 0x0501 then named 1 2 else [])
  | 6 => (13, 0) :: (if opc = 0x0606 then portsOf n else [])
  | 7 =>
    if opc = 0x0704 then []
    else if opc = 0x0702 then (List.range (argD c 2 n + 1 - n)).map (fun i => (6, n + i))
    else (6, n) :: (if opc = 0x0701 then (argsOf c 2).map (fun b => (1, leNat (slice b 0 4))) else [])
  | 8 =>
    if opc ∈ [0x0803, 0x0804, 0x0805, 0x0806, 0x0809] then [(5, n)]
    else if opc = 0x0801 || opc = 0x0802 then named 2 5
    else []
  | 9 => if opc ∈ [0x0901, 0x0902, 0x0903, 0x0904] then [(10, 0)] else if opc = 0x0906 then [(15, 0)] else []
  | 10 => if opc ∈ [0x0A04, 0x0A05, 0x0A06, 0x0A07, 0x0A08] then [(16, 0)] else []
  | 11 => if opc = 0x0B05 then [(8, n)] else []
  | 12 => if opc ∈ [0x0C03, 0x0C04, 0x0C06] then [(11, n)] else if opc = 0x0C02 then [(11, 0)] else []
  | 13 => [(12, n)]
  | _ => []

/-- Commands the ROM interpreter answers itself during a control-core swap (R235). -/
def romAnswers : List Nat := [0x0103, 0x0104, 0x0102, 0x0601, 0x0C01]

/-- Held back by a swap past its swap point, or by a restart (R235, R369, R370, R455). -/
def swapHolds (o : Owed) (s : State) : Bool :=
  (s.cpuV.restarting.isSome && vaultServed o.opcode o.call) ||
  (match s.plat.swap with
   | some w => w.pointed && (match w.core with
     | .control => !romAnswers.contains o.opcode && !vaultServed o.opcode o.call
     | .vault => vaultServed o.opcode o.call)
   | none => false)

/-- Commands that ask the vault core for something (R22): those it serves, and publish additions and new pairs of
publish entries, which take a counter line (R124; log 108). -/
def asksVault (opc : Nat) (c : Call) : Bool :=
  vaultServed opc c || (opc == 0x0301 && argD c 1 0 == 1) || (opc == 0x0303 && hasArg c 3)

/-- Whether a waiting command may start: FENCE (R214, R223), common objects and vault order (R231), swaps (R235)
and a riser that retrains (R22). -/
def startable (earlier : List Owed) (o : Owed) (s : State) : Bool :=
  o.wait == .held &&
  !((o.call.pkt.fence || (o.opcode == 0x0101 && (sessOf o.call.via s).negotiated)) &&
    earlier.any (fun e => e.call.via == o.call.via)) &&
  !earlier.any (fun e => (objects o.opcode o.call).any (fun x => (objects e.opcode e.call).contains x)) &&
  !(vaultServed o.opcode o.call && earlier.any (fun e => e.wait == .held && vaultServed e.opcode e.call)) &&
  !swapHolds o s &&
  !(asksVault o.opcode o.call && s.ri.st == .retraining)

/-- The first command that may start. -/
def firstStart (s : State) : List Owed → List Owed → Option Owed
  | _, [] => none
  | earlier, o :: r => if startable earlier o s then some o else firstStart s (earlier ++ [o]) r

/-- Commands a ROM serves in RECOVERY (R352). -/
def recoveryServes (opc : Nat) (c : Call) (s : State) : Bool :=
  if vaultServed opc c then
    s.fw.chosenV.isSome || opc ∈ [0x0A03, 0x0A01, 0x0E03, 0x0C01, 0x0C02, 0x0C03, 0x0C04]
  else s.fw.chosenC.isSome || opc ∈ [0x0101, 0x0102, 0x0103, 0x0104, 0x0B01, 0x0E05]

/-- What the feature set forbids in parameters (R224). -/
def featureRefuse (opc : Nat) (c : Call) (s : State) : Option Refuse :=
  let no (bit ty : Nat) (on : Bool) : Option Refuse :=
    if on && !agreed c.via bit s then some (stBadParam, tlvOffset c.pkt ty 0, rsFeature, ty) else none
  match opc with
  | 0x0502 => no 0 1 (hasArg c 1)
  | 0x0205 => no 1 7 (argN c 7 == some 2)
  | 0x0301 => (no 3 8 (argN c 8 == some 3)).or (no 3 12 (argN c 12 == some 1))
  | 0x0303 => (no 3 2 (argN c 2 == some 3)).or (no 3 6 (argN c 6 == some 1))
  | 0x0905 => no 4 1 (argN c 1 == some 2)
  | _ => none

/-- Steps 8 and 9 of R220: the parameters, then the command itself; a vault-served command without its vault is
answered HW_FAULT (R22, R35). A HELLO refused here leaves its session unnegotiated (R223). -/
def startCall (run : Nat → Call → State → State) (o : Owed) (s : State) : State :=
  let c := o.call
  let ps := params o.opcode
  match (checkTlvs c.pkt.expert (agreed c.via 7 s) ps c.pkt.tlvs [] 16).or (missingPar ps c.pkt) with
  | some r => reply c r.1 (refuseTlvs r) (if o.opcode = 0x0101 then setSess c.via {} s else s)
  | none =>
    match featureRefuse o.opcode c s with
    | some r => reply c r.1 (refuseTlvs r) s
    | none =>
      if vaultServed o.opcode c && vaultDown s then refuse c stHwFault s
      else if s.plat.stage == .recovery && !recoveryServes o.opcode c s then refuse c stHwFault s
      else run o.opcode c s

/-- Start every command that may start, in taken order. -/
def startAll (run : Nat → Call → State → State) : Nat → State → State
  | 0, s => s
  | n + 1, s =>
    match firstStart s [] s.cmd.owed with
    | none => s
    | some o => startAll run n (startCall run o s)

/-- The turn in which the interpreter takes a request (R230): refused under steps 2 to 7, or taken. A request that
finds the hold list full is not taken (R235). -/
def takeCall (opc : Nat) (c : Call) (s : State) : State :=
  if !viaOpen c.via s then s
  else
    let s := myTurn c.via s
    if controlDown s then deliver (mkReply c opc stBusy [] (2, 0)) s
    else match acceptRefuse opc c s with
    | some r => answer c opc r s
    | none => onCmd (fun x => { x with owed := x.owed ++ [{ call := c, opcode := opc, wait := .held }] }) s

/-- Whether the hold list of R235 has room for a request. -/
def holdRoom (opc : Nat) (c : Call) (s : State) : Bool :=
  !swapHolds { call := c, opcode := opc, wait := .held } s || (s.cmd.owed.filter (fun o => swapHolds o s)).length < 256

end Sys2Proof.Machine
end

