-- ==== Sys2Proof/Machine/Crypto.lean ====
section
/-! DEFINITION. The published algorithms the spec names: AES (FIPS 197), GCM (SP 800-38D), CMAC (SP 800-38B),
SHA-2 (FIPS 180-4), HMAC and HKDF (RFC 2104, RFC 5869), SipHash-2-4, AES key wrap with padding (RFC 5649).
PRESUMED: the standards are not part of the spec's text (log 8). -/
namespace Sys2Proof.Machine

/-! ## AES -/

def aesX (b : Byte) : Byte := (b <<< 1) ^^^ (if b.getLsbD 7 then 0x1B#8 else 0#8)

/-- Multiplication in GF(2^8) modulo x^8 + x^4 + x^3 + x + 1. -/
def aesMul (a b : Byte) : Byte :=
  ((List.range 8).foldl (fun (acc : Byte × Byte) i =>
    (if b.getLsbD i then acc.1 ^^^ acc.2 else acc.1, aesX acc.2)) (0#8, a)).1

/-- The inverse in GF(2^8): the power 254. -/
def aesInv (a : Byte) : Byte :=
  let p2 := aesMul a a
  let p4 := aesMul p2 p2
  let p8 := aesMul p4 p4
  let p16 := aesMul p8 p8
  let p32 := aesMul p16 p16
  let p64 := aesMul p32 p32
  aesMul (aesMul (aesMul (aesMul (aesMul (aesMul (aesMul p64 p64) p64) p32) p16) p8) p4) p2

def aesSub (a : Byte) : Byte :=
  let i := aesInv a
  i ^^^ i.rotateLeft 1 ^^^ i.rotateLeft 2 ^^^ i.rotateLeft 3 ^^^ i.rotateLeft 4 ^^^ 0x63#8

def aesUnsub (a : Byte) : Byte := aesInv (a.rotateLeft 1 ^^^ a.rotateLeft 3 ^^^ a.rotateLeft 6 ^^^ 0x05#8)

/-- Round constants' words, then the key schedule as a list of four-byte words. -/
def aesWords (nk : Nat) : Nat → Byte → List Bytes → List Bytes
  | 0, _, w => w
  | n + 1, rc, w =>
    let i := w.length
    let t := w.getLastD [0, 0, 0, 0]
    let old := w.getD (i - nk) [0, 0, 0, 0]
    if i % nk = 0 then
      let r := (t.drop 1 ++ t.take 1).map aesSub
      aesWords nk n (aesX rc) (w ++ [xorBytes old (xorBytes r [rc, 0, 0, 0])])
    else if nk = 8 && i % 8 = 4 then aesWords nk n rc (w ++ [xorBytes old (t.map aesSub)])
    else aesWords nk n rc (w ++ [xorBytes old t])

def chunks (n : Nat) : Nat → Bytes → List Bytes
  | 0, _ => []
  | f + 1, b => if b = [] then [] else b.take n :: chunks n f (b.drop n)

/-- The blocks of a byte string, the last one short. -/
def blocksOf (n : Nat) (b : Bytes) : List Bytes := chunks n (b.length + 1) b

/-- Round keys of a 16-byte or 32-byte key. -/
def aesKeys (key : Bytes) : List Bytes :=
  let nk := key.length / 4
  let total := 4 * (nk + 7)
  blocksOf 16 (aesWords nk (total - nk) 0x01#8 (blocksOf 4 key)).flatten

def aesShift (s : Bytes) : Bytes := (List.range 16).map (fun i => s.getD ((i % 4) + 4 * ((i / 4 + i % 4) % 4)) 0)
def aesUnshift (s : Bytes) : Bytes := (List.range 16).map (fun i => s.getD ((i % 4) + 4 * ((i / 4 + 4 - i % 4) % 4)) 0)

def aesMixBy (m : Bytes) (s : Bytes) : Bytes :=
  ((blocksOf 4 s).map (fun c => (List.range 4).map (fun r =>
    (List.range 4).foldl (fun acc j => acc ^^^ aesMul (m.getD ((j + 4 - r) % 4) 0) (c.getD j 0)) 0#8))).flatten

def aesMix (s : Bytes) : Bytes := aesMixBy [2, 3, 1, 1] s
def aesUnmix (s : Bytes) : Bytes := aesMixBy [14, 11, 13, 9] s

/-- AES encryption of one block. -/
def aesEnc (key blk : Bytes) : Bytes :=
  let ks := aesKeys key
  let n := ks.length - 1
  let s := xorBytes blk (ks.getD 0 [])
  let s := (List.range (n - 1)).foldl (fun s i => xorBytes (aesMix (aesShift (s.map aesSub))) (ks.getD (i + 1) [])) s
  xorBytes (aesShift (s.map aesSub)) (ks.getD n [])

/-- AES decryption of one block. -/
def aesDec (key blk : Bytes) : Bytes :=
  let ks := aesKeys key
  let n := ks.length - 1
  let s := (aesUnshift (xorBytes blk (ks.getD n []))).map aesUnsub
  let s := (List.range (n - 1)).foldl (fun s i =>
    (aesUnshift (aesUnmix (xorBytes s (ks.getD (n - 1 - i) [])))).map aesUnsub) s
  xorBytes s (ks.getD 0 [])

/-! ## GCM and CMAC -/

/-- Multiplication in GF(2^128) as GHASH orders its bits. -/
def ghMul (x y : BitVec 128) : BitVec 128 :=
  ((List.range 128).foldl (fun (acc : BitVec 128 × BitVec 128) i =>
    (if x.getLsbD (127 - i) then acc.1 ^^^ acc.2 else acc.1,
     (acc.2 >>> 1) ^^^ (if acc.2.getLsbD 0 then (0xE1#128 <<< 120) else 0#128))) (0#128, y)).1

def ghash (h : BitVec 128) (b : Bytes) : BitVec 128 :=
  (blocksOf 16 b).foldl (fun y x => ghMul (y ^^^ of128 (fit 16 x)) h) 0#128

def pad16 (b : Bytes) : Bytes := fit ((b.length + 15) / 16 * 16) b

/-- The counter block with its low 32 bits advanced by n. -/
def gcmInc (j : Bytes) (n : Nat) : Bytes := j.take 12 ++ natBE 4 ((beNat (j.drop 12) + n) % 2 ^ 32)

/-- J0 from an IV (SP 800-38D). -/
def gcmJ0 (key iv : Bytes) : Bytes :=
  if iv.length = 12 then iv ++ [0, 0, 0, 1]
  else
    let h := of128 (aesEnc key (List.replicate 16 0))
    bytes128 (ghash h (pad16 iv ++ List.replicate 8 0 ++ natBE 8 (8 * iv.length)))

/-- Counter-mode stream from block j + 1 on. -/
def gcmCtr (key j b : Bytes) : Bytes :=
  (((blocksOf 16 b).zipIdx).map (fun (x, i) => xorBytes x (aesEnc key (gcmInc j (i + 1))))).flatten

def gcmTag (key iv aad ct : Bytes) : Bytes :=
  let h := of128 (aesEnc key (List.replicate 16 0))
  let g := ghash h (pad16 aad ++ pad16 ct ++ natBE 8 (8 * aad.length) ++ natBE 8 (8 * ct.length))
  xorBytes (bytes128 g) (aesEnc key (gcmJ0 key iv))

def gcmCrypt (key iv b : Bytes) : Bytes := gcmCtr key (gcmJ0 key iv) b

def cmacDbl (b : BitVec 128) : BitVec 128 := (b <<< 1) ^^^ (if b.getLsbD 127 then 0x87#128 else 0#128)

def cmac (key m : Bytes) : Bytes :=
  let k1 := cmacDbl (of128 (aesEnc key (List.replicate 16 0)))
  let bs := if m = [] then [[]] else blocksOf 16 m
  let last := bs.getLastD []
  let fin := if last.length = 16 then of128 last ^^^ k1
    else of128 (fit 16 (last ++ [0x80#8])) ^^^ cmacDbl k1
  let c := bs.dropLast.foldl (fun c x => aesEnc key (xorBytes c x)) (List.replicate 16 0)
  aesEnc key (xorBytes c (bytes128 fin))

/-! ## SHA-2, HMAC, HKDF -/

def k256 : List (BitVec 32) :=
  [0x428a2f98#32, 0x71374491#32, 0xb5c0fbcf#32, 0xe9b5dba5#32, 0x3956c25b#32, 0x59f111f1#32, 0x923f82a4#32, 0xab1c5ed5#32] ++
  [0xd807aa98#32, 0x12835b01#32, 0x243185be#32, 0x550c7dc3#32, 0x72be5d74#32, 0x80deb1fe#32, 0x9bdc06a7#32, 0xc19bf174#32] ++
  [0xe49b69c1#32, 0xefbe4786#32, 0x0fc19dc6#32, 0x240ca1cc#32, 0x2de92c6f#32, 0x4a7484aa#32, 0x5cb0a9dc#32, 0x76f988da#32] ++
  [0x983e5152#32, 0xa831c66d#32, 0xb00327c8#32, 0xbf597fc7#32, 0xc6e00bf3#32, 0xd5a79147#32, 0x06ca6351#32, 0x14292967#32] ++
  [0x27b70a85#32, 0x2e1b2138#32, 0x4d2c6dfc#32, 0x53380d13#32, 0x650a7354#32, 0x766a0abb#32, 0x81c2c92e#32, 0x92722c85#32] ++
  [0xa2bfe8a1#32, 0xa81a664b#32, 0xc24b8b70#32, 0xc76c51a3#32, 0xd192e819#32, 0xd6990624#32, 0xf40e3585#32, 0x106aa070#32] ++
  [0x19a4c116#32, 0x1e376c08#32, 0x2748774c#32, 0x34b0bcb5#32, 0x391c0cb3#32, 0x4ed8aa4a#32, 0x5b9cca4f#32, 0x682e6ff3#32] ++
  [0x748f82ee#32, 0x78a5636f#32, 0x84c87814#32, 0x8cc70208#32, 0x90befffa#32, 0xa4506ceb#32, 0xbef9a3f7#32, 0xc67178f2#32]

def h256 : List (BitVec 32) :=
  [0x6a09e667#32, 0xbb67ae85#32, 0x3c6ef372#32, 0xa54ff53a#32, 0x510e527f#32, 0x9b05688c#32, 0x1f83d9ab#32, 0x5be0cd19#32]

def k512 : List (BitVec 64) :=
  [0x428a2f98d728ae22#64, 0x7137449123ef65cd#64, 0xb5c0fbcfec4d3b2f#64, 0xe9b5dba58189dbbc#64] ++
  [0x3956c25bf348b538#64, 0x59f111f1b605d019#64, 0x923f82a4af194f9b#64, 0xab1c5ed5da6d8118#64] ++
  [0xd807aa98a3030242#64, 0x12835b0145706fbe#64, 0x243185be4ee4b28c#64, 0x550c7dc3d5ffb4e2#64] ++
  [0x72be5d74f27b896f#64, 0x80deb1fe3b1696b1#64, 0x9bdc06a725c71235#64, 0xc19bf174cf692694#64] ++
  [0xe49b69c19ef14ad2#64, 0xefbe4786384f25e3#64, 0x0fc19dc68b8cd5b5#64, 0x240ca1cc77ac9c65#64] ++
  [0x2de92c6f592b0275#64, 0x4a7484aa6ea6e483#64, 0x5cb0a9dcbd41fbd4#64, 0x76f988da831153b5#64] ++
  [0x983e5152ee66dfab#64, 0xa831c66d2db43210#64, 0xb00327c898fb213f#64, 0xbf597fc7beef0ee4#64] ++
  [0xc6e00bf33da88fc2#64, 0xd5a79147930aa725#64, 0x06ca6351e003826f#64, 0x142929670a0e6e70#64] ++
  [0x27b70a8546d22ffc#64, 0x2e1b21385c26c926#64, 0x4d2c6dfc5ac42aed#64, 0x53380d139d95b3df#64] ++
  [0x650a73548baf63de#64, 0x766a0abb3c77b2a8#64, 0x81c2c92e47edaee6#64, 0x92722c851482353b#64] ++
  [0xa2bfe8a14cf10364#64, 0xa81a664bbc423001#64, 0xc24b8b70d0f89791#64, 0xc76c51a30654be30#64] ++
  [0xd192e819d6ef5218#64, 0xd69906245565a910#64, 0xf40e35855771202a#64, 0x106aa07032bbd1b8#64] ++
  [0x19a4c116b8d2d0c8#64, 0x1e376c085141ab53#64, 0x2748774cdf8eeb99#64, 0x34b0bcb5e19b48a8#64] ++
  [0x391c0cb3c5c95a63#64, 0x4ed8aa4ae3418acb#64, 0x5b9cca4f7763e373#64, 0x682e6ff3d6b2b8a3#64] ++
  [0x748f82ee5defb2fc#64, 0x78a5636f43172f60#64, 0x84c87814a1f0ab72#64, 0x8cc702081a6439ec#64] ++
  [0x90befffa23631e28#64, 0xa4506cebde82bde9#64, 0xbef9a3f7b2c67915#64, 0xc67178f2e372532b#64] ++
  [0xca273eceea26619c#64, 0xd186b8c721c0c207#64, 0xeada7dd6cde0eb1e#64, 0xf57d4f7fee6ed178#64] ++
  [0x06f067aa72176fba#64, 0x0a637dc5a2c898a6#64, 0x113f9804bef90dae#64, 0x1b710b35131c471b#64] ++
  [0x28db77f523047d84#64, 0x32caab7b40c72493#64, 0x3c9ebe0a15c9bebc#64, 0x431d67c49c100d4c#64] ++
  [0x4cc5d4becb3e42b6#64, 0x597f299cfc657e2a#64, 0x5fcb6fab3ad6faec#64, 0x6c44198c4a475817#64]

def h512 : List (BitVec 64) :=
  [0x6a09e667f3bcc908#64, 0xbb67ae8584caa73b#64, 0x3c6ef372fe94f82b#64, 0xa54ff53a5f1d36f1#64] ++
  [0x510e527fade682d1#64, 0x9b05688c2b3e6c1f#64, 0x1f83d9abfb41bd6b#64, 0x5be0cd19137e2179#64]

def h384 : List (BitVec 64) :=
  [0xcbbb9d5dc1059ed8#64, 0x629a292a367cd507#64, 0x9159015a3070dd17#64, 0x152fecd8f70e5939#64] ++
  [0x67332667ffc00b31#64, 0x8eb44a8768581511#64, 0xdb0c2e0d64f98fa7#64, 0x47b5481dbefa4fa4#64]

/-- Message schedule: extend w to n words, newest last. -/
def shaSched {w : Nat} (s0 s1 : BitVec w → BitVec w) : Nat → List (BitVec w) → List (BitVec w)
  | 0, l => l
  | n + 1, l =>
    let i := l.length
    shaSched s0 s1 n (l ++ [s1 (l.getD (i - 2) 0) + l.getD (i - 7) 0 + s0 (l.getD (i - 15) 0) + l.getD (i - 16) 0])

def shaRound {w : Nat} (e0 e1 : BitVec w → BitVec w) (h : List (BitVec w)) (kw : BitVec w) : List (BitVec w) :=
  match h with
  | [a, b, c, d, e, f, g, hh] =>
    let t1 := hh + e1 e + ((e &&& f) ^^^ (~~~e &&& g)) + kw
    let t2 := e0 a + ((a &&& b) ^^^ (a &&& c) ^^^ (b &&& c))
    [t1 + t2, a, b, c, d + t1, e, f, g]
  | _ => h

/-- One SHA-256 compression. -/
def sha256Block (h : List (BitVec 32)) (blk : Bytes) : List (BitVec 32) :=
  let w := shaSched (fun x => x.rotateRight 7 ^^^ x.rotateRight 18 ^^^ (x >>> 3))
    (fun x => x.rotateRight 17 ^^^ x.rotateRight 19 ^^^ (x >>> 10)) 48
    ((blocksOf 4 blk).map (fun b => BitVec.ofNat 32 (beNat b)))
  let r := (List.zipWith (· + ·) w k256).foldl (shaRound
    (fun x => x.rotateRight 2 ^^^ x.rotateRight 13 ^^^ x.rotateRight 22)
    (fun x => x.rotateRight 6 ^^^ x.rotateRight 11 ^^^ x.rotateRight 25)) h
  List.zipWith (· + ·) h r

/-- One SHA-512 compression. -/
def sha512Block (h : List (BitVec 64)) (blk : Bytes) : List (BitVec 64) :=
  let w := shaSched (fun x => x.rotateRight 1 ^^^ x.rotateRight 8 ^^^ (x >>> 7))
    (fun x => x.rotateRight 19 ^^^ x.rotateRight 61 ^^^ (x >>> 6)) 64
    ((blocksOf 8 blk).map (fun b => BitVec.ofNat 64 (beNat b)))
  let r := (List.zipWith (· + ·) w k512).foldl (shaRound
    (fun x => x.rotateRight 28 ^^^ x.rotateRight 34 ^^^ x.rotateRight 39)
    (fun x => x.rotateRight 14 ^^^ x.rotateRight 18 ^^^ x.rotateRight 41)) h
  List.zipWith (· + ·) h r

def shaBytes {w : Nat} (h : List (BitVec w)) : Bytes := (h.map (fun x => natBE (w / 8) x.toNat)).flatten

/-- Padding of a message whose blocks have `blk` bytes and whose length field has `lf` bytes, `done` bytes having
gone before. -/
def shaPad (blk lf seen : Nat) (m : Bytes) : Bytes :=
  let n := seen + m.length
  let z := (blk - (n + 1 + lf) % blk) % blk
  m ++ [0x80#8] ++ List.replicate z 0 ++ natBE lf (8 * n)

def sha256 (m : Bytes) : Bytes := shaBytes ((blocksOf 64 (shaPad 64 8 0 m)).foldl sha256Block h256)
def sha512 (m : Bytes) : Bytes := shaBytes ((blocksOf 128 (shaPad 128 16 0 m)).foldl sha512Block h512)
def sha384 (m : Bytes) : Bytes := (shaBytes ((blocksOf 128 (shaPad 128 16 0 m)).foldl sha512Block h384)).take 48

def hmacWith (hash : Bytes → Bytes) (blk : Nat) (key m : Bytes) : Bytes :=
  let k := fit blk (if blk < key.length then hash key else key)
  hash (k.map (· ^^^ 0x5C#8) ++ hash (k.map (· ^^^ 0x36#8) ++ m))

def hmac256 (key m : Bytes) : Bytes := hmacWith sha256 64 key m
def hmac384 (key m : Bytes) : Bytes := hmacWith sha384 128 key m

/-- HKDF with SHA-384 and one block of output, cut to n bytes (n at most 48). -/
def hkdf384 (salt ikm info : Bytes) (n : Nat) : Bytes :=
  let prk := hmac384 (if salt = [] then List.replicate 48 0 else salt) ikm
  (hmac384 prk (info ++ [0x01#8])).take n

/-! ## SipHash-2-4 -/

structure Sip where
  v0 : BitVec 64
  v1 : BitVec 64
  v2 : BitVec 64
  v3 : BitVec 64
  deriving DecidableEq, Repr

def sipRound (s : Sip) : Sip :=
  let v0 := s.v0 + s.v1
  let v1 := s.v1.rotateLeft 13 ^^^ v0
  let v0 := v0.rotateLeft 32
  let v2 := s.v2 + s.v3
  let v3 := s.v3.rotateLeft 16 ^^^ v2
  let v0 := v0 + v3
  let v3 := v3.rotateLeft 21 ^^^ v0
  let v2 := v2 + v1
  let v1 := v1.rotateLeft 17 ^^^ v2
  { v0 := v0, v1 := v1, v2 := v2.rotateLeft 32, v3 := v3 }

def sipRounds (n : Nat) (s : Sip) : Sip := (List.range n).foldl (fun s _ => sipRound s) s

def sipWord (s : Sip) (m : BitVec 64) : Sip :=
  let s := sipRounds 2 { s with v3 := s.v3 ^^^ m }
  { s with v0 := s.v0 ^^^ m }

def sipOut (s : Sip) : BitVec 64 := s.v0 ^^^ s.v1 ^^^ s.v2 ^^^ s.v3

/-- All words of a message absorbed under a 128-bit key, low half first. -/
def sipAbsorb (wide : Bool) (key : BitVec 128) (m : Bytes) : Sip :=
  let k0 := key.setWidth 64
  let k1 := (key >>> 64).setWidth 64
  let s : Sip := { v0 := k0 ^^^ 0x736f6d6570736575#64, v1 := k1 ^^^ 0x646f72616e646f6d#64 ^^^ (if wide then 0xEE#64 else 0#64),
                   v2 := k0 ^^^ 0x6c7967656e657261#64, v3 := k1 ^^^ 0x7465646279746573#64 }
  let full := m.length / 8 * 8
  let s := (blocksOf 8 (m.take full)).foldl (fun s b => sipWord s (BitVec.ofNat 64 (leNat b))) s
  sipWord s (BitVec.ofNat 64 (leNat (fit 7 (m.drop full)) + 2 ^ 56 * (m.length % 256)))

/-- SipHash-2-4 with its 64-bit output (R100). -/
def sip64 (key : BitVec 128) (m : Bytes) : BitVec 64 :=
  let s := sipAbsorb false key m
  sipOut (sipRounds 4 { s with v2 := s.v2 ^^^ 0xFF#64 })

/-- SipHash-2-4-128 (R101), the first 64 bits of output in the low half. -/
def sip128 (key : BitVec 128) (m : Bytes) : BitVec 128 :=
  let s := sipAbsorb true key m
  let s := sipRounds 4 { s with v2 := s.v2 ^^^ 0xEE#64 }
  let lo := sipOut s
  let s := sipRounds 4 { s with v1 := s.v1 ^^^ 0xDD#64 }
  (sipOut s).setWidth 128 <<< 64 ||| lo.setWidth 128

/-! ## Key wrap with padding (RFC 5649) -/

def chunk8 (b : Bytes) : List Bytes := blocksOf 8 b

/-- One wrapping step backwards: the register A and the blocks. -/
def unwrapStep (kek : Bytes) (n : Nat) (acc : Bytes × List Bytes) (t : Nat) : Bytes × List Bytes :=
  let i := (t - 1) % n
  let a := xorBytes acc.1 (natBE 8 t)
  let d := aesDec kek (a ++ acc.2.getD i [])
  (d.take 8, acc.2.set i (d.drop 8))

/-- Unwrap; none when the integrity check fails. -/
def kwpUnwrap (kek c : Bytes) : Option Bytes :=
  if c.length < 16 || c.length % 8 ≠ 0 then none
  else
    let n := c.length / 8 - 1
    let r := if n = 1 then
        let d := aesDec kek c
        (d.take 8, [d.drop 8])
      else (List.range (6 * n)).foldl (fun acc j => unwrapStep kek n acc (6 * n - j)) (c.take 8, chunk8 (c.drop 8))
    let len := beNat (r.1.drop 4)
    let p := r.2.flatten
    if r.1.take 4 = [0xA6, 0x59, 0x59, 0xA6] && 8 * (n - 1) < len && len ≤ 8 * n && (p.drop len).all (· == 0)
    then some (p.take len) else none

def wrapStep (kek : Bytes) (n : Nat) (acc : Bytes × List Bytes) (t : Nat) : Bytes × List Bytes :=
  let i := (t - 1) % n
  let d := aesEnc kek (acc.1 ++ acc.2.getD i [])
  (xorBytes (d.take 8) (natBE 8 t), acc.2.set i (d.drop 8))

def kwpWrap (kek p : Bytes) : Bytes :=
  let n := (p.length + 7) / 8
  let aiv := [0xA6, 0x59, 0x59, 0xA6] ++ natBE 4 p.length
  let padded := fit (8 * n) p
  if n = 1 then aesEnc kek (aiv ++ padded)
  else
    let r := (List.range (6 * n)).foldl (fun acc j => wrapStep kek n acc (j + 1)) (aiv, chunk8 padded)
    r.1 ++ r.2.flatten

end Sys2Proof.Machine
end

