-- ==== Sys2Proof/Machine/Noise.lean ====
section
/-! DEFINITION. The noise well: pool, health states, the CTR_DRBG, the engines' mask generator, and keys derived
without entropy (R275 to R283). -/
namespace Sys2Proof.Machine

/-- Events of the noise well (R511). -/
abbrev evBankFailed : Nat := 132
abbrev evEstimate : Nat := 133
abbrev evEntropyLost : Nat := 134

def bankOf (b : Fin 2) (s : State) : NBank := if b = 0 then s.nw.bank0 else s.nw.bank1
def onBank (b : Fin 2) (f : NBank → NBank) (s : State) : State :=
  onNw (fun n => if b = 0 then { n with bank0 := f n.bank0 } else { n with bank1 := f n.bank1 }) s

/-- A fresh block of entropy (R275): a free value. -/
def freshNoise (s : State) : BitVec 256 × State := (Config.noise s.free, { s with free := s.free + 1 })

/-- One 256-bit entry of the pool; a consumer that finds the pool empty waits for the next block (R280), a wait the
model does not show (log 41). -/
def takePool (s : State) : BitVec 256 × State :=
  match s.nw.pool with
  | v :: r => (v, onNw (fun n => { n with pool := r }) s)
  | [] => freshNoise s

/-- A consumer of the pool in its turn (R280): pumps 0 to 3, the cipher engine 4, the modular engine 5, blinding 6, the
DRBG 7. -/
def poolTurn (rank : Nat) (s : State) : State := inTurn turnPool 0 rank s

/-- n entries of the pool, one after another. -/
def takeEntries : Nat → State → Bytes × State
  | 0, s => ([], s)
  | n + 1, s =>
    let (v, s) := takePool s
    let (r, s) := takeEntries n s
    (bytes256 v ++ r, s)

/-! ## The DRBG (R279; SP 800-90A, PRESUMED log 8) -/

/-- n blocks of the generator from V on. -/
def drbgBlocks (key : BitVec 256) (v : BitVec 128) (n : Nat) : Bytes :=
  ((List.range n).map (fun i => aesEnc (bytes256 key) (bytes128 (v + BitVec.ofNat 128 (i + 1))))).flatten

/-- The update of key and V with 48 bytes. -/
def drbgUpdate (data : Bytes) (d : Drbg) : Drbg :=
  let t := xorBytes (drbgBlocks d.key d.v 3) (fit 48 data)
  { d with key := of256 (t.take 32), v := of128 (slice t 32 16) }

/-- Instantiate: 384 bits of conditioned output and the personalisation string (R279). -/
def drbgStart (s : State) : State :=
  let (e, s) := takeEntries 2 s
  let boot := (monoRead 1 s).getD 0
  let seed := xorBytes (fit 48 e) (fit 48 (natLE 8 Config.serial ++ natLE 8 boot))
  onNw (fun n => { n with drbg := some (drbgUpdate seed { key := 0, v := 0, served := 0, reseedAt := s.clk.now }) }) s

/-- Reseed with 384 bits (R279). -/
def drbgReseed (s : State) : State :=
  match s.nw.drbg with
  | none => s
  | some _ =>
    let (e, s) := takeEntries 2 (poolTurn 7 s)
    onNw (fun n => { n with drbg := n.drbg.map (fun d => { drbgUpdate e d with served := 0, reseedAt := s.clk.now }) }) s

/-- One generate request of n bytes (R279), behind the reseed that 2^20 requests or 100 ms have made due; none without a
DRBG (R282). -/
def drbgGenerate (n : Nat) (s : State) : Option Bytes × State :=
  let s := match s.nw.drbg with
    | some d => if 2 ^ 20 ≤ d.served || d.reseedAt + msTicks 100 ≤ s.clk.now then drbgReseed s else s
    | none => s
  match s.nw.drbg with
  | none => (none, s)
  | some d =>
    let k := (n + 15) / 16
    let out := (drbgBlocks d.key d.v k).take n
    let d := drbgUpdate [] { d with v := d.v + BitVec.ofNat 128 k, served := d.served + 1 }
    (some out, onNw (fun x => { x with drbg := some d }) s)

/-! ## Keys drawn by rule (R283) -/

/-- The next value of a monotonic counter (R403): none when it cannot serve, with the counter-lost event. -/
def monoNext (i : Nat) (s : State) : Option Nat × State :=
  match monoRead i s with
  | none => (none, raise 139 [i] s)
  | some v => if 2 ^ 64 ≤ v + 1 then (none, s) else (some (v + 1), monoWrite i (v + 1) s)

/-- A 256-bit key drawn by rule: from the DRBG, or derived without entropy, with a sump record, from the derivation
secret, the boot counter, the purpose label and the derivation sequence (R283, R403). -/
def ruleKey (label : Nat) (s : State) : BitVec 256 × State :=
  match drbgGenerate 32 s with
  | (some b, s) => (of256 b, s)
  | (none, s) =>
    let boot := (monoRead 1 s).getD 0
    let (q, s) := monoNext 2 s
    (of256 (sha256 (bytes256 Config.derivationSecret ++ natLE 8 boot ++ natLE 4 label ++ natLE 8 (q.getD 0))),
      logRecord 0x0102 1 0 [label] s)

/-! ## Rows -/

/-- A conditioning block completes (R275): into the pool while it has room; a bank that is testing or failed gives
none. Of two blocks of one clock bank 0's goes first (R280). -/
def execConditioningBlock (bank : Fin 2) (s : State) : Res :=
  if !running s then done s else
  let s := inTurn turnPool 1 bank.val s
  if (bankOf bank s).st ≠ .inService then done s
  else
    let (v, s) := freshNoise s
    done (if s.nw.pool.length < 16 then onNw (fun n => { n with pool := n.pool ++ [v] }) s else s)

/-- The second bank failed: the DRBG state is zeroised and the event raised (R282). -/
def entropyLost (s : State) : State :=
  raise evEntropyLost [] (onNw (fun n => { n with drbg := none, lost := true }) s)

/-- A bank becomes FAILED (R277, R282). -/
def bankFails (b : Fin 2) (s : State) : State :=
  let s := raise evBankFailed [b.val] (onBank b (fun x => { x with st := .failed }) s)
  if s.nw.bank0.st == .failed && s.nw.bank1.st == .failed then entropyLost s else s

/-- A health test fails on an oscillator (R276, R277). The two tests differ in their cause only. -/
def execHealthTestFailure (dt : Nat) (osc : Fin 8) (_adaptive : Bool) (s : State) : Res :=
  let s := advance dt s
  if !running s then done s else
  let b : Fin 2 := if osc.val < 4 then 0 else 1
  match (bankOf b s).st with
  | .failed => done s
  | .testing => done (bankFails b (onBank b (fun x => { x with fails := x.fails + 1 }) s))
  | .inService =>
    let now := s.clk.now
    let recent := (bankOf b s).recent.filter (fun t => now < t + secTicks 1) ++ [now]
    let s := onBank b (fun x => { x with fails := x.fails + 1, recent := recent, st := .testing }) s
    done (if 3 ≤ recent.length then bankFails b s else s)

/-- A start-up test passes (R277). -/
def execStartupTestComplete (bank : Fin 2) (s : State) : Res :=
  if !running s then done s else
  done (if (bankOf bank s).st == .testing then onBank bank (fun x => { x with st := .inService }) s else s)

/-- New estimates of an oscillator (R278), in Q1.15: limits 0.125 and 0.25. -/
def execNoiseEstimate (osc : Fin 8) (bias : Int) (lags : List Int) (s : State) : Res :=
  if !running s then done s else
  let l := (lags ++ [0, 0, 0, 0]).take 4
  let s := onNw (fun n => { n with ests := smSet {} n.ests osc.val { bias := bias, lags := l } }) s
  done (if 4096 < bias.natAbs || l.any (fun x => 8192 < x.natAbs) then raise evEstimate [osc.val] s else s)

/-- The DRBG reseeds 100 ms after its last reseed (R279). -/
def execDrbgReseed (dt : Nat) (s : State) : Res :=
  let s := advance dt s
  if !running s then done s else
  match s.nw.drbg with
  | some d => done (if d.reseedAt + msTicks 100 ≤ s.clk.now then drbgReseed s else s)
  | none => done s

/-- The engines' mask generators are reseeded every 1 ms, the cipher engine's first (R262, R280); without entropy they go
on by themselves (R282). -/
def execEngineMaskReseed (dt : Nat) (s : State) : Res :=
  let s := advance dt s
  if !running s then done s else
  if s.eng.vcReseedAt + msTicks 1 ≤ s.clk.now && !s.nw.lost then
    let (v, s) := takePool (poolTurn 4 s)
    let (w, s) := takePool (poolTurn 5 s)
    done (onEng (fun e => { e with vcGen := v, meGen := w, vcReseedAt := s.clk.now }) s)
  else done s

end Sys2Proof.Machine
end

