-- ==== Sys2Proof/Machine/Streams.lean ====
section
/-! DEFINITION. The stream table and its cache, counter lines, key slots and epochs, and transactions (chapter 03). -/
namespace Sys2Proof.Machine

/-! ## Entries -/

def entryOfTable (i : Nat) (s : State) : Entry := smGet {} s.se.table i

def cacheLine (i : Nat) (s : State) : Option CLineC :=
  (smGet [] s.se.cache (i % 4096)).find? (fun l => l.idx == i)

/-- The entry as the engine sees it: the cached copy where the line is resident (R113). -/
def curEntry (i : Nat) (s : State) : Entry :=
  match cacheLine i s with
  | some l => l.entry
  | none => entryOfTable i s

def onCacheSet (n : Nat) (f : List CLineC → List CLineC) (s : State) : State :=
  onSe (fun e => { e with cache := smMod [] e.cache n f }) s

def setTable (i : Nat) (e : Entry) (s : State) : State :=
  onSe (fun x => { x with table := smSet {} x.table i e }) s

/-- A data-path change: in the resident line, written back on eviction (R113). -/
def dataEntry (i : Nat) (f : Entry → Entry) (s : State) : State :=
  match cacheLine i s with
  | some _ => onCacheSet (i % 4096) (fun ls => ls.map (fun l =>
      if l.idx = i then { l with entry := f l.entry, dirty := true } else l)) s
  | none => setTable i (f (entryOfTable i s)) s

/-- A control change: written through to the cistern (R113). -/
def ctlEntry (i : Nat) (f : Entry → Entry) (s : State) : State :=
  let e := f (curEntry i s)
  setTable i e (onCacheSet (i % 4096) (fun ls => ls.map (fun l =>
    if l.idx = i then { l with entry := e, dirty := false } else l)) s)

/-- A line becomes the most recently used of its set. -/
def touchLine (i : Nat) (s : State) : State :=
  onCacheSet (i % 4096) (fun ls => ls.filter (fun l => l.idx == i) ++ ls.filter (fun l => l.idx ≠ i)) s

/-- Install an entry read from the cistern: a free way, else the least recently used line of the set, written back
first when it is dirty (R112, R113). -/
def installLine (i : Nat) (e : Entry) (s : State) : State :=
  let ls := smGet [] s.se.cache (i % 4096)
  let free := ((List.range 16).filter (fun w => !s.se.wdWays.contains w && !ls.any (fun l => l.way == w))).head?
  match free with
  | some w => onCacheSet (i % 4096) (fun ls => { way := w, idx := i, entry := e, dirty := false } :: ls) s
  | none =>
    match ls.getLast? with
    | none => s
    | some old =>
      let s := if old.dirty then setTable old.idx old.entry s else s
      onCacheSet (i % 4096) (fun ls => { way := old.way, idx := i, entry := e, dirty := false } :: ls.dropLast) s

/-! ## Match keys and positions (R100 to R103) -/

def keyBytes (k : MatchKey) : Bytes :=
  fit 16 k.daddr ++ natLE 8 k.idHash.toNat ++ natLE 2 k.appid
    ++ natLE 2 (k.vid + 4096 * k.fclass + if k.publish then 32768 else 0)

def entryKey (e : Entry) : MatchKey :=
  { daddr := e.daddr, idHash := e.idHash, appid := e.appid, vid := e.vid, fclass := e.fclass, publish := e.publish }

/-- Replace a position equal to an earlier one by the next, repeatedly (R101). -/
def distinctPos (seen : List Nat) : Nat → Nat → Nat
  | 0, c => c
  | n + 1, c => if seen.contains c then distinctPos seen n ((c + 1) % 16777215) else c

/-- The four candidate positions (R101). -/
def candidates (k : MatchKey) (s : State) : List Nat :=
  let h := (sip128 s.se.posKey (keyBytes k)).toNat
  (List.range 4).foldl (fun l r => l ++ [distinctPos l 4 (bitsN h (32 * r + 31) (32 * r) % 16777215)]) []

/-- The KHASH of a counter line: the first 64 bits of the hash of R101 over the match key, under keys that outlive a
start-up, its IDHASH included, so that a restart finds the line again as R124 says (log 20). -/
def lineHash (k : MatchKey) (ident : Bytes) : BitVec 64 :=
  (sip128 Config.lineKey (keyBytes { k with idHash := sip64 Config.lineKey ident })).setWidth 64

def regionOf (i : Nat) : Nat := i / 8192
def mappedOut (i : Nat) (s : State) : Bool := s.se.mapped.contains (regionOf i)

/-- The entry holds the match key and direction. -/
def entryMatches (k : MatchKey) (e : Entry) : Bool := e.used && !e.quar && entryKey e == { k with daddr := fit 16 k.daddr }

/-- Lookup by match key from entries at hand (R103), as a command does it. -/
def findIn (k : MatchKey) (s : State) : List Nat → Option Nat
  | [] => none
  | i :: r =>
    if mappedOut i s then findIn k s r
    else
      let e := curEntry i s
      if e.quar then findIn k s r
      else if entryMatches k e then some i
      else if e.chain = 0 then none
      else findIn k s r

def findStream (k : MatchKey) (s : State) : Option Nat := findIn k s (candidates k s)

/-- Add to, or take from, the CHAIN of the candidates below a rank; 255 stays (R102). -/
def chainAdd (k : MatchKey) (rank : Nat) (up : Bool) (s : State) : State :=
  ((candidates k s).take rank).foldl (fun s i =>
    let c := (curEntry i s).chain
    if c = 255 then s
    else dataEntry i (fun e => { e with chain := if up then min 255 (e.chain + 1) else e.chain - 1 }) s) s

/-- A freed position keeps its CHAIN only; with CHAIN 0 it is blank (R117). -/
def freeEntry (e : Entry) : Entry := { ({} : Entry) with chain := e.chain, quar := e.quar }

/-! ## Banks and images (R109 to R111) -/

def txnOf (k : Nat) (s : State) : Txn := smGet {} s.se.txns k
def onTxn (k : Nat) (f : Txn → Txn) (s : State) : State :=
  onSe (fun e => { e with txns := smMod {} e.txns k f }) s

def bankPend (b : BankSt) : Bool := b == .pending || b == .pendingDel

/-- The control image of a frame at instant t (R111). -/
def image (e : Entry) (t : Nat) (s : State) : Option Bank :=
  let won (st : BankSt) (tx : Nat) : Bool :=
    bankPend st && (txnOf tx s).st == .committed && (txnOf tx s).instant ≤ t
  if won e.sta e.txa then (if e.sta == .pendingDel then none else some e.bankA)
  else if won e.stb e.txb then (if e.stb == .pendingDel then none else some e.bankB)
  else if e.sta == .active then some e.bankA
  else if e.stb == .active then some e.bankB
  else none

def bankNat (b : Bank) : Nat :=
  b.kpair + 2 ^ 14 * b.prof + 2 ^ 16 * b.kepoch + 2 ^ 32 * b.rxq + 2 ^ 38 * b.pfv + 2 ^ 48 * b.tbnd + 2 ^ 64 * b.salt

def bankStNo (b : BankSt) : Nat :=
  match b with
  | .idle => 0
  | .active => 1
  | .pending => 2
  | .pendingDel => 3

/-- Entry bytes 0 to 111 (R108). -/
def entryBytes (e : Entry) : Bytes :=
  fit 16 e.daddr ++ natLE 8 e.idHash.toNat ++ natLE 2 e.appid
    ++ natLE 2 (e.vid + 4096 * e.fclass + 32768 * b2n e.publish)
    ++ natLE 2 (bankStNo e.sta + 4 * bankStNo e.stb + 16 * e.txa + 128 * e.txb + 1024 * b2n e.used + 2048 * b2n e.quar
        + 4096 * b2n e.primed + 8192 * b2n e.req + 16384 * e.rank)
    ++ natLE 2 e.wrapLine
    ++ (if e.publish then natLE 8 e.resend ++ List.replicate 24 0 else natLE 32 e.win.toNat)
    ++ natLE 8 e.seq ++ natLE 4 e.good ++ natLE 2 e.bad ++ natLE 1 e.tflag ++ natLE 1 e.chain
    ++ natLE 12 (bankNat e.bankA) ++ natLE 12 (bankNat e.bankB) ++ natLE 8 e.version

/-! ## Cistern protection (R116, R117; log 106) -/

/-- ETAG, bytes 112 to 127 (R117): zero on a blank entry, else AES-CMAC over bytes 0 to 111 and the index. -/
def etag (b : Bytes) (i : Nat) (s : State) : Bytes :=
  if b.all (· == 0) then List.replicate 16 0 else cmac (bytes128 s.se.entryKey) (b ++ natLE 3 i)

/-- The 128 bytes of an entry as the stream engine writes them (R108). -/
def storedBytes (i : Nat) (e : Entry) (s : State) : Bytes := entryBytes e ++ etag (entryBytes e) i s

/-- Doubling of an XTS tweak, whose first byte is the least significant. -/
def xtsDouble (t : Bytes) : Bytes :=
  let v := leNat t * 2
  natLE 16 (if v < 2 ^ 128 then v else (v - 2 ^ 128) ^^^ 0x87)

/-- The tweaks of the four units of a 64-byte block at a cistern offset (R116). -/
def xtsTweaks (off : Nat) (s : State) : List Bytes :=
  let t := aesEnc (bytes128 s.se.tweakKey) (natLE 16 off)
  [t, xtsDouble t, xtsDouble (xtsDouble t), xtsDouble (xtsDouble (xtsDouble t))]

/-- AES-128-XTS over one block (R116), with the block cipher in either direction. -/
def xtsBlock (f : Bytes → Bytes → Bytes) (off : Nat) (b : Bytes) (s : State) : Bytes :=
  ((xtsTweaks off s).zip (blocksOf 16 b)).map (fun (t, x) => xorBytes t (f (bytes128 s.se.dataKey) (xorBytes t x))) |>.flatten

/-- The 64-bit tag of a block (R116): the polynomial hash of offset and ciphertext, encrypted under the tag key. -/
def blockTag (off : Nat) (ct : Bytes) (s : State) : Bytes :=
  (aesEnc (bytes128 s.se.tagKey) (bytes128 (ghash s.se.hashKey (natLE 16 off ++ ct)))).take 8

/-- A block as the controller reads it back: its plaintext, when the tag stored with it verifies (R116). -/
def readBlock (off : Nat) (ct tag : Bytes) (s : State) : Option Bytes :=
  if blockTag off ct s = tag then some (xtsBlock aesDec off ct s) else none

/-- Whether a stored entry reads back intact when `flips` and `tagFlips` are the bits of its ciphertext and of its two
block tags that no longer hold what was written: both block tags verify, and then the ETAG (R116 to R118). What was
written verifies: the tags are those the reader forms. -/
def readsBack (i : Nat) (flips : BitVec 1024) (tagFlips : BitVec 128) (s : State) : Bool :=
  if flips = 0 ∧ tagFlips = 0 then true
  else
    let b := storedBytes i (entryOfTable i s) s
    let half (h : Nat) : Option Bytes :=
      let off := 128 * i + 64 * h
      let ct := xtsBlock aesEnc off (slice b (64 * h) 64) s
      readBlock off (xorBytes ct (slice (natBE 128 flips.toNat) (64 * h) 64))
        (xorBytes (blockTag off ct s) (slice (natBE 16 tagFlips.toNat) (8 * h) 8)) s
    match half 0, half 1 with
    | some x, some y => slice (x ++ y) 112 16 == etag ((x ++ y).take 112) i s
    | _, _ => false

/-! ## Requests at the cistern controller (R26; log 105) -/

/-- Request classes below refresh, in the order of R26. -/
abbrev reqMiss : Nat := 1
abbrev reqDraw : Nat := 2
abbrev reqWriteBack : Nat := 3
abbrev reqSpill : Nat := 4
abbrev reqLog : Nat := 5

/-- A request of a class waits from now on, unless one waits already. -/
def cisternAsk (c : Nat) (s : State) : State :=
  onSe (fun e => { e with cwait := if (smFind e.cwait c).isSome then e.cwait else smPut e.cwait c s.clk.now }) s

/-- The place of a class in the order of service: a class that has waited 2 µs goes before every class that has not;
refresh, class 0, before all. -/
def cisternRank (c : Nat) (s : State) : Nat :=
  if c = 0 then 0
  else
    match smFind s.se.cwait c with
    | some t => if t + usTicks 2 ≤ s.clk.now then c else 8 + c
    | none => 8 + c

/-- A request of a class is served in its turn, with n entries over the dual-clock queues of the cistern (R26, R29). -/
def cisternServe (c n : Nat) (s : State) : State :=
  let s := inTurn turnCistern 0 (cisternRank c s) s
  cdcPass cdcFromCistern n (cdcPass cdcToCistern 1 (onSe (fun e => { e with cwait := smDel e.cwait c }) s))

/-! ## Key slots and epochs (R129 to R133) -/

def kslot (i : Nat) (s : State) : KSlot := smGet {} s.se.kslots i
def onKslot (i : Nat) (f : KSlot → KSlot) (s : State) : State :=
  onSe (fun e => { e with kslots := smMod {} e.kslots i f }) s

/-- E(t) (R130). -/
def epochAt (t : Nat) (s : State) : Nat := if s.se.epochAt ≤ t then s.se.epoch else s.se.epochPrev

/-- 16-bit serial order: epoch a is at or after epoch b (R130). -/
def epochGe (a b : Nat) : Bool := (a + 65536 - b % 65536) % 65536 < 32768

/-- A selection sees the slot LOADED: also in the clock in which it changes to DRAINING (R133). -/
def slotSelectable (i : Nat) (s : State) : Bool :=
  (kslot i s).state == 1 || ((kslot i s).state == 2 && (kslot i s).drainAt == some s.clk.now)

/-- Slot selection of a subscriber (R131). -/
def selectSub (b : Bank) (keyid e : Nat) (s : State) : Option Nat :=
  [2 * b.kpair, 2 * b.kpair + 1].find? (fun i =>
    let k := kslot i s
    slotSelectable i s && k.keyId == keyid && epochGe k.epoch b.kepoch && k.epoch ≤ e + 1)

/-- Slot selection of a publisher (R131). -/
def selectPub (b : Bank) (e : Nat) (s : State) : Option Nat :=
  [2 * b.kpair, 2 * b.kpair + 1].foldl (fun best i =>
    let k := kslot i s
    if slotSelectable i s && k.epoch ≤ e && epochGe k.epoch b.kepoch &&
      (match best with | none => true | some j => (kslot j s).epoch < k.epoch) then some i else best) none

/-- A DRAINING slot whose REF is 0 sends the vault core its notice, once (R133). -/
def drainNotice (i : Nat) (s : State) : State :=
  let k := kslot i s
  if k.state = 2 && k.ref = 0 && !s.pu.drained.contains i then
    sendRiser true .key .keyReleases (natLE 2 i) (onPu (fun p => { p with drained := p.drained ++ [i] }) s)
  else s

/-- Put a slot into DRAINING (R133). -/
def drainSlot (i : Nat) (s : State) : State :=
  if (kslot i s).state = 1 then
    drainNotice i (onKslot i (fun k => { k with state := 2, drainAt := some s.clk.now }) s)
  else s

/-- A selection takes its reference (R132). One taken in the clock of the change to DRAINING holds the drain back (R133). -/
def refUp (i : Nat) (s : State) : State :=
  onPu (fun p => { p with drained := p.drained.filter (· ≠ i) }) (onKslot i (fun k => { k with ref := k.ref + 1 }) s)
def refDown (i : Nat) (s : State) : State :=
  drainNotice i (onKslot i (fun k => { k with ref := k.ref - 1 }) s)

/-! ## Counter lines (R123 to R128) -/

def ctrLine (i : Nat) (s : State) : CtrLine := smGet {} s.nv.lines i
def onLine (i : Nat) (f : CtrLine → CtrLine) (s : State) : State :=
  onNv (fun n => { n with lines := smMod {} n.lines i f }) s

/-- The number of key store loads up to and with the last load of a slot; 0 for a slot never loaded. -/
def slotLoads (i : Nat) (s : State) : Nat := smGet 0 s.nv.slotLoads i

/-- Both slots of a pair have been loaded since the given number of loads. -/
def reloadedSince (pair n : Nat) (s : State) : Bool :=
  n < slotLoads (2 * pair) s && n < slotLoads (2 * pair + 1) s

/-- Both slots of the line's pair have been loaded since the line's last draw (R124, R128). -/
def lineReloaded (l : CtrLine) (s : State) : Bool := reloadedSince l.pair l.drawn s

/-- The salts a new salt of a pair must differ from (R124, R128). -/
def usedSalts (pair : Nat) (s : State) : List Nat :=
  (s.nv.lines.filter (fun e => e.2.state ≠ 0 && e.2.pair == pair)).map (fun e => e.2.salt) ++
  (s.nv.oldSalts.filter (fun e => e.1 == pair && !reloadedSince pair e.2.2 s)).map (fun e => e.2.1)

/-- The first value from x on that is not to be avoided. -/
def avoiding (avoid : List Nat) (m : Nat) : Nat → Nat → Nat
  | 0, x => x
  | n + 1, x => if avoid.contains (x % m) then avoiding avoid m n (x + 1) else x % m

/-- A salt from the DRBG (R124, R280): the drawn value, or the next one that differs from the salts in use (DESIGN CHOICE,
log 127). -/
def drawSalt (pair : Nat) (s : State) : Nat × State :=
  let (v, s) := drbgGenerate 4 s
  let bad := usedSalts pair s
  (avoiding bad (2 ^ 32) (bad.length + 1) (beNat (v.getD [])), s)

def blockSize : Nat := 2 ^ 20

/-- The vault core reserves a block of a line, asked and answered over the KEY channel (R23, R124, R125): the line's
RESEND after the write. -/
def reserve (i : Nat) (s : State) : Nat × State :=
  let s := sendRiser true .key .counterBlocks (natLE 2 i) s
  let v := min (2 ^ 64 - 1) ((ctrLine i s).resend + blockSize)
  (v, sendRiser false .key .counterBlocks (natLE 2 i ++ natLE 8 v) (onLine i (fun l => { l with resend := v }) s))

/-- The line is bound to another entry that stands: a stored or waiting publish entry that counts on it. An entry lost
to a restart or to quarantine holds no line (R99, R118, R124). -/
def boundElsewhere (i : Nat) (s : State) : Bool :=
  let l := ctrLine i s
  l.state = 1 && l.entry.any (fun n =>
    let e := curEntry n s
    (e.used && !e.quar && e.publish && e.wrapLine == i) ||
      s.se.txns.any (fun t => t.2.staged.any (fun c => match c with
        | .addMoved j x => j == n && x.publish && x.wrapLine == i
        | _ => false)))

/-- A new salt for line i (R124), or ENTROPY_FAIL without entropy (R282). -/
def saltLine (i : Nat) (l : CtrLine) (s : State) : Except Nat (Nat × State) :=
  if s.nw.lost then .error stEntropyFail
  else
    let (salt, s) := drawSalt l.pair s
    .ok (i, onLine i (fun _ => { l with salt := salt, state := 1 }) s)

/-- Which line a publish addition takes (R124): its number and the changed line, or a refusal. -/
def chooseLine (k : MatchKey) (ident : Bytes) (pair : Nat) (named : Option Nat) (s : State) : Except Nat (Nat × State) :=
  let h := lineHash k ident
  let fresh (i : Nat) : Except Nat (Nat × State) := saltLine i { khash := h, resend := 1, pair := pair } s
  match s.nv.lines.find? (fun e => e.2.state ≠ 0 && e.2.khash == h) with
  | some (i, l) =>
    if named.any (fun n => n ≠ i) then .error stBadParam
    else if boundElsewhere i s then .error stBadParam
    else if l.pair = pair then .ok (i, onLine i (fun l => { l with state := 1 }) s)
    else if lineReloaded l s then saltLine i { l with pair := pair } s
    else .error stDenied
  | none =>
    match named with
    | some n =>
      let l := ctrLine n s
      if 32768 ≤ n then .error stBadParam
      else if l.state = 0 then fresh n
      else if boundElsewhere n s then .error stBadParam
      else if lineReloaded l s then fresh n
      else .error stDenied
    | none =>
      match (List.range 32768).find? (fun i => (ctrLine i s).state == 0) with
      | some i => fresh i
      | none => .error stNoSpace

/-- A deletion releases the line, or frees it with the option, in which case its salt is kept back (R128). -/
def releaseLine (i : Nat) (free : Bool) (s : State) : State :=
  let l := ctrLine i s
  if free then
    onNv (fun n => { n with oldSalts := n.oldSalts ++ [(l.pair, l.salt, n.loads)] }) (onLine i (fun _ => {}) s)
  else onLine i (fun l => { l with state := 2, entry := none }) s

/-! ## Requests to the vault core that may have to wait (R22, R23) -/

/-- The vault core does what the KEY channel asks of it: counter 4 (R130), the release of a line (R128), or a fresh block
for a publish entry that was read again, which goes on from the line's reserved end (R115). -/
def keyRequest (q : KeyReq) (s : State) : State :=
  match q with
  | .epoch e => monoWrite 4 e (sendRiser true .key .epochNotices (natLE 4 e) s)
  | .release l free => releaseLine l free (sendRiser true .key .counterBlocks (natLE 2 l) s)
  | .reload i =>
    let e := curEntry i s
    if e.used && !e.quar && e.publish then
      let old := (ctrLine e.wrapLine s).resend
      let (v, s) := reserve e.wrapLine s
      dataEntry i (fun e => { e with seq := old, resend := v, req := false }) s
    else s

/-- The vault core answers: it runs, and the riser carries payload (R22, R35). -/
def vaultReached (s : State) : Bool := riserUp s && !vaultDown s

/-- Ask the vault core now, or as soon as it can be reached; requests keep their order. -/
def askVault (q : KeyReq) (s : State) : State :=
  if vaultReached s && s.ev.waitKey = [] then keyRequest q s
  else onEv (fun e => { e with waitKey := e.waitKey ++ [q] }) s

/-- What waited for the vault core is asked once it can be reached. -/
def askWaiting (s : State) : State :=
  if vaultReached s then s.ev.waitKey.foldl (fun s q => keyRequest q s) (onEv (fun e => { e with waitKey := [] }) s) else s

/-- The next transmit counter of an entry (R125): the value, or none for WRAP_REFUSED. A request for a further block
goes on the KEY channel. The line remembers the loads made before the draw (R124, R128). -/
def drawCounter (i : Nat) (s : State) : Option Nat × State :=
  let e := curEntry i s
  if e.resend ≤ e.seq then (none, s)
  else
    let ask := e.resend - (e.seq + 1) ≤ 2 ^ 19 && !e.req && e.resend ≠ 2 ^ 64 - 1
    let s := dataEntry i (fun e => { e with seq := e.seq + 1, req := e.req || ask }) s
    let s := onLine e.wrapLine (fun l => { l with drawn := s.nv.loads }) s
    let s := if ask then onSe (fun x => { x with blockReqs := x.blockReqs ++ [e.wrapLine] }) s else s
    (some e.seq, s)

/-! ## Staging (R134 to R137) -/

def changeIdx (c : Change) : List Nat :=
  match c with
  | .control i => [i]
  | .delete i _ => [i]
  | .add i => [i]
  | .move a b => [a, b]
  | .addMoved i _ => [i]
  | .epoch => []

def txnNos : List Nat := [0, 1, 2, 3, 4, 5, 6, 7]

/-- Another transaction that is not FREE holds a change at the index (R137). -/
def otherTouches (k i : Nat) (s : State) : Bool :=
  txnNos.any (fun j => j ≠ k && (txnOf j s).st ≠ .free && (txnOf j s).staged.any (fun c => (changeIdx c).contains i))

/-- The entry holds a PENDING or PENDING_DEL bank of another transaction that is not FREE (R137). -/
def pendOther (k : Nat) (e : Entry) (s : State) : Bool :=
  (bankPend e.sta && e.txa ≠ k && (txnOf e.txa s).st ≠ .free) || (bankPend e.stb && e.txb ≠ k && (txnOf e.txb s).st ≠ .free)

/-- The entry holds an ACTIVE bank (R110). -/
def activeBank (e : Entry) : Bool := e.sta == .active || e.stb == .active

/-- Positions that a staged move or a waiting addition will take. -/
def targeted (i : Nat) (s : State) : Bool :=
  txnNos.any (fun j => (txnOf j s).st ≠ .free && (txnOf j s).staged.any (fun c =>
    match c with
    | .move _ b => b == i
    | .addMoved a _ => a == i
    | _ => false))

/-- Free for placement (R105, R118). -/
def freePos (i : Nat) (s : State) : Bool :=
  let e := curEntry i s
  !mappedOut i s && (!e.used || e.quar) && !targeted i s

/-- A stream that may be moved away by an addition of transaction k: stored, and touched by no staged change but a
control change of the same transaction, which a move takes along (R105, R136). -/
def movable (k i : Nat) (s : State) : Bool :=
  let e := curEntry i s
  e.used && !e.quar && !mappedOut i s && !pendOther k e s && !otherTouches k i s && activeBank e &&
    e.sta ≠ .pendingDel && e.stb ≠ .pendingDel &&
    !(txnOf k s).staged.any (fun c => (changeIdx c).contains i && c ≠ .control i)

/-- Breadth-first search for a path of moves (R105): each path lists positions from the addition's candidate on; the
answer's last position is free. -/
def movePath (k : Nat) (s : State) : Nat → List (List Nat) → Option (List Nat)
  | 0, _ => none
  | n + 1, paths =>
    let next := (paths.map (fun p =>
      match p.getLast? with
      | none => []
      | some i => if movable k i s then
          ((candidates (entryKey (curEntry i s)) s).filter (fun j => !p.contains j)).map (fun j => p ++ [j]) else [])).flatten
    match next.find? (fun p => match p.getLast? with | some j => freePos j s | none => false) with
    | some p => some p
    | none => movePath k s n next

/-- Put a change in place of the first one it replaces, drop the others, or append it. -/
def placeChange (c : Change) (drop : Change → Bool) : List Change → List Change
  | [] => [c]
  | x :: r => if drop x then c :: r.filter (fun y => !drop y) else x :: placeChange c drop r

/-- Stage one change in the place of what R136 says it replaces, or at the end; none when 65,536 would be exceeded. -/
def stage (k : Nat) (c : Change) (drop : Change → Bool) (s : State) : Option State :=
  let l := placeChange c drop (txnOf k s).staged
  if 65536 < l.length then none else some (onTxn k (fun t => { t with staged := l }) (cdcPass cdcStaging 1 s))

/-- Write the staged bank: the non-ACTIVE bank (R136). -/
def putBank (k : Nat) (st : BankSt) (b : Bank) (e : Entry) : Entry :=
  if e.sta == .active then { e with stb := st, txb := k, bankB := b }
  else { e with sta := st, txa := k, bankA := b }

/-- Whether the pending bank of a transaction stands in the entry. -/
def pendingOf (k : Nat) (e : Entry) : Bool := (bankPend e.sta && e.txa == k) || (bankPend e.stb && e.txb == k)

/-- The bank that is ACTIVE, or the pending one of an uncommitted addition. -/
def baseBank (e : Entry) : Bank :=
  if e.sta == .active then e.bankA
  else if e.stb == .active then e.bankB
  else if bankPend e.sta then e.bankA
  else e.bankB

/-- The lowest-numbered FREE transaction slot. -/
def freeTxn (s : State) : Option Nat := txnNos.find? (fun k => (txnOf k s).st == .free)

/-- Commit a transaction with its effective instant (R130, R138). The vault core increments counter 4 as soon as it can
(R130). -/
def commitTxn (k instant : Nat) (s : State) : State :=
  let hasEpoch := (txnOf k s).staged.contains .epoch
  let s := onTxn k (fun t => { t with st := .committed, instant := instant, wallAt := s.clk.now }) s
  if hasEpoch then
    let e := s.se.epoch + 1
    let s := onSe (fun x => { x with epochPrev := x.epoch, epoch := e, epochAt := instant }) s
    askVault (.epoch e) s
  else s

/-- Every ARMED transaction whose instant has come commits (R138); rows that look at images, and time itself, let it come
about before they act. -/
def commitDue (s : State) : State :=
  txnNos.foldl (fun s k =>
    let t := txnOf k s
    if t.st == .armed && t.instant ≤ ptp16 s then commitTxn k t.instant s else s) s

/-- The transaction a stream command stages into (R135, R137): its slot, and whether it is the command's own. -/
def resolveTxn (c : Call) (s : State) : Except Refuse (Nat × Bool × State) :=
  match argN c tyTxn with
  | some k =>
    let t := txnOf k s
    if t.failed || t.st == .aborting then .error (stTxnAborted, 0, 0, 0)
    else match t.st with
      | .free => .error (stBadParam, tlvOffset c.pkt tyTxn 0, rsRange, tyTxn)
      | .open_ => .ok (k, false, s)
      | _ => .error (stTxnConflict, 0, 0, 0)
  | none =>
    match freeTxn s with
    | none => .error (stBusy, 0, 0, 0)
    | some k => .ok (k, true, onTxn k (fun _ => { st := .open_ }) s)

/-- A command that named an aborted transaction has been told so (R141). -/
def clearFailed (c : Call) (s : State) : State :=
  match argN c tyTxn with
  | some k => onTxn k (fun t => { t with failed := false }) s
  | none => s

/-- Run a stream command's staging: an error leaves the state it started from; success commits the command's own
transaction at once (R135). -/
def staged (c : Call) (f : Nat → State → Except Refuse (List Tlv × State)) (s : State) : State :=
  match resolveTxn c s with
  | .error r => reply c r.1 (refuseTlvs r) (clearFailed c s)
  | .ok (k, own, s1) =>
    match f k s1 with
    | .error r => reply c r.1 (refuseTlvs r) s
    | .ok (tlvs, s2) => replyOk c tlvs (if own then commitTxn k (ptp16 s2) s2 else s2)

def refOf (c : Call) (st reason ty : Nat) : Refuse := (st, tlvOffset c.pkt ty 0, reason, ty)

/-- TBND must fit the class (R196). -/
def tbndOk (tbnd fclass : Nat) : Bool :=
  match tbnd / 16384 with
  | 0 => true
  | 1 => fclass == 1 || fclass == 3
  | 2 => fclass == 2 || fclass == 4
  | _ => false

def assocHeld (pair : Nat) (s : State) : Bool := (smGet {} s.nv.assocs pair).held

/-- What R109, R156 and R196 refuse in a control bank. -/
def bankRefuse (c : Call) (b : Bank) (fclass tyProf tyPfv tyTbnd : Nat) (s : State) : Option Refuse :=
  if !tbndOk b.tbnd fclass then some (refOf c stBadParam rsRange tyTbnd)
  else if b.prof = 3 && b.pfv = 0 then some (refOf c stBadParam rsRange (if hasArg c tyProf then tyProf else tyPfv))
  else if (b.prof = 3 || b.pfv = 1) && !assocHeld b.kpair s then some (stDenied, 0, 0, 0)
  else none

/-! ## Stream commands -/

/-- The match key named by DIR, FCLASS, DADDR, ID, APPID, VID at six consecutive types from `t` on. -/
def argKey (c : Call) (tDir tFc tDa tId tAp tVid : Nat) (s : State) : MatchKey :=
  { daddr := fit 16 ((argOf c tDa).getD []), idHash := sip64 s.se.idKey ((argOf c tId).getD []), appid := argD c tAp 0,
    vid := argD c tVid 0, fclass := argD c tFc 0, publish := argD c tDir 0 = 1 }

/-- Place an entry at its position now (R136, R118). -/
def writeAdd (i : Nat) (e : Entry) (s : State) : State :=
  let old := curEntry i s
  let e := { e with chain := if old.quar then 255 else old.chain, quar := false }
  chainAdd (entryKey e) e.rank true (ctlEntry i (fun _ => e) s)

/-- An addition of the same match key waits for its moves in a transaction (R533): its slot. -/
def waitingAdd (key : MatchKey) (s : State) : Option Nat :=
  txnNos.find? (fun k => (txnOf k s).st ≠ .free && (txnOf k s).staged.any (fun c => match c with
    | .addMoved _ e => entryKey e == key
    | _ => false))

/-- What a stored stream, or a waiting addition, of the same match key answers (R137): TXN_CONFLICT while another
transaction holds a change of it, or this one its deletion; else BAD_PARAM on ID (DESIGN CHOICE, log 107). -/
def sameKeyRefuse (c : Call) (k : Nat) (key : MatchKey) (s : State) : Option Refuse :=
  match findStream key s with
  | some i =>
    if pendOther k (curEntry i s) s || otherTouches k i s ||
        (txnOf k s).staged.any (fun x => match x with | .delete j _ => j == i | _ => false)
    then some (stTxnConflict, 0, 0, 0) else some (refOf c stBadParam rsRange 4)
  | none =>
    match waitingAdd key s with
    | some j => if j = k then some (refOf c stBadParam rsRange 4) else some (stTxnConflict, 0, 0, 0)
    | none => none

/-- STREAM_ADD (R105, R124, R135 to R137). -/
def streamAdd (c : Call) (k : Nat) (s : State) : Except Refuse (List Tlv × State) :=
  let key := argKey c 1 2 3 4 5 6 s
  let b : Bank := {
    kpair := argD c 9 0, prof := argD c 8 0, kepoch := argD c 10 0,
    rxq := if key.publish then 0 else argD c 11 0, pfv := argD c 12 0, tbnd := argD c 13 0 }
  let wrap := argD c 7 0
  if key.fclass = 0 then .error (refOf c stBadParam rsRange 2)
  else if !key.publish && 0 < wrap && wrap < 256 then .error (refOf c stBadParam rsRange 7)
  else if !key.publish && c.pkt.expert && hasArg c 14 then .error (refOf c stBadParam rsRange 14)
  else match bankRefuse c b key.fclass 8 12 13 s with
  | some r => .error r
  | none =>
    match sameKeyRefuse c k key s with
    | some r => .error r
    | none =>
      let cs := candidates key s
      let place : Option (List Nat) :=
        match cs.find? (fun i => freePos i s) with
        | some i => some [i]
        | none => if !c.pkt.expert || 0 < argD c 15 0 then movePath k s 4 (cs.map (fun i => [i])) else none
      match place with
      | none => .error (stNoSpace, 0, 0, 0)
      | some path =>
        let i := path.headD 0
        let moves := (path.zip (path.drop 1)).reverse
        if (txnOf k s).staged.any (fun x => match x with | .delete j _ => j == i | _ => false) then
          .error (stTxnConflict, 0, 0, 0)
        else if 65536 < (txnOf k s).staged.length + moves.length + 1 then .error (stNoSpace, 0, 0, 0)
        else if key.publish && !vaultReached s then .error (stHwFault, 0, 0, 0)
        else
          let rank := (cs.idxOf? i).getD 0
          let lined : Except Nat (Nat × State) :=
            if key.publish then chooseLine key ((argOf c 4).getD []) b.kpair (if c.pkt.expert then argN c 14 else none) s else .ok (wrap, s)
          match lined with
          | .error st => .error (if st = stEntropyFail then (st, 0, 0, 0) else refOf c st rsRange 14)
          | .ok (wl, s) =>
            let old := (ctrLine wl s).resend
            let (resend, s) := if key.publish then reserve wl s else (0, s)
            let s := if key.publish then onLine wl (fun l => { l with entry := some i }) s else s
            let b := if key.publish then { b with salt := (ctrLine wl s).salt } else b
            let e : Entry := {
              daddr := key.daddr, idHash := key.idHash, appid := key.appid, vid := key.vid, fclass := key.fclass,
              publish := key.publish, used := true, rank := rank, wrapLine := wl,
              resend := if key.publish then resend else 0, seq := if key.publish then old else 0,
              sta := .pending, txa := k, bankA := b }
            let tl := r32 1 i :: moves.map (fun m => rtlv 2 (natLE 4 m.1 ++ natLE 4 m.2))
            if moves = [] then
              .ok (tl, writeAdd i e (onTxn k (fun t => { t with staged := t.staged ++ [.add i] }) (cdcPass cdcStaging 1 s)))
            else
              .ok (tl, cdcPass cdcStaging (moves.length + 1) <| onTxn k (fun t => { t with staged := t.staged ++ moves.map (fun m => .move m.1 m.2) ++ [.addMoved i e] }) s)

/-- Conditions common to changes of a stored stream (R137). -/
def changeRefuse (c : Call) (k i : Nat) (s : State) : Option Refuse :=
  let e := curEntry i s
  if !e.used || e.quar || mappedOut i s then some (refOf c stBadParam rsRange 1)
  else if pendOther k e s || otherTouches k i s then some (stTxnConflict, 0, 0, 0)
  else match (if c.pkt.expert then argN c tyVersion else none) with
    | some v => if v ≠ e.version then some (stTxnConflict, 0, 0, 0) else none
    | none => none

def isAddOf (i : Nat) (x : Change) : Bool :=
  match x with
  | .add j => j == i
  | .addMoved j _ => j == i
  | _ => false

/-- STREAM_DEL (R128, R136). -/
def streamDel (c : Call) (k : Nat) (s : State) : Except Refuse (List Tlv × State) :=
  let i := argD c 1 0
  let free := c.pkt.expert && argD c 2 0 = 1
  let e := curEntry i s
  match changeRefuse c k i s with
  | some r => .error r
  | none =>
    if (txnOf k s).staged.any (isAddOf i) then .error (stTxnConflict, 0, 0, 0)
    else if free && e.publish && !lineReloaded (ctrLine e.wrapLine s) s then .error (stDenied, 0, 0, 0)
    else
      match stage k (.delete i free) (fun x => match x with
          | .control j => j == i
          | .delete j _ => j == i
          | .move a _ => a == i
          | _ => false) s with
      | none => .error (stNoSpace, 0, 0, 0)
      | some s => .ok ([], ctlEntry i (putBank k .pendingDel (baseBank e)) s)

def isDelOf (i : Nat) (x : Change) : Bool :=
  match x with
  | .delete j _ => j == i
  | _ => false

/-- STREAM_MOD (R110, R136). An index at which an addition waits names the stream that is still there (R533). A publish
entry that takes another pair gets a salt of its own under it, which its line takes at settling (log 108). -/
def streamMod (c : Call) (k : Nat) (s : State) : Except Refuse (List Tlv × State) :=
  let i := argD c 1 0
  let e := curEntry i s
  match changeRefuse c k i s with
  | some r => .error r
  | none =>
    let o := baseBank e
    let b : Bank := { o with
      prof := argD c 2 o.prof, kpair := argD c 3 o.kpair, kepoch := argD c 4 o.kepoch,
      rxq := if e.publish then o.rxq else argD c 5 o.rxq, pfv := argD c 6 o.pfv, tbnd := argD c 7 o.tbnd }
    match bankRefuse c b e.fclass 2 6 7 s with
    | some r => .error r
    | none =>
      if e.publish && b.kpair ≠ o.kpair && !vaultReached s then .error (stHwFault, 0, 0, 0)
      else if e.publish && b.kpair ≠ o.kpair && s.nw.lost then .error (stEntropyFail, 0, 0, 0)
      else
        let (b, s) := if e.publish && b.kpair ≠ o.kpair then
            let (salt, s) := drawSalt b.kpair s
            ({ b with salt := salt }, s)
          else (b, s)
        if (txnOf k s).staged.contains (.add i) then
          .ok ([], ctlEntry i (fun e => if bankPend e.sta then { e with bankA := b } else { e with bankB := b }) s)
        else
          match stage k (.control i) (fun x => x == .control i || isDelOf i x) s with
          | none => .error (stNoSpace, 0, 0, 0)
          | some s => .ok ([], ctlEntry i (putBank k .pending b) s)

/-- STREAM_MOVE (R135, R136). Without a free candidate it answers NO_SPACE; a stream that is not ACTIVE, or that the
transaction deletes, answers TXN_CONFLICT (DESIGN CHOICE, log 107). -/
def streamMove (c : Call) (k : Nat) (s : State) : Except Refuse (List Tlv × State) :=
  let i := argD c 1 0
  let e := curEntry i s
  match changeRefuse c k i s with
  | some r => .error r
  | none =>
    let cs := candidates (entryKey e) s
    let dst : Except Refuse Nat :=
      match (if c.pkt.expert then argN c 2 else none) with
      | some r =>
        if 3 < r then .error (refOf c stBadParam rsRange 2)
        else if freePos (cs.getD r 0) s then .ok (cs.getD r 0) else .error (stNoSpace, 0, 0, 0)
      | none =>
        match cs.find? (fun j => j ≠ i && freePos j s) with
        | some j => .ok j
        | none => .error (stNoSpace, 0, 0, 0)
    match dst with
    | .error r => .error r
    | .ok j =>
      if !activeBank e || (txnOf k s).staged.any (isDelOf i) then .error (stTxnConflict, 0, 0, 0)
      else
        match stage k (.move i j) (fun x => match x with
            | .move a _ => a == i
            | _ => false) s with
        | none => .error (stNoSpace, 0, 0, 0)
        | some s => .ok ([r32 1 j], s)

def streamAddBody (c : Call) (s : State) : State := staged c (streamAdd c) s
def streamDelBody (c : Call) (s : State) : State := staged c (streamDel c) s
def streamModBody (c : Call) (s : State) : State := staged c (streamMod c) s
def streamMoveBody (c : Call) (s : State) : State := staged c (streamMove c) s

/-- STREAM_GET (R135): by index, or in the expert form by match key; a key that has no stream is BAD_PARAM on ID (DESIGN
CHOICE, log 107). -/
def streamGetBody (c : Call) (s : State) : State :=
  match argN c 1 with
  | some i => replyOk c [r32 1 i, rtlv 2 (entryBytes (curEntry i s))] s
  | none =>
    if !c.pkt.expert || !hasArg c 2 || !hasArg c 3 || !hasArg c 4 || !hasArg c 5 || !hasArg c 6 || !hasArg c 7 then
      reply c stBadParam (refuseTlvs (stBadParam, 0, rsMissing, 1)) s
    else
      match findStream (argKey c 2 3 4 5 6 7 s) s with
      | some i => replyOk c [r32 1 i, rtlv 2 (entryBytes (curEntry i s))] s
      | none => badParam c 5 s

/-! ## Transaction commands -/

def txnStNo (t : TxnSt) : Nat :=
  match t with
  | .free => 0
  | .open_ => 1
  | .armed => 2
  | .committed => 3
  | .aborting => 4

/-- TXN_OPEN (R135). -/
def txnOpenBody (c : Call) (s : State) : State :=
  match (if c.pkt.expert then argN c 1 else none) with
  | some k =>
    if (txnOf k s).st == .free then replyOk c [r8 tyTxn k] (onTxn k (fun _ => { st := .open_ }) s)
    else refuse c stTxnConflict s
  | none =>
    match freeTxn s with
    | some k => replyOk c [r8 tyTxn k] (onTxn k (fun _ => { st := .open_ }) s)
    | none => refuse c stBusy s

/-- A transaction command's slot in the states it may be in, else the refusal of R137. -/
def withTxn (c : Call) (ok : TxnSt → Bool) (f : Nat → State → State) (s : State) : State :=
  let k := argD c tyTxn 0
  let t := txnOf k s
  if t.failed || t.st == .aborting then refuse c stTxnAborted (clearFailed c s)
  else if t.st == .free then badParam c tyTxn s
  else if ok t.st then f k s
  else refuse c stTxnConflict s

/-- Ten microseconds and 86,400 s in units of 2^-16 ns. -/
def t10us : Nat := 10000 * 65536
def tDay : Nat := 86400 * 1000000000 * 65536

/-- TXN_COMMIT (R138). -/
def txnCommitBody (c : Call) (s : State) : State :=
  withTxn c (fun t => t == .open_) (fun k s =>
    let t := ptp16 s
    match (argOf c 1).map bytesTime with
    | none => replyOk c [rtime 1 t] (commitTxn k t s)
    | some i =>
      if badTime c 1 then badParam c 1 s
      else if i < t + t10us then replyOk c [rtime 1 t] (commitTxn k t s)
      else if t + tDay < i then badParam c 1 s
      else replyOk c [rtime 1 i] (onTxn k (fun x => { x with st := .armed, instant := i }) s)) s

/-- TXN_ABORT (R139): of an ARMED transaction only before its instant. -/
def txnAbortBody (c : Call) (s : State) : State :=
  withTxn c (fun t => t == .open_ || t == .armed) (fun k s =>
    if (txnOf k s).st == .armed && (txnOf k s).instant ≤ ptp16 s then refuse c stTxnConflict s
    else replyOk c [] (onTxn k (fun x => { x with st := .aborting, settled := 0 }) s)) s

/-- TXN_STATUS (R135, R138): any slot; the expert form adds staged indices from OFFSET on. -/
def txnStatusBody (c : Call) (s : State) : State :=
  let k := argD c tyTxn 0
  let t := txnOf k s
  if t.failed then refuse c stTxnAborted (clearFailed c s)
  else if t.st == .free then badParam c tyTxn s
  else if t.st == .aborting then refuse c stTxnAborted s
  else
    let idx := (t.staged.map changeIdx).flatten
    replyOk c ([r8 1 (txnStNo t.st), r32 2 t.staged.length, rtime 3 t.instant, r32 4 t.settled] ++
      (if c.pkt.expert then [rtlv 5 ((idx.drop (argD c tyOffset 0)).take 4000 |>.map (natLE 4) |>.flatten)] else [])) s

/-- EPOCH_ADVANCE (R130, R136, R137, R141). -/
def epochAdvanceBody (c : Call) (s : State) : State :=
  withTxn c (fun t => t == .open_) (fun k s =>
    if !s.se.epochOk then refuse c stHwFault s
    else if s.se.epoch = 0xFFFFFFFF then refuse c stWrapRefused s
    else if txnNos.any (fun j => j ≠ k && (txnOf j s).st ≠ .free && (txnOf j s).staged.contains .epoch) then
      refuse c stTxnConflict s
    else
      match stage k .epoch (fun x => x == .epoch) s with
      | none => refuse c stNoSpace s
      | some s => replyOk c [r32 1 (s.se.epoch + 1)] s) s

/-! ## Settling and cleanup (R102, R106, R141, R533) -/

/-- Rewrite every operand and every frame in flight that names a moved index (R106). -/
def renameIndex (a b : Nat) (s : State) : State :=
  let s := onCo (fun x => { x with groups := x.groups.map (fun (n, g) =>
    (n, { g with ops := g.ops.map (fun o => if o.live && o.idx = a then { o with idx := b } else o) })) }) s
  onFp (fun f => { f with
    ing := f.ing.map (fun x => if x.entry = some a then { x with entry := some b } else x)
    egr := f.egr.map (fun x => if x.entry = some a then { x with entry := some b } else x) }) s

/-- Carry out a move (R106). -/
def moveEntry (a b : Nat) (s : State) : State :=
  let e := curEntry a s
  let key := entryKey e
  let rank := ((candidates key s).idxOf? b).getD 0
  let s := chainAdd key e.rank false s
  let old := curEntry b s
  let s := ctlEntry b (fun _ => { e with rank := rank, chain := if old.quar then 255 else old.chain, quar := false }) s
  let s := ctlEntry a freeEntry s
  let s := chainAdd key rank true s
  let s := if e.publish then onLine e.wrapLine (fun l => { l with entry := some b }) s else s
  renameIndex a b s

/-- A PENDING bank becomes ACTIVE, the old ACTIVE bank IDLE (R141). -/
def activateBank (k : Nat) (e : Entry) : Entry :=
  if e.sta == .pending && e.txa == k then
    { e with sta := .active, stb := if e.stb == .active then .idle else e.stb, version := e.version + 1 }
  else if e.stb == .pending && e.txb == k then
    { e with stb := .active, sta := if e.sta == .active then .idle else e.sta, version := e.version + 1 }
  else e

/-- An operand whose stream is deleted stays in its group and is missing at every instant (R201). -/
def forgetStream (i : Nat) (s : State) : State :=
  onCo (fun x => { x with groups := x.groups.map (fun (n, g) =>
    (n, { g with ops := g.ops.map (fun o => if o.idx = i then { o with live := false } else o) })) }) s

/-- Free a stream's entry with its counter line and chain counts. -/
def removeStream (i : Nat) (free : Bool) (s : State) : State :=
  let s := forgetStream i s
  let e := curEntry i s
  let s := chainAdd (entryKey e) e.rank false s
  let s := if e.publish then askVault (.release e.wrapLine free) s else s
  ctlEntry i freeEntry s

/-- The line of a publish entry takes the pair and the salt of the control bank that has become ACTIVE (log 108). -/
def lineFollows (i : Nat) (s : State) : State :=
  let e := curEntry i s
  let b := baseBank e
  if e.publish && (ctrLine e.wrapLine s).pair ≠ b.kpair then
    onLine e.wrapLine (fun l => { l with pair := b.kpair, salt := b.salt }) s
  else s

/-- One staged change settles (R141). -/
def settleChange (k : Nat) (ch : Change) (s : State) : State :=
  match ch with
  | .control i => lineFollows i (ctlEntry i (activateBank k) s)
  | .add i => ctlEntry i (activateBank k) s
  | .delete i free => removeStream i free s
  | .move a b =>
    let s := ctlEntry b (fun e => { e with version := e.version + 1 }) (moveEntry a b s)
    onTxn k (fun t => { t with staged := t.staged.map (fun x =>
      match x with
      | .control i => if i = a then .control b else x
      | _ => x) }) s
  | .addMoved i e => writeAdd i (activateBank k e) s
  | .epoch => s

/-- One staged change of an aborted transaction is undone (R141). -/
def cleanupChange (k : Nat) (ch : Change) (s : State) : State :=
  let idleBanks (e : Entry) : Entry :=
    { e with sta := if bankPend e.sta && e.txa == k then .idle else e.sta,
             stb := if bankPend e.stb && e.txb == k then .idle else e.stb }
  match ch with
  | .control i => ctlEntry i idleBanks s
  | .delete i _ => ctlEntry i idleBanks s
  | .add i => removeStream i false s
  | .addMoved _ e => if e.publish then askVault (.release e.wrapLine false) s else s
  | .move _ _ => s
  | .epoch => s

/-- Changes of a committed transaction that are left to settle; an epoch advance leaves none (R141). -/
def toSettle (t : Txn) : Bool := (t.staged.drop t.settled).any (fun c => c ≠ .epoch)

/-- Advance the settling or the cleanup by one change; at its end the slot is FREE. -/
def stepTxn (k : Nat) (f : Nat → Change → State → State) (s : State) : State :=
  let t := txnOf k s
  let s := match t.staged[t.settled]? with
    | some ch => onTxn k (fun t => { t with settled := t.settled + 1 }) (f k ch s)
    | none => s
  let t := txnOf k s
  if t.staged.length ≤ t.settled then onTxn k (fun t => { ({} : Txn) with failed := t.failed }) s else s

/-- A step of the time clears the instants of COMMITTED transactions and of the last epoch change (R140). -/
def clearInstants (s : State) : State :=
  onSe (fun e => { e with
    txns := e.txns.map (fun (n, t) => (n, if t.st == .committed then { t with instant := 0 } else t))
    epochAt := 0 }) s

/-! ## Integrity (R118) and cache errors (R115) -/

/-- A failed read quarantines the cached copy, is reported, and maps a region out at its fourth failure. That aborts the
OPEN transactions that hold a change of an entry in the region; an ARMED one is left by its instant or by TXN_ABORT and
a COMMITTED one by the end of settling only (R134, R141). -/
def integrityFail (i : Nat) (s : State) : State :=
  let s := dataEntry i (fun e => { e with quar := true }) s
  let s := raise 68 [i] s
  let r := regionOf i
  let n := smGet 0 s.se.regionFails r + 1
  let s := onSe (fun e => { e with regionFails := smSet 0 e.regionFails r n }) s
  if n = 4 then
    let s := onSe (fun e => { e with mapped := e.mapped ++ [r] }) s
    txnNos.foldl (fun s k =>
      let t := txnOf k s
      if t.st == .open_ && t.staged.any (fun ch => (changeIdx ch).any (fun j => regionOf j == r)) then
        onTxn k (fun t => { t with st := .aborting, settled := 0, failed := true }) s
      else s) s
  else s

/-- A dirty line lost to an uncorrectable error is re-read; a publish entry draws nothing until the vault core has given
it the line's reserved end and a new block (R115). -/
def reloadLost (i : Nat) (s : State) : State :=
  let e := entryOfTable i s
  let s := raise 67 [i] s
  if e.used && e.publish then askVault (.reload i) (setTable i { e with seq := e.resend, req := true } s) else s

/-- Withdraw a way: its lines go, the dirty ones written back except the one that holds the error (R115). -/
def withdrawWay (w : Nat) (bad : Option Nat) (s : State) : State :=
  let lines := (s.se.cache.map (fun e => e.2.filter (fun l => l.way == w))).flatten
  let s := lines.foldl (fun s l => if l.dirty && bad ≠ some l.idx then setTable l.idx l.entry s else s) s
  let s := onSe (fun e => { e with
    wdWays := e.wdWays ++ [w],
    cache := (e.cache.map (fun (n, ls) => (n, ls.filter (fun l => l.way ≠ w)))).filter (fun (_, ls) => ls ≠ []) }) s
  match lines.find? (fun l => bad = some l.idx && l.dirty) with
  | some l => reloadLost l.idx s
  | none => s

end Sys2Proof.Machine
end

