-- ==== Sys2Proof/Machine/Cons.lean ====
section
/-! DEFINITION. The consistency unit: alignment, evaluation, answers and its commands (R200 to R211). -/
namespace Sys2Proof.Machine

def groupOf (i : Nat) (s : State) : Group := smGet {} s.co.groups i
def onGroup (i : Nat) (f : Group → Group) (s : State) : State :=
  onCo (fun x => { x with groups := smMod {} x.groups i f }) s

/-- Extension of a wire value with modulus m to the candidate nearest to h (R119); m 0 is no modulus. -/
def extend (h w m : Nat) : Nat :=
  if m = 0 then w
  else
    let c := h - h % m + w
    if c + m / 2 ≤ h then c + m
    else if h + m / 2 < c && m ≤ c then c - m
    else c

/-! ## Answers -/

/-- Post the answer of an instant to the frames in flight that contributed to it (R206). -/
def postAnswer (g n : Nat) (a : Ans) (s : State) : State :=
  onFp (fun f => { f with ing := f.ing.map (fun x => { x with
    contribs := x.contribs.map (fun c => if c.group = g && c.n = n then { c with ans := a } else c) }) }) s

/-- Count an answer (R209); the first INCOMPLETE after a CONSISTENT raises its event (R203). -/
def tally (g : Nat) (a : Ans) (s : State) : State :=
  let inc (x : Nat) : Nat := (x + 1) % 2 ^ 32
  match a with
  | .open_ => s
  | .consistent => onGroup g (fun x => { x with nCons := inc x.nCons, incArmed := true }) s
  | .inconsistent => onGroup g (fun x => { x with nIncons := inc x.nIncons }) s
  | .incomplete =>
    let armed := (groupOf g s).incArmed
    let s := onGroup g (fun x => { x with nInc := inc x.nInc, incArmed := false }) s
    if armed then raise 77 [g] s else s

/-- A slot retired INCOMPLETE uses no evaluator (R203). -/
def retire (g n : Nat) (s : State) : State :=
  postAnswer g n .incomplete (tally g .incomplete (onGroup g (fun x => { x with slots := x.slots.filter (fun c => c.n ≠ n) }) s))

def fullMask (g : Group) : Nat := 2 ^ g.ops.length - 1

/-! ## Alignment (R203) -/

/-- A newer instant slides the window: slots that lack an operand are retired, evaluated ones forgotten, queued ones
stay until their evaluation. -/
def slide (g n : Nat) (s : State) : State :=
  let old := (groupOf g s).slots.filter (fun c => c.n + (groupOf g s).d ≤ n)
  let s := (old.filter (fun c => !c.evaluated && !c.queued)).foldl (fun s c => retire g c.n s) s
  onGroup g (fun x => { x with
    top := n, slots := x.slots.filter (fun c => !(c.evaluated && c.n + x.d ≤ n)) }) s

def stale (g : Nat) (s : State) : State := onGroup g (fun x => { x with nStale := (x.nStale + 1) % 2 ^ 32 }) s

/-- The order in which the evaluators take requests (R205): oldest first; of one clock the lower port's frame first, and
within a frame the lower group number. -/
def reqBefore (a b : EvalReq) : Bool :=
  a.at_ < b.at_ || (a.at_ = b.at_ && (a.port < b.port || (a.port = b.port && a.group ≤ b.group)))

/-- One sample of operand k: extended smpCnt, slide, slot, and the evaluation request of a complete instant. -/
def commitSample (g k cnt : Nat) (x : Int) (usable : Bool) (ticket port ts : Nat) (s : State) : State :=
  let p := groupOf g s
  let n := if p.primed then extend p.top cnt p.w else cnt
  let s := if p.primed then s else onGroup g (fun p => { p with top := n, primed := true }) s
  let s := if (groupOf g s).top < n then slide g n s else s
  let p := groupOf g s
  if n + p.d ≤ p.top then stale g s
  else
    let c : CSlot := (p.slots.find? (fun c => c.n == n)).getD { n := n }
    if c.evaluated || c.have_.testBit k then stale g s
    else
      let have_ := c.have_ ||| 2 ^ k
      let full := decide (have_ = fullMask p)
      let c := { c with
        xs := smPut c.xs k x
        have_ := have_
        bad := if usable then c.bad else c.bad ||| 2 ^ k
        queued := full
        from_ := c.from_ ++ [(k, ticket)]
        lastTs := ts }
      let s := onGroup g (fun p => { p with slots := p.slots.filter (fun d => d.n ≠ n) ++ [c] }) s
      let s := onFp (fun f => { f with ing := f.ing.map (fun y =>
        if y.ticket = ticket then { y with contribs := y.contribs ++ [Contrib.mk g n .open_] } else y) }) s
      if full then
        onCo (fun u => { u with
          queue := insertBy reqBefore ⟨s.clk.now, port, g, n⟩ u.queue, hwm := max u.hwm (u.queue.length + 1) }) s
      else s

/-- A sample with its usability (R202): the value 0, unusable, where it does not lie inside seqData. -/
def sampleOf (o : Operand) (accept : Nat) (synch : Nat) (data : Bytes) : Int × Bool :=
  if data.length < o.sOff + 4 || data.length < o.qOff + 4 then (0, false)
  else
    let q := beNat (slice data o.qOff 4)
    (toSigned 4 (beNat (slice data o.sOff 4)),
      q % 4 = 0 && (!bitN q 11 || bitN accept 0) && (synch ≠ 0 || bitN accept 1))

/-- The operand references of a stream, by group and operand number (R200). -/
def refsOf (idx : Nat) (s : State) : List (Nat × Nat) :=
  (s.co.groups.map (fun (g, x) =>
    (x.ops.zipIdx.filter (fun (o, _) => o.live && o.idx == idx)).map (fun (_, k) => (g, k)))).flatten

/-- A frame commits the samples of its first 8 ASDUs; `datas` are their seqData contents (R202, R203). -/
def commitFrame (idx ticket port ts : Nat) (asdus : List Asdu) (datas : List Bytes) (s : State) : State :=
  let refs := refsOf idx s
  if refs = [] then s
  else
    let s := onFp (fun f => { f with ing := f.ing.map (fun y =>
      if y.ticket = ticket then { y with committed := true, over8 := decide (8 < asdus.length) } else y) }) s
    ((asdus.take 8).zipIdx).foldl (fun s (a, i) =>
      refs.foldl (fun s (g, k) =>
        match (groupOf g s).ops[k]? with
        | none => s
        | some o =>
          let (x, ok) := sampleOf o (groupOf g s).accept a.smpSynch (datas.getD i [])
          commitSample g k a.smpCnt x ok ticket port ts s) s) s

/-! ## Evaluation (R204, R205, R207) -/

def sumS (ops : List Operand) (xs : SMap Int) : Int :=
  (ops.zipIdx.map (fun (o, k) => o.gain * smGet 0 xs k)).sum
def sumA (ops : List Operand) (xs : SMap Int) : Int :=
  (ops.zipIdx.map (fun (o, k) => ((o.gain * smGet 0 xs k).natAbs : Int))).sum

/-- The answer of a complete instant (R204). -/
def answerOf (p : Group) (c : CSlot) : Ans :=
  if c.bad ≠ 0 then .incomplete
  else if 2 ^ 16 * ((sumS p.ops c.xs).natAbs : Int) ≤ 2 ^ 32 * (p.thr : Int) + (p.prop : Int) * sumA p.ops c.xs then .consistent
  else .inconsistent

/-- Evaluate one instant: the answer posted and counted, and for INCONSISTENT the event, the record, and PEND on every
operand whose contributing frame's verdict is already written. -/
def evaluate (g n : Nat) (s : State) : State :=
  let p := groupOf g s
  match p.slots.find? (fun c => c.n == n && c.queued) with
  | none => s
  | some c =>
    let a := answerOf p c
    let s := onCo (fun u => { u with evalTimes := (u.evalTimes.filter (fun t => s.clk.now < t + secTicks 1)) ++ [s.clk.now] }) s
    let s := onGroup g (fun p =>
      let l := p.slots.map (fun d => if d.n = n then { d with evaluated := true, queued := false } else d)
      { p with slots := l.filter (fun d => !(d.evaluated && d.n + p.d ≤ p.top)) }) s
    let s := postAnswer g n a (tally g a s)
    if a = .inconsistent then
      let late := (c.from_.filter (fun (_, t) => !s.fp.ing.any (fun x => x.ticket == t))).map (·.1)
      raise 76 [g] (onGroup g (fun p => { p with
        pend := p.pend ++ late.filter (fun k => !p.pend.contains k)
        lastRec := some (n, sumS p.ops c.xs, sumA p.ops c.xs, c.lastTs) }) s)
    else s

/-- The frame's answer (R206), formed as its verdict is written, CONSISTENT for every code but AUTH_OK: PEND of any operand reference of its stream is taken
and cleared by a frame that committed samples (R207). -/
def frameAnswer (x : Ing) (s : State) : Ans × State :=
  match x.entry with
  | none => (.consistent, s)
  | some idx =>
    if !x.committed || x.code ≠ some .authOk || x.memErr then (.consistent, s)
    else
      let refs := refsOf idx s
      let hit := refs.any (fun (g, k) => (groupOf g s).pend.contains k)
      let s := refs.foldl (fun s (g, k) =>
        if (groupOf g s).pend.contains k then onGroup g (fun p => { p with pend := p.pend.filter (· ≠ k) }) s else s) s
      if hit || x.contribs.any (fun c => c.ans == .inconsistent) then (.inconsistent, s)
      else if x.over8 || x.contribs.any (fun c => c.ans == .open_ || c.ans == .incomplete) then (.incomplete, s)
      else (.consistent, s)

/-! ## Commands (R201, R208, R209) -/

def groupNos : SMap Group → List Nat := fun m => m.map (·.1)

/-- Retire every slot of a group and clear its books (R208). -/
def clearGroup (g : Nat) (s : State) : State :=
  let s := (groupOf g s).slots.foldl (fun s c => if c.evaluated then s else retire g c.n s) s
  let s := onCo (fun u => { u with queue := u.queue.filter (fun e => e.group ≠ g) }) s
  onGroup g (fun p => { p with
    slots := [], pend := [], nCons := 0, nIncons := 0, nInc := 0, nStale := 0, incArmed := false, lastRec := none,
    primed := false, top := 0 }) s

def rateSum (s : State) : Nat := (s.co.groups.map (fun e => e.2.rate)).sum

/-- One OPERAND (R242): u32 index, u8 channel, 3 zero bytes, s32 gain. -/
def parseOperand (b : Bytes) : Operand :=
  let ch := leNat (slice b 4 1)
  { idx := leNat (slice b 0 4), chan := ch, gain := toSigned 4 (leNat (slice b 8 4)), sOff := 8 * ch, qOff := 8 * ch + 4 }

def operandBytes (o : Operand) : Bytes :=
  natLE 4 o.idx ++ natLE 1 o.chan ++ [0, 0, 0] ++ natLE 4 (ofSigned 4 o.gain)

/-- An operand must name a subscribe entry of FCLASS 1 or 3, with a gain and a channel in range (R201). -/
def operandBad (b : Bytes) (s : State) : Bool :=
  let o := parseOperand b
  let e := curEntry o.idx s
  0xFFFFFE < o.idx || !e.used || e.quar || mappedOut o.idx s || e.publish || !(e.fclass == 1 || e.fclass == 3) ||
  o.gain == 0 || 63 < o.chan || (slice b 5 3).any (· ≠ 0)

def smpWrapOf (i : Nat) (s : State) : Nat :=
  let w := (curEntry i s).wrapLine
  if w = 0 then 65536 else w

/-- CONS_SET. -/
def consSetBody (c : Call) (s : State) : State :=
  let g := argD c 1 0
  let old := groupOf g s
  let isNew := decide (old.ops = [])
  let given := argsOf c 2
  let x := c.pkt.expert
  let offs := if x then argsOf c 7 else []
  let ops0 := if given = [] then old.ops else given.map parseOperand
  let ops := if x then
      (if offs = [] then ops0
       else ops0.zipIdx.map (fun (o, i) =>
        let b := offs.getD i []
        { o with sOff := leNat (slice b 0 2), qOff := leNat (slice b 2 2) }))
    else ops0.map (fun o => { o with sOff := 8 * o.chan, qOff := 8 * o.chan + 4 })
  let w := if given = [] then old.w else smpWrapOf (ops.headD { idx := 0, chan := 0, gain := 0, sOff := 0, qOff := 0 }).idx s
  let rate := if x then argD c 6 (if isNew then w else old.rate) else w
  let d := if x then argD c 5 (if isNew then 8 else old.d) else 8
  let acc := if x then argD c 8 (if isNew then 0 else old.accept) else 0
  let refs (i : Nat) : Nat :=
    (s.co.groups.map (fun (n, p) => if n = g then 0 else p.ops.countP (fun o => o.live && o.idx == i))).sum
      + ops.countP (fun o => o.live && o.idx == i)
  let missing (ty : Nat) : State := reply c stBadParam (refuseTlvs (stBadParam, 0, rsMissing, ty)) s
  match given.findIdx? (fun b => operandBad b s) with
  | some i => reply c stBadParam (refuseTlvs (stBadParam, tlvOffset c.pkt 2 i, rsRange, 2)) s
  | none =>
    if isNew && given = [] then missing 2
    else if isNew && !hasArg c 3 then missing 3
    else if isNew && !hasArg c 4 then missing 4
    else if given ≠ [] && ops.any (fun o => smpWrapOf o.idx s ≠ w) then badParam c 2 s
    else if x && hasArg c 5 && (d = 0 || 8 < d) then badParam c 5 s
    else if offs ≠ [] && offs.length ≠ ops.length then badParam c 7 s
    else if x && 3 < acc then badParam c 8 s
    else if 14400 < rate || 58982400 < rateSum s - old.rate + rate then refuseTlv c stLimit rsRange 6 s
    else if ops.any (fun o => o.live && 16 < refs o.idx) then refuseTlv c stLimit rsRange 2 s
    else
      replyOk c [] (onGroup g (fun p => { p with
        ops := ops, thr := argD c 3 p.thr, prop := argD c 4 p.prop, w := w, rate := rate, d := d, accept := acc })
        (clearGroup g s))

/-- CONS_DEL. -/
def consDelBody (c : Call) (s : State) : State :=
  let a := argD c 1 0
  let b := if c.pkt.expert then argD c 2 a else a
  if b < a then badParam c 2 s
  else
    let named := (groupNos s.co.groups).filter (fun g => a ≤ g && g ≤ b)
    replyOk c [] (named.foldl (fun s g =>
      let s := clearGroup g s
      onCo (fun u => { u with groups := smDel u.groups g }) s) s)

/-- CONS_GET. The layout of the definition and of the record is the model's (log 31). -/
def consGetBody (c : Call) (s : State) : State :=
  let g := argD c 1 0
  let p := groupOf g s
  if p.ops = [] then badParam c 1 s
  else
    let dfn := natLE 4 p.thr ++ natLE 2 p.prop ++ natLE 1 p.d ++ natLE 1 p.accept ++ natLE 4 p.rate ++ natLE 4 p.w
      ++ (p.ops.map (fun o => operandBytes o ++ natLE 2 o.sOff ++ natLE 2 o.qOff)).flatten
    let rec_ := match p.lastRec with
      | none => []
      | some (n, sg, a, t) => natLE 8 n ++ natLE 16 (ofSigned 16 sg) ++ natLE 16 (ofSigned 16 a) ++ timeBytes t
    let base := [rtlv 1 dfn, r32 2 p.nCons, r32 3 p.nIncons, r32 4 p.nInc, r32 5 p.nStale, rtlv 6 rec_]
    replyOk c (if c.pkt.expert then
      base ++ [rtlv 7 ((p.slots.filter (fun d => !d.evaluated)).map (fun d => natLE 8 d.n)).flatten,
        r8 8 ((p.pend.map (fun k => 2 ^ k)).sum)] else base) s

/-- CONS_STATUS. -/
def consStatusBody (c : Call) (s : State) : State :=
  let ev := (s.co.evalTimes.filter (fun t => s.clk.now < t + secTicks 1)).length
  let base := [r32 1 (rateSum s), r32 2 ev]
  if c.pkt.expert then
    replyOk c (base ++ [r32 3 s.co.hwm]) (onCo (fun u => { u with hwm := u.queue.length }) s)
  else replyOk c base s

end Sys2Proof.Machine
end

