-- ==== Sys2Proof/Machine/Pumps.lean ====
section
/-! DEFINITION. Pumps and their pairing, the pump key store, and frame tags (chapter 04). -/
namespace Sys2Proof.Machine

def pump (p : Nat) (s : State) : Pump := smGet {} s.pu.pumps p
def onPump (p : Nat) (f : Pump → Pump) (s : State) : State :=
  onPu (fun x => { x with pumps := smMod {} x.pumps p f }) s

def pumpNos : List Nat := [0, 1, 2, 3]
def failedPumps (s : State) : List Nat := pumpNos.filter (fun p => (pump p s).failed)

/-- The pairs of a rotation state (R146). -/
def pairing (rot : Nat) : List (List Nat) :=
  match rot with
  | 0 => [[0, 1], [2, 3]]
  | 1 => [[0, 2], [1, 3]]
  | _ => [[0, 3], [1, 2]]

/-- Dual-lane checking as it acts: set by the policy, and possible while two pumps survive (R145, R177). -/
def dualNow (s : State) : Bool := s.pol.dual && (failedPumps s).length < 3

/-- The groups of pumps the dispatcher chooses among (R145, R146, R177). -/
def pumpGroups (s : State) : List (List Nat) :=
  let failed := failedPumps s
  let alive := pumpNos.filter (fun p => !failed.contains p)
  if dualNow s then
    if failed.length = 2 then [alive]
    else (pairing s.pu.rot).filter (fun g => g.all (fun p => !failed.contains p))
  else alive.map (fun p => [p])

/-- Standby after a change of the failed set (R177): with dual-lane checking on and one pump failed, its partner. -/
def setStandby (s : State) : State :=
  let failed := failedPumps s
  let broken := if s.pol.dual && failed.length = 1 then
      ((pairing s.pu.rot).filter (fun g => g.any (fun p => failed.contains p))).flatten else []
  pumpNos.foldl (fun s p => onPump p (fun x => { x with standby := broken.contains p && !x.failed }) s) s

def groupWork (g : List Nat) (s : State) : Nat := (g.map (fun p => (pump p s).work)).foldl max 0

/-- The dispatcher's choice (R147): least outstanding work, lower-numbered on equal work, no full queue. -/
def dispatchTo (s : State) : Option (List Nat) :=
  (pumpGroups s).foldl (fun best g =>
    if g.any (fun p => 32 ≤ (pump p s).jobs) then best
    else match best with
      | none => some g
      | some b => if groupWork g s < groupWork b s then some g else best) none

/-- Clocks of outstanding work that a job adds to a pump (R172): GHASH clocks, or 16 clocks for each compression over the
four units that share them. -/
def jobWork (prof aad ct : Nat) : Nat :=
  if prof = 0 then ((aad + ct + 9 + 63) / 64 + 3) * 16 / 4
  else if prof = 3 then (aad + 15) / 16 + (ct + 15) / 16
  else (aad + ct + 15) / 16

/-- Clocks from the last data byte to the lane compare (R174). -/
def jobTail (prof : Nat) : Nat := if prof = 0 then 55 else 15

def startJob (g : List Nat) (w : Nat) (s : State) : State :=
  g.foldl (fun s p => onPump p (fun x => { x with work := x.work + w, jobs := x.jobs + 1 }) s) s
def endJob (g : List Nat) (w : Nat) (s : State) : State :=
  g.foldl (fun s p => onPump p (fun x => { x with work := x.work - w, jobs := x.jobs - 1 }) s) s

/-- A pump is declared failed (R176). -/
def declareFailed (p : Nat) (s : State) : State :=
  if (pump p s).failed then s
  else setStandby (raise 75 [p] (onPump p (fun x => { x with failed := true }) s))

/-- Pumps common to every mismatching pair of the last three periods, when each holds one (R176). -/
def followed (m : List (List (List Nat))) : List Nat :=
  if m.any (fun l => l = []) then [] else pumpNos.filter (fun p => m.all (fun l => l.all (fun g => g.contains p)))

/-- A lane mismatch (R160, R175, R176): the event, an immediate round of self-tests asked of both pumps, the books of the
three periods, and a declaration they lead to. -/
def laneMismatch (g : List Nat) (s : State) : State :=
  let s := raise 71 [] s
  let s := g.foldl (fun s p => onPump p (fun x => { x with katNow := true }) s) s
  let s := onPu (fun x => { x with mism := match x.mism with
    | cur :: r => (cur ++ [g]) :: r
    | [] => [[g], [], []] }) s
  match followed s.pu.mism with
  | [p] => declareFailed p s
  | _ => s

/-- A test row of the key store (R162): what the ROM loaded, unless it has been changed. -/
def testRow (k : Nat) (s : State) : BitVec 256 := (smFind s.pu.testRows k).getD (Config.testKey k)

/-- The right result of a known-answer test under a key: GMAC-128, GCM-256, HMAC-SHA256 over the ROM's vector (R175). The
test row each uses and its IV, zero, are the model's choice (log 111). -/
def katResult (k : Nat) (key : BitVec 256) : BitVec 128 :=
  let iv : Bytes := List.replicate 12 0
  match k with
  | 0 => of128 (gcmTag (bytes128 (key.setWidth 128)) iv Config.testVector [])
  | 1 => of128 (gcmTag (bytes256 key) iv [] (gcmCrypt (bytes256 key) iv Config.testVector))
  | _ => of128 ((hmac256 (bytes256 key) Config.testVector).take 16)

/-- How the right result under a test row differs from the value in ROM, which is the right result under the ROM's key. -/
def katDiff (k : Nat) (s : State) : BitVec 128 :=
  match smFind s.pu.testRows k with
  | none => 0
  | some v => katResult k v ^^^ katResult k (Config.testKey k)

/-- A pump whose results carry the errors `err`, 128 bits a test, passes when every result equals the ROM's (R175). -/
def katPass (err : BitVec 384) (s : State) : Bool :=
  [0, 1, 2].all (fun k => katDiff k s == (err >>> (128 * k)).setWidth 128)

/-- One known-answer round (R175, R176). -/
def katRound (p : Nat) (pass : Bool) (s : State) : State :=
  if pass then onPump p (fun x => { x with katFails := 0, katPasses := x.katPasses + 1 }) s
  else
    let s := raise 74 [p] (onPump p (fun x => { x with katFails := x.katFails + 1, katPasses := 0 }) s)
    if 2 ≤ (pump p s).katFails then declareFailed p s else s

/-- The rotation advances while no pump is failed (R146, R177), and the mismatch periods move on. -/
def rotatePairs (s : State) : State :=
  if failedPumps s = [] then
    onPu (fun x => { x with rot := (x.rot + 1) % 3, mism := [] :: x.mism.take 2 }) s
  else onPu (fun x => { x with mism := [] :: x.mism.take 2 }) s

/-- PUMP_RESTORE (R177). -/
def pumpRestoreBody (c : Call) (s : State) : State :=
  let p := argD c 1 0
  if !(pump p s).failed then replyOk c [] s
  else if (pump p s).katPasses < 1000 then refuse c stBusy s
  else
    let s := setStandby (onPump p (fun x => { x with failed := false, katFails := 0 }) s)
    replyOk c [] (if failedPumps s = [] then onPu (fun x => { x with rot := 0, rotAt := s.clk.now + msTicks 100 }) s else s)

/-! ## The key store (R162 to R167) -/

/-- The number of the row that serves a slot: its own, or the spare row that has replaced it (R166). -/
def rowNo (i : Nat) (s : State) : Nat :=
  match (kslot i s).spare with
  | some j => 32768 + j
  | none => i

/-- The slot that a row serves, if any. -/
def slotOfRow (r : Nat) (s : State) : Option Nat :=
  if r < 32768 then (if (kslot r s).spare.isNone then some r else none)
  else (s.se.kslots.find? (fun e => e.2.spare == some (r - 32768))).map (·.1)

def rowOf (i : Nat) (s : State) : Row := smGet {} s.pu.rows (rowNo i s)

/-- The key of a slot: the exclusive or of its row's halves (R162). -/
def rowKey (i : Nat) (s : State) : BitVec 256 := (rowOf i s).share0 ^^^ (rowOf i s).share1

/-- A read of the slot's row finds an uncorrectable error (R166). -/
def rowBad (i : Nat) (s : State) : Bool := s.pu.badRows.contains (rowNo i s)

/-- An output block of a pump's mask generator, whose state advances one-way behind it (R171). -/
def genDraw (p : Nat) (s : State) : BitVec 256 × State :=
  ((Config.maskOut (pump p s).gen).setWidth 256, onPump p (fun x => { x with gen := Config.maskNext x.gen }) s)

/-- Each lane of a group reads the row of a slot once and latches it with a fresh value of its generator (R164). -/
def latchRow (i : Nat) (g : List Nat) (s : State) : List Latch × State :=
  g.foldl (fun (l, s) p =>
    let (m, s) := genDraw p s
    (l ++ [⟨(rowOf i s).share0, (rowOf i s).share1, m⟩], s)) ([], s)

/-- The key a lane works with: the exclusive or of its shares, in which its mask cancels (R164). -/
def laneKey (l : Latch) : BitVec 256 := l.share0 ^^^ l.share1

/-- The key of one lane of a job, as the bytes its profile uses (R148, R162). -/
def latchedKey (prof lane : Nat) (l : List Latch) : Bytes :=
  let k := match l[lane]? with | some x => laneKey x | none => 0
  if prof = 1 then bytes128 (k.setWidth 128) else bytes256 k

/-- Key types that fit a profile (R148). -/
def ktypeOf (prof : Nat) : Nat := if prof = 0 then 2 else if prof = 1 then 0 else 1

/-- A bad row of a slot is replaced by a spare one while there is one (R166). -/
def takeSpare (i : Nat) (s : State) : State :=
  if (kslot i s).drainBad && s.pu.sparesUsed < 64 then
    let s := onPu (fun x => { x with rows := smDel x.rows (rowNo i s), badRows := x.badRows.filter (· ≠ rowNo i s) }) s
    onPu (fun x => { x with sparesUsed := x.sparesUsed + 1 })
      (onKslot i (fun k => { k with drainBad := false, spare := some s.pu.sparesUsed }) s)
  else s

/-- Row and descriptor of a load (R163). -/
def storeKey (m : KeyMsg) (s : State) : State :=
  let s := takeSpare m.slot s
  let s := onPu (fun x => { x with rows := smSet {} x.rows (rowNo m.slot s) { share0 := m.share0, share1 := m.share1 } }) s
  let s := onKslot m.slot (fun k => { k with
    state := 1, ktype := m.ktype, keyId := m.keyId, epoch := m.epoch, notAfter := m.notAfter }) s
  onNv (fun n => { n with loads := n.loads + 1, slotLoads := smSet 0 n.slotLoads m.slot (n.loads + 1) }) s

/-- The vault core's part of a finished drain (R133, R166): the row erased, the slot EMPTY, a spare row in place of a
bad one while there is one. -/
def emptySlot (i : Nat) (s : State) : State :=
  let s := onPu (fun x => { x with rows := smDel x.rows (rowNo i s), drained := x.drained.filter (· ≠ i) }) s
  takeSpare i (onKslot i (fun k => { k with state := 0 }) s)

/-- An uncorrectable error in the row of a slot (R166): the event with its record, and the slot DRAINING; an EMPTY slot
that nothing refers to has its row replaced at once. -/
def badRowFound (i : Nat) (s : State) : State :=
  let s := onKslot i (fun k => { k with drainBad := true }) s
  let s := onPu (fun x => { x with badRows := if x.badRows.contains (rowNo i s) then x.badRows else x.badRows ++ [rowNo i s] }) s
  let s := raise 72 [i] s
  if (kslot i s).state = 0 && (kslot i s).ref = 0 then takeSpare i s else drainSlot i s

/-- Drop of pump keys (R167): every descriptor EMPTY, every slot row and spare row zero; the test rows are kept. -/
def dropPumpKeys (s : State) : State :=
  let s := onSe (fun e => { e with kslots := e.kslots.map (fun (n, k) => (n, { k with state := 0 })) }) s
  onPu (fun x => { x with rows := [], badRows := [], drained := [], keyChan := [], queued := [] }) s

/-- One step of the re-mask sweep over the rows, the spare ones and the test rows among them (R162, R165, R166). A row
that serves no slot shows its error to nobody. -/
def sweepRow (e : MemErr) (s : State) : State :=
  let r := s.pu.sweep
  let s := onPu (fun x => { x with sweep := (x.sweep + 1) % 32836 }) s
  match e, slotOfRow r s with
  | .uncorrectable, some i => badRowFound i s
  | .uncorrectable, none => s
  | e, o =>
    let s := match o with
      | some i => if e = .corrected then onKslot i (fun k => { k with corrected := k.corrected + 1 }) s else s
      | none => s
    let (v, s) := draw 256 s
    let m := BitVec.ofNat 256 v
    if r < 32832 then
      onPu (fun x => { x with rows := smMod {} x.rows r (fun w => { share0 := w.share0 ^^^ m, share1 := w.share1 ^^^ m }) }) s
    else s

/-! ## Tags (R148 to R154) -/

/-- The MAC-covered bytes of the security extension itself (R151, R153): up to the counter in the Bluortis extension;
key identifier, algorithm and, in the profiles that have one, the IV in the IEC one (log 21). -/
def extCovered (x : SecExt) : Bytes :=
  match x with
  | .none => []
  | .iec _ alg keyId iv _ =>
    natBE 4 keyId ++ (match alg with | .hmacSha256x128 => [2] | .aesGmac128 => 5 :: natBE 12 iv.toNat | .other n => natBE 1 n)
  | .bluortis ty len fmt prof keyId salt counter _ =>
    natBE 1 ty ++ natBE 1 len ++ natBE 1 fmt ++ natBE 1 prof ++ natBE 4 keyId ++ natBE 4 salt.toNat ++ natBE 8 counter.toNat

/-- IV of an extension (R151, R157). -/
def extIv (x : SecExt) : Bytes :=
  match x with
  | .none => []
  | .iec _ _ _ iv _ => natBE 12 iv.toNat
  | .bluortis _ _ _ _ _ salt counter _ => natBE 4 salt.toNat ++ natBE 8 counter.toNat

def extKeyId (x : SecExt) : Option Nat :=
  match x with
  | .none => none
  | .iec _ _ k _ _ => some k
  | .bluortis _ _ _ _ k _ _ _ => some k

def extTag (x : SecExt) : BitVec 128 :=
  match x with
  | .none => 0
  | .iec _ _ _ _ m => m
  | .bluortis _ _ _ _ _ _ _ t => t

/-- The extension is the kind PFV names (R151, R153). -/
def extFitsPfv (pfv : Nat) (x : SecExt) : Bool :=
  match x with
  | .none => false
  | .iec .. => pfv == 0
  | .bluortis .. => pfv == 1

/-- The named profile fits the image's (R150, R151). -/
def extFitsProf (prof : Nat) (x : SecExt) : Bool :=
  match x with
  | .none => false
  | .iec _ alg _ _ _ =>
    (match alg with
     | .hmacSha256x128 => prof == 0
     | .aesGmac128 => prof == 1 || prof == 2
     | .other _ => false)
  | .bluortis _ _ _ p _ _ _ _ => p == prof

def segBytes (secret : Bool) (l : List Seg) : Bytes := ((l.filter (fun g => g.secret == secret)).map (·.bytes)).flatten
def allBytes (l : List Seg) : Bytes := (l.map (·.bytes)).flatten

/-- The tag of a frame under a profile and key (R148, R154, R157). -/
def frameTag (prof : Nat) (key : Bytes) (segs : List Seg) (x : SecExt) : BitVec 128 :=
  if prof = 0 then of128 ((hmac256 key (allBytes segs ++ extCovered x)).take 16)
  else if prof = 3 then of128 (gcmTag key (extIv x) (segBytes false segs ++ extCovered x) (segBytes true segs))
  else of128 (gcmTag key (extIv x) (allBytes segs ++ extCovered x) [])

/-- Put bytes into the secret segments, in frame order (R154). -/
def fillSecret : List Seg → Bytes → List Seg
  | [], _ => []
  | g :: r, b =>
    if g.secret then { g with bytes := b.take g.bytes.length } :: fillSecret r (b.drop g.bytes.length)
    else g :: fillSecret r b

/-- Encrypt or decrypt the secret segments (R154). -/
def cryptSegs (key : Bytes) (x : SecExt) (segs : List Seg) : List Seg :=
  fillSecret segs (gcmCrypt key (extIv x) (segBytes true segs))

/-- Clocks of a frame's job: its MAC-covered bytes, the extension's among them (R172). -/
def frameWork (prof : Nat) (segs : List Seg) (x : SecExt) : Nat :=
  if prof = 3 then jobWork 3 ((segBytes false segs).length + (extCovered x).length) (segBytes true segs).length
  else jobWork prof ((allBytes segs).length + (extCovered x).length) 0

/-- Overwrite every encrypted byte with zero (R155). -/
def zeroSecret (segs : List Seg) : List Seg :=
  segs.map (fun g => if g.secret then { g with bytes := List.replicate g.bytes.length 0 } else g)

end Sys2Proof.Machine
end

