-- ==== Sys2Proof/Machine/Cal.lean ====
section
/-! DEFINITION. Calibration values and the calibration commands (R504 to R508). -/
namespace Sys2Proof.Machine

/-- A calibration item of R507: nominal value, user limits, effective limits. -/
structure CalItem where
  nominal : Int
  uLo : Int
  uHi : Int
  eLo : Int
  eHi : Int
  deriving DecidableEq, Repr

def calRow (n ul uh el eh : Int) : Option CalItem := some { nominal := n, uLo := ul, uHi := uh, eLo := el, eHi := eh }

def nsUnit : Int := 65536

/-- Nominal port latency by mode m, in ns (R507). -/
def latNominal (m : Nat) : Int :=
  match m with
  | 0 => 40
  | 1 => 120
  | 2 => 120
  | 3 => 900
  | _ => 9000

/-- The items of R507. -/
def calItem (i : Nat) : Option CalItem :=
  let lat (o : Nat) : Option CalItem :=
    if o / 8 < 4 && o % 8 < 5 then
      calRow (latNominal (o % 8) * nsUnit) (-50 * nsUnit) (50 * nsUnit) 0 (20000 * nsUnit)
    else none
  if 0x0100 ≤ i && i < 0x0120 then lat (i - 0x0100)
  else if 0x0200 ≤ i && i < 0x0220 then lat (i - 0x0200)
  else match i with
  | 0x0300 => calRow 0 (-1000 * nsUnit) (1000 * nsUnit) (-1000 * nsUnit) (1000 * nsUnit)
  | 0x0301 => calRow 0 (-1000 * nsUnit) (1000 * nsUnit) (-1000 * nsUnit) (1000 * nsUnit)
  | 0x0400 => calRow 32 (-8) 8 0 63
  | 0x0401 => calRow 32 (-8) 8 0 63
  | 0x0402 => calRow 16 (-4) 4 0 31
  | 0x0500 => calRow 720 0 20 700 900
  | 0x0501 => calRow 880 (-20) 0 700 900
  | 0x0502 => calRow 810 0 20 800 1000
  | 0x0503 => calRow 990 (-20) 0 800 1000
  | 0x0504 => calRow 1620 0 50 1600 2000
  | 0x0505 => calRow 1980 (-50) 0 1600 2000
  | 0x0506 => calRow 2970 0 100 2950 3650
  | 0x0507 => calRow 3630 (-100) 0 2950 3650
  | 0x0508 => calRow 2100 0 300 2100 2400
  | 0x0509 => calRow (-55) 0 15 (-55) 125
  | 0x050A => calRow 125 (-15) 0 (-55) 125
  | 0x050B => calRow 50 (-25) 0 10 100
  | 0x0600 => calRow 0 (-50) 50 (-50) 50
  | 0x0601 => calRow 0 (-50) 50 (-50) 50
  | 0x0602 => calRow 0 (-50) 50 (-50) 50
  | 0x0603 => calRow 0 (-50) 50 (-50) 50
  | 0x0604 => calRow 0 (-50) 50 (-50) 50
  | 0x0610 => calRow 0 (-10) 10 (-10) 10
  | 0x0611 => calRow 0 (-10) 10 (-10) 10
  | 0x0612 => calRow 0 (-10) 10 (-10) 10
  | 0x0613 => calRow 0 (-10) 10 (-10) 10
  | 0x0700 => calRow 32 (-8) 8 0 63
  | 0x0800 => calRow 105 (-35) 5 70 110
  | _ => none

/-- Every item number, for the expert CAL_CLEAR (R506). -/
def calItems : List Nat := (List.range 0x0801).filter (fun i => (calItem i).isSome)

/-- Factory value: the factory page's, or the Nominal column's when neither copy verified (R505). -/
def calFactory (i : Nat) (s : State) : Int :=
  if s.factoryPageOk then Config.factoryCal i
  else match calItem i with
    | some r => r.nominal
    | none => 0

def calUser (i : Nat) (s : State) : Int := smGet 0 s.nv.userCal i

/-- Effective value (R504 step 2). -/
def calEff (i : Nat) (s : State) : Int :=
  match calItem i with
  | some r => clampI (calFactory i s + calUser i s) r.eLo r.eHi
  | none => 0

/-- Store a user value (R504): the effective value, and whether a clamp changed it. -/
def calStore (i : Nat) (u : Int) (s : State) : Int × Bool × State :=
  match calItem i with
  | none => (0, false, s)
  | some r =>
    let u1 := clampI u r.uLo r.uHi
    let sum := calFactory i s + u1
    let e := clampI sum r.eLo r.eHi
    (e, decide (u1 ≠ u) || decide (e ≠ sum),
      onNv (fun n => { n with userCal := smSet 0 n.userCal i (e - calFactory i s) }) s)

/-- Latencies of R183 for a port mode (PORT_CFG numbering: 1 is 10GBASE-R). -/
def rxLat (port mode : Nat) (s : State) : Int := calEff (0x0100 + 8 * port + (mode - 1)) s
def txLat (port mode : Nat) (s : State) : Int := calEff (0x0200 + 8 * port + (mode - 1)) s

/-- CAL_GET. -/
def calGetBody (c : Call) (s : State) : State :=
  let i := argD c 1 0
  if (calItem i).isNone then badParam c 1 s
  else
    replyOk c [r32 1 (ofSigned 4 (calFactory i s)), r32 2 (ofSigned 4 (calUser i s)), r32 3 (ofSigned 4 (calEff i s))] s

/-- CAL_SET (R504). Without USER the current value stays. ANT_TUNE outside a forced tuning takes effect as R508 says
through `calEff`. -/
def calSetBody (c : Call) (s : State) : State :=
  let i := argD c 1 0
  if (calItem i).isNone then badParam c 1 s
  else
    match argN c 2 with
    | none => replyOk c [r32 1 (ofSigned 4 (calEff i s)), r8 2 0] s
    | some v =>
      let (e, cl, s) := calStore i (toSigned 4 v) s
      replyOk c [r32 1 (ofSigned 4 e), r8 2 (b2n cl)] s

/-- CAL_CLEAR (R506): the named item, or in the expert form with its option every item. -/
def calClearBody (c : Call) (s : State) : State :=
  if c.pkt.expert && argD c 2 0 = 1 then replyOk c [] (onNv (fun n => { n with userCal := [] }) s)
  else
    let i := argD c 1 0
    if (calItem i).isNone then badParam c 1 s
    else replyOk c [] (onNv (fun n => { n with userCal := smDel n.userCal i }) s)

/-- A user word whose check fails counts as user value 0, and CAL_INVALID is raised (R506). -/
def calUserBad (items : List Nat) (s : State) : State :=
  items.foldl (fun s i => raise 150 [] (onNv (fun n => { n with userCal := smDel n.userCal i }) s)) s

end Sys2Proof.Machine
end

