-- ==== Sys2Proof/Machine/Time.lean ====
section
/-! DEFINITION. The time unit, the servo, PPS and the time-bound checks (chapter 05, R179 to R199). -/
namespace Sys2Proof.Machine

/-! ## Uncertainty and history -/

def timeSnap (t : Tu) : TimeSnap :=
  { state := t.state, uset := t.uset, tset := t.tset, drift := t.drift, umax := t.umax, utcoff := t.utcoff,
    utcvalid := t.utcvalid }

/-- Change the values that judge frames, keeping what stood before (R195, R197). -/
def tuChange (f : Tu → Tu) (s : State) : State :=
  onTu (fun t => f { t with hist := (t.hist.filter (fun e => s.clk.now < e.1 + secTicks 1)) ++ [(s.clk.now, timeSnap t)] }) s

/-- The values as they stood at a tick (R197), with the |Δ| of the steps for which a frame whose start came at that
tick is pre-step (R189). -/
def snapAt (tick : Nat) (s : State) : TimeSnap :=
  let base := match s.tu.hist.find? (fun e => tick < e.1) with
    | some e => e.2
    | none => timeSnap s.tu
  { base with preStep := ((s.tu.steps.filter (fun e => tick * 5 < e.1 * 5 + 256)).map (·.2)).sum }

/-- One nanosecond in the unit in which U is exact: 2^-16 ns times 10^-9. -/
def uScale : Int := 65536 * 1000000000

/-- U_eff at a time, exact (R188, R197). -/
def uEff (t : TimeSnap) (t16 : Int) : Int :=
  (t.uset : Int) * uScale + (if t.state = 2 then (t.drift : Int) * max 0 (t16 - t.tset) else 0) + (t.preStep : Int) * uScale

/-! ## State and steps (R188, R189) -/

/-- Every change of STATE raises the time-state event (R188). -/
def setTimeState (v : Nat) (s : State) : State :=
  if v = s.tu.state then s else raise 44 [] (tuChange (fun t => { t with state := v }) s)

/-- A change of STATE by the hardware; a write in the same clock loses to it (R195). -/
def hwTimeState (v : Nat) (s : State) : State :=
  setTimeState v (onTu (fun t => { t with hwStateAt := some s.clk.now }) s)

/-- A write of STATE: 3 has no effect, and a hardware change in the same clock wins (R187, R195). -/
def writeTimeState (v : Nat) (s : State) : State :=
  if v = 3 || s.tu.hwStateAt = some s.clk.now then s else setTimeState v s

/-- A write of TU_UNCERT records t_set (R187). It goes before an entry to HOLDOVER of the same clock (R195). -/
def writeUncert (v : Nat) (s : State) : State :=
  let s := inTurn turnTime 0 0 s
  tuChange (fun t => { t with uset := v, tset := ptp16 s, tsetAt := s.clk.now }) s

/-- The number of whole seconds plus OFFSET passed (R186), counted ahead by PPSOUT_DELAY so that the edge at the ball
comes at the instant (R507). -/
def ppsIndex (s : State) : Int :=
  (((ptp16 s : Nat) : Int) + calEff 0x0301 s - s.tu.ppsOffset * 65536) / (1000000000 * 65536)

/-- The edges passed so far count as given. -/
def ppsMark (s : State) : State := onTu (fun t => { t with ppsLastEdge := ppsIndex s }) s

/-- A step to a new time in units of 2^-48 ns (R189): the time, USET, pre-step frames, the instants of R140, the skipped
or repeated PPS instants of R186, and the event. -/
def stepTo (new : Int) (s : State) : State :=
  let s := inTurn turnTime 0 1 (advance 1 s)
  let d := new - s.tu.time
  let m := (d.natAbs + tuPerNs - 1) / tuPerNs
  let s := ppsMark (tuChange (fun t => { t with
      time := (new % (2 ^ 48 * 1000000000 * (tuPerNs : Int))).toNat
      tset := t.tset + d / 2 ^ 32
      uset := min 0xFFFFFFFF (max t.uset m)
      steps := (t.steps.filter (fun (e : Nat × Nat) => s.clk.now < e.1 + secTicks 1)) ++ [(s.clk.now, m)]
      haveLast := false
      lockCount := 0 }) s)
  let s := onFp (fun f => { f with
    ing := f.ing.map (fun x => { x with snap := { x.snap with preStep := x.snap.preStep + m } }) }) s
  raise 45 [] (clearInstants s)

/-- A relative step by Δ ns: the fraction stays (R189). -/
def stepBy (ns : Int) (s : State) : State := stepTo ((advance 1 s).tu.time + ns * tuPerNs) s

/-- An absolute step: the value in ns is the new time, with fraction 0 (R189). -/
def stepAbs (ns : Nat) (s : State) : State := stepTo ((ns : Int) * tuPerNs) s

/-! ## Registers (R187) -/

/-- A write of REFSEL: REFOK says whether the reference is there. One that has been lost may have returned by then, which
nothing reports: a free value (R181; log 112). -/
def writeRefSel (on : Bool) (s : State) : State :=
  if on && !s.tu.refPresent then
    let (v, s) := draw 1 s
    onTu (fun t => { t with refSel := on, refPresent := v == 1, refOk := v == 1 }) s
  else onTu (fun t => { t with refSel := on, refOk := on }) s

def writePpsEn (on : Bool) (s : State) : State :=
  let s := if on && !s.tu.ppsOutEn then ppsMark s else s
  onTu (fun t => { t with ppsOutEn := on }) s

def stepWord (t : Tu) : Nat := t.stepLo.toNat + 2 ^ 32 * t.stepHi.toNat

/-- A write of TU_CTL. -/
def writeTuCtl (v : Word) (s : State) : State :=
  let s := if v.getLsbD 7 then onTu (fun t => { t with snap := ptp16 s }) s else s
  let s := writeTimeState (v.toNat % 4) s
  let s := writePpsEn (v.getLsbD 4) (writeRefSel (v.getLsbD 2) s)
  let s := onTu (fun t => { t with abs := v.getLsbD 6 }) s
  if v.getLsbD 5 then
    if s.tu.abs then stepAbs (stepWord s.tu) s else stepBy (toSigned 8 (stepWord s.tu)) s
  else s

/-- A write of one of the time unit's registers by its offset. -/
def writeTu (off : Nat) (v : Word) (s : State) : State :=
  match off with
  | 0x00 => writeTuCtl v s
  | 0x04 => onTu (fun t => { t with freq := v.toInt }) s
  | 0x08 => writeUncert v.toNat s
  | 0x0C => onTu (fun t => { t with stepLo := v }) s
  | 0x10 => onTu (fun t => { t with stepHi := v }) s
  | 0x14 => tuChange (fun t => { t with drift := v.toNat % 65536, holdto := v.toNat / 65536 % 256 }) s
  | 0x18 => tuChange (fun t => { t with umax := v.toNat }) s
  | 0x1C => tuChange (fun t => { t with utcoff := toSigned 2 (v.toNat % 65536), utcvalid := v.getLsbD 16 }) s
  | _ => s

/-- A read of one of the time unit's registers. -/
def readTu (off : Nat) (s : State) : Word :=
  let t := s.tu
  BitVec.ofNat 32 (match off with
  | 0x00 => t.state + 4 * b2n t.refSel + 8 * b2n t.refOk + 16 * b2n t.ppsOutEn + 64 * b2n t.abs
  | 0x04 => ofSigned 4 t.freq
  | 0x08 => t.uset
  | 0x0C => t.stepLo.toNat
  | 0x10 => t.stepHi.toNat
  | 0x14 => t.drift + 65536 * t.holdto
  | 0x18 => t.umax
  | 0x1C => ofSigned 2 t.utcoff + 65536 * b2n t.utcvalid
  | 0x20 => t.snap / 65536 / 1000000000 % 2 ^ 32
  | 0x24 => t.snap / 65536 / 1000000000 / 2 ^ 32
  | 0x28 => t.snap / 65536 % 1000000000
  | 0x2C => t.snap % 65536
  | _ => 0)

/-- The row TU_CTL_STEP: a write of TU_CTL with STEP set. -/
def execTuCtlStep (v : Word) (s : State) : Res := done (if running s then writeTuCtl (v ||| 0x20) s else s)

/-- The row TU_CTL_SNAP: a write of TU_CTL with SNAP set. -/
def execTuCtlSnap (v : Word) (s : State) : Res := done (if running s then writeTuCtl (v ||| 0x80) s else s)

/-- The row TU_UNCERT. -/
def execTuUncert (v : Word) (s : State) : Res := done (if running s then writeUncert v.toNat s else s)

/-! ## Servo (R190) -/

/-- Round a value in units of 1/d to the nearest whole, half upward (log 30). -/
def roundHalf (x d : Int) : Int := (2 * x + d) / (2 * d)

/-- The PI filter. -/
def servoFilter (o t : Int) (u : Tu) : Tu :=
  if !u.haveLast then { u with last := t, haveLast := true }
  else
    let dt := t - u.last
    let u := { u with last := t }
    if dt ≤ 0 then u
    else
      let r := (o * 65536 * 1000000000).tdiv dt
      let integ := clampI (u.integ + ((u.ki : Int) * r) / 65536) (-2147483648) 2147483647
      let freq := clampI (-((((u.kp : Int) * r) / 65536) + integ)) (-2147483648) 2147483647
      { u with integ := integ, freq := freq }

def maxAbs (l : List Int) : Nat := (l.map Int.natAbs).foldl max 0

/-- One measurement: offset in 2^-16 ns, weight in 2^-15, local time in ns. -/
def servoFeed (o16 : Int) (w : Nat) (t : Int) (s : State) : State :=
  let o := roundHalf o16 65536
  let os := roundHalf (o16 * w) (65536 * 32768)
  let offs := (s.tu.offs ++ [o]).drop (s.tu.offs.length - 7)
  let stepped := decide ((s.tu.stepThr : Int) * (65536 * 32768) < (o16 * w).natAbs)
  let s := onTu (fun u => { u with offs := offs }) s
  let s := if stepped then stepBy (-os) s else onTu (servoFilter os t) s
  let s := writeUncert (min 0xFFFFFFFF (max 200 (2 * maxAbs offs))) s
  let s := onTu (fun u => { u with lockCount :=
    if stepped || (u.lockThr : Int) * 65536 ≤ o16.natAbs then 0 else u.lockCount + 1 }) s
  if s.tu.lockN ≤ s.tu.lockCount then writeTimeState 1 s else s

/-- The control core runs its servo: not stopped, halted, restarting or being swapped (R188). -/
def servoRuns (s : State) : Bool :=
  !controlDown s && (match s.plat.swap with | some w => !w.pointed || w.core != .control | none => true)

/-! ## Time-bound checks (R196 to R199) -/

inductive TimeFlag | off | unchecked | none | early | late
  deriving DecidableEq, Repr

def tbndMode (t : Nat) : Nat := t / 16384
def tbndEarly (t : Nat) : Int := ((t / 256 % 64 : Nat) : Int) * 250
def tbndMax (t : Nat) : Int := (((t % 32 + 1) * 2 ^ (t / 32 % 8) : Nat) : Int) * 1000

/-- The check of a frame: TBND and SMPWRAP, the parsed unit, the arrival timestamp in 2^-16 ns, and the values that
stood at arrival. -/
def timeCheck (tbnd wrap : Nat) (a : Apdu) (ts : Nat) (v : TimeSnap) : TimeFlag :=
  let ta : Int := ((ts / 65536 : Nat) : Int)
  let u := uEff v (ta * 65536)
  let w := if wrap = 0 then 65536 else wrap
  let judge (d : Int) (lateOk : Bool) : TimeFlag :=
    if d * uScale < -(tbndEarly tbnd) * uScale - u then .early
    else if lateOk && (tbndMax tbnd) * uScale + u < d * uScale then .late
    else .none
  if tbndMode tbnd = 0 then .off
  else if v.state = 0 || (v.umax : Int) * uScale < u then .unchecked
  else if tbndMode tbnd = 1 then
    match a.asdus.getLast? with
    | none => .unchecked
    | some l =>
      if l.smpSynch = 0 || w ≤ l.smpCnt then .unchecked
      else
        let nom : Int := ((l.smpCnt * 1000000000 / w : Nat) : Int)
        let sec := (ta - nom + 500000000).tdiv 1000000000
        judge (ta - (sec * 1000000000 + nom)) true
  else if a.clockFailure || a.clockNotSync || !v.utcvalid then .unchecked
  else
    let tt : Int := ((a.tSec : Int) + v.utcoff) * 1000000000 + ((a.tFrac * 1000000000 / 2 ^ 24 : Nat) : Int)
    judge (ta - tt) (a.sqNum == 0)

/-! ## Commands (R194) -/

/-- TIME_GET; the expert form adds the last offsets and how far the ports' replicas are off (R182). -/
def timeGetBody (c : Call) (s : State) : State :=
  let u : Nat :=
    if s.tu.state = 0 then 0xFFFFFFFF
    else min 0xFFFFFFFE ((uEff (timeSnap s.tu) (ptp16 s) + uScale - 1) / uScale).toNat
  let base := [rtime 1 (ptp16 s), r8 2 s.tu.state, r32 3 u, r32 4 (ofSigned 4 s.tu.freq), r16 5 (ofSigned 2 s.tu.utcoff)]
  if c.pkt.expert then
    let offs := List.replicate (8 - s.tu.offs.length) 0 ++ s.tu.offs
    replyOk c (base ++ offs.map (fun o => r64 6 (ofSigned 8 o)) ++
      [0, 1, 2, 3].map (fun p => r32 7 (ofSigned 4 (smGet 0 s.tu.replicas p)))) s
  else replyOk c base s

/-- TIME_SET. -/
def timeSetBody (c : Call) (s : State) : State :=
  let fin (s : State) : State := replyOk c [rtime 1 (ptp16 s)] s
  if badTime c 1 then badParam c 1 s
  else if !c.pkt.expert && s.tu.state ≠ 0 then refuse c stDenied s
  else if c.pkt.expert && hasArg c 2 then
    if hasArg c 1 then badParam c 2 s else fin (stepBy (toSigned 8 (argD c 2 0)) s)
  else match argOf c 1 with
    | some b => fin (stepAbs (bytesTime b / 65536) s)
    | none => fin s

/-- TIME_FEED. -/
def timeFeedBody (c : Call) (s : State) : State :=
  if badTime c 1 then badParam c 1 s
  else if badTime c 2 then badParam c 2 s
  else if s.tu.src ≠ 1 then refuse c stBadParam s
  else
    let t1 := bytesTime ((argOf c 1).getD [])
    let t2 := bytesTime ((argOf c 2).getD [])
    let o : Int := (t2 : Int) - t1 - toSigned 8 (argD c 3 0) - toSigned 8 (argD c 4 0)
    let w := if c.pkt.expert then argD c 5 32768 else 32768
    replyOk c [r64 1 (ofSigned 8 (roundHalf o 65536))] (servoFeed o w ((t2 / 65536 : Nat) : Int) s)

/-- TIME_SRC. -/
def timeSrcBody (c : Call) (s : State) : State :=
  if c.pkt.expert && argN c 7 = some 0 then badParam c 7 s
  else
    let x (ty d : Nat) : Nat := if c.pkt.expert then argD c ty d else d
    let s := onTu (fun t => { t with
      src := argD c 1 0, ref10 := argD c 2 0 = 1, haveLast := false, stepThr := x 3 t.stepThr, kp := x 4 t.kp,
      ki := x 5 t.ki, lockThr := x 6 t.lockThr, lockN := x 7 t.lockN }) s
    replyOk c [] (writeRefSel (argD c 2 0 = 1) s)

/-- PPS_CFG (R185, R186). -/
def ppsCfgBody (c : Call) (s : State) : State :=
  let width := argD c 2 s.tu.ppsWidth
  let off := match argN c 3 with
    | some v => toSigned 4 v
    | none => s.tu.ppsOffset
  if width < 1000 || 500000000 < width then badParam c 2 s
  else if off < -500000000 || 500000000 < off then badParam c 3 s
  else
    let s := onTu (fun t => { t with
        ppsWidth := width, ppsOffset := off
        ppsInFalling := (argD c 4 (b2n t.ppsInFalling)) = 1
        ppsWindow := if c.pkt.expert then argD c 5 t.ppsWindow else t.ppsWindow }) s
    let s := if hasArg c 3 then ppsMark s else s
    replyOk c [] (match argN c 1 with
      | some v => writePpsEn (v = 1) s
      | none => s)

/-- TC_CFG (R192): LDELAY of the pair's two ports, at most 65,535 ns. -/
def tcCfgBody (c : Call) (s : State) : State :=
  let p := argD c 1 0
  let big (ty : Nat) : Bool := 65535 * 65536 < argD c ty 0
  if big 3 then badParam c 3 s
  else if big 4 then badParam c 4 s
  else
    let s := onFp (fun f => { f with pairs := smMod {} f.pairs p (fun q => { q with
      tcEn := argD c 2 (b2n q.tcEn) = 1
      tcMask := if c.pkt.expert then argD c 5 q.tcMask else q.tcMask }) }) s
    replyOk c [] (onTu (fun t =>
      let l := smSet 0 t.ldelay (2 * p) (argD c 3 (smGet 0 t.ldelay (2 * p)))
      { t with ldelay := smSet 0 l (2 * p + 1) (argD c 4 (smGet 0 l (2 * p + 1))) }) s)

/-- TIME_CFG (R194, R195). -/
def timeCfgBody (c : Call) (s : State) : State :=
  let umax := argD c 5 s.tu.umax
  if badTime c 2 then badParam c 2 s
  else if 65535 < argD c 3 0 then badParam c 3 s
  else if 255 < argD c 4 0 then badParam c 4 s
  else if hasArg c 5 && (umax < 1000 || (!c.pkt.expert && 1000000 < umax)) then badParam c 5 s
  else
    let s := tuChange (fun t => { t with drift := argD c 3 t.drift, holdto := argD c 4 t.holdto, umax := umax }) s
    replyOk c [] (match argN c 1 with
      | none => s
      | some v =>
        let off := toSigned 2 v
        let now := ptp16 s
        match (argOf c 2).map bytesTime with
        | some at_ =>
          if at_ ≤ now then tuChange (fun t => { t with utcoff := off, utcvalid := true, utcNext := none }) s
          else onTu (fun t => { t with utcNext := some (off, at_) }) s
        | none => tuChange (fun t => { t with utcoff := off, utcvalid := true, utcNext := none }) s)

/-! ## Events -/

/-- LOCKED ends when TU_UNCERT has not been written for HOLDTO (R188). -/
def execHoldoverEntry (dt : Nat) (s : State) : Res :=
  let s := advance dt s
  if !running s then done s else
  done (if s.tu.state = 1 && s.tu.tsetAt + msTicks (100 * s.tu.holdto) ≤ s.clk.now then
      hwTimeState 2 (inTurn turnTime 0 1 s)
    else s)

/-- HOLDOVER ends when U_eff exceeds UMAX (R188). -/
def execFreerunEntry (dt : Nat) (s : State) : Res :=
  let s := advance dt s
  if !running s then done s else
  done (if s.tu.state = 2 && (s.tu.umax : Int) * uScale < uEff (timeSnap s.tu) (ptp16 s) then hwTimeState 0 s else s)

/-- The 10 MHz reference is lost (R181). -/
def execReferenceLost (dt : Nat) (s : State) : Res :=
  let s := advance dt s
  if !running s then done s else
  let s := onTu (fun t => { t with refPresent := false }) s
  done (if s.tu.refSel then raise 42 [] (writeRefSel false s) else s)

/-- An edge on PPS_IN, `sub` half-nanoseconds into the tick (R185), in front of a step of its clock (R195); it feeds the
servo while the source is PPS_IN. -/
def execPpsInEdge (dt : Nat) (rising : Bool) (sub : Nat) (s : State) : Res :=
  let s := inTurn turnTime 0 0 (advance dt s)
  done (
    if !running s || pinsTaken s || rising = s.tu.ppsInFalling then s
    else if s.tu.ppsLast.isSome && s.clk.now < s.tu.ppsLastAt + msTicks s.tu.ppsWindow then
      onTu (fun t => { t with ppsIgnored := t.ppsIgnored + 1 }) s
    else
      let cap : Int := (ptp16 s : Int) + ((sub % 8 * 32768 : Nat) : Int) - calEff 0x0300 s
      let s := onTu (fun t => { t with ppsLast := some cap.toNat, ppsLastAt := s.clk.now, ppsMissing := false }) s
      if s.tu.src = 2 && servoRuns s then
        let one : Int := 1000000000 * 65536
        servoFeed (cap - roundHalf cap one * one) 32768 (cap / 65536) s
      else s)

/-- No edge accepted for 1.1 s (R185): raised once per gap. -/
def execPpsInMissing (dt : Nat) (s : State) : Res :=
  let s := advance dt s
  if !running s then done s else
  done (if !s.tu.ppsMissing && s.tu.ppsLastAt + msTicks 1100 ≤ s.clk.now then
      raise 43 [] (onTu (fun t => { t with ppsMissing := true }) s)
    else s)

/-- The time passes upward through a whole second plus OFFSET (R186). -/
def execPpsOutEdge (dt : Nat) (s : State) : Res :=
  let s := advance dt s
  if !running s then done s else
  done (if s.tu.ppsOutEn && s.tu.ppsLastEdge < ppsIndex s then
      ppsMark (onTu (fun t => { t with ppsOut := true, ppsOutAt := s.clk.now }) s)
    else s)

/-- The pulse has been high for the configured width (R186). -/
def execPpsOutPulseEnd (dt : Nat) (s : State) : Res :=
  let s := advance dt s
  if !running s then done s else
  done (if s.tu.ppsOut && s.tu.ppsOutAt + s.tu.ppsWidth / 4 ≤ s.clk.now then onTu (fun t => { t with ppsOut := false }) s
    else s)

/-- A replica differs from the time by at most 0.5 ns (R182): by how much is a free value. -/
def anchorReplica (p : Nat) (s : State) : State :=
  let (v, s) := draw 16 s
  onTu (fun t => { t with replicas := smSet 0 t.replicas p ((v : Int) - 32768) }) s

/-- The replicas are re-anchored every microsecond over the time-of-day queues (R29, R182). -/
def execReplicaReanchor (dt : Nat) (s : State) : Res :=
  let s := advance dt s
  if !running s then done s else
  done (if s.tu.reanchorAt + usTicks 1 ≤ s.clk.now then
      let s := onTu (fun t => { t with reanchorAt := s.clk.now }) s
      [0, 1, 2, 3, 4].foldl (fun s p => anchorReplica p (cdcPass (cdcTime + p) 1 s)) s
    else s)

/-- A UTC offset with an effective instant comes into force (R194, R195). -/
def execUtcoffEffective (dt : Nat) (s : State) : Res :=
  let s := advance dt s
  if !running s then done s else
  done (match s.tu.utcNext with
    | some (off, at_) =>
      if at_ ≤ ptp16 s then tuChange (fun t => { t with utcoff := off, utcvalid := true, utcNext := none }) s else s
    | none => s)

end Sys2Proof.Machine
end

