-- ==== Sys2Proof/Machine/Classify.lean ====
section
/-! DEFINITION. The classifier, the ticket and cell books, and the lookup of a frame's stream (R43 to R66, R100 to R104,
R112 to R114). -/
namespace Sys2Proof.Machine

/-! ## Ports and pairs -/

def portOf (p : Nat) (s : State) : Port := smGet {} s.fp.ports p
def onPort (p : Nat) (f : Port → Port) (s : State) : State :=
  onFp (fun x => { x with ports := smMod {} x.ports p f }) s
def pairOf (p : Nat) (s : State) : Pair := smGet {} s.fp.pairs p
def onPair (p : Nat) (f : Pair → Pair) (s : State) : State :=
  onFp (fun x => { x with pairs := smMod {} x.pairs p f }) s
def rxqOf (q : Nat) (s : State) : RxQ := smGet {} s.fp.rxq q
def onRxq (q : Nat) (f : RxQ → RxQ) (s : State) : State :=
  onFp (fun x => { x with rxq := smMod {} x.rxq q f }) s
def txqOf (q : Nat) (s : State) : TxQ := smGet {} s.fp.txq q
def onTxq (q : Nat) (f : TxQ → TxQ) (s : State) : State :=
  onFp (fun x => { x with txq := smMod {} x.txq q f }) s

/-- Counters wrap at 32 bits (R524). -/
def wrap1 (n : Nat) : Nat := (n + 1) % 2 ^ 32

def portUp (p : Nat) (s : State) : Bool := (portOf p s).link && (portOf p s).mode ≠ 0

/-- Ticks that n bytes take on a port, by the mode numbers of PORT_CFG. -/
def byteTicks (mode n : Nat) : Nat :=
  match mode with
  | 1 => (n + 4) / 5
  | 4 => 20 * n
  | 5 => 200 * n
  | _ => 2 * n

/-! ## Classification (R45 to R53) -/

/-- What the classifier says of a frame: class, whether it parses (R52), VLAN tag, redundancy class, path and number of a
recognised HSR tag (R49), number and LAN of a recognised RCT (R50), the PTP mark (R47), the located extension (R46), match
key and classified view. -/
structure Cls where
  fclass : FClass
  parseOk : Bool
  vtag : Bool
  rclass : Nat
  hsr : Option (Nat × Nat)
  rct : Option (Nat × Nat)
  wrongLan : Bool
  ptpMark : Bool
  sec : SecExt
  key : Option MatchKey
  view : Frame
  deriving DecidableEq, Repr

def isVlan (t : L2Tag) : Bool :=
  match t with
  | .vlan tpid _ => tpid == 0x88A8 || tpid == 0x8100
  | .hsr _ _ => false

def isHsr (t : L2Tag) : Bool :=
  match t with
  | .hsr _ _ => true
  | .vlan _ _ => false

/-- The tag stack of R48. -/
def vlanOk (l : List L2Tag) : Bool :=
  match l with
  | [] => true
  | [_] => true
  | [_, .vlan tpid _] => tpid == 0x8100
  | _ => false

def vidOf (l : List L2Tag) : Nat :=
  match l.getLast? with
  | some (.vlan _ vid) => vid
  | _ => 0

/-- LSDU size of a wire frame (R50): from the byte after the EtherType that follows any VLAN tags, to the RCT's end. -/
def lsduSize (len vlans : Nat) : Nat := len - 4 - 14 - 4 * vlans

/-- IP packets the classifier does not look into (R53). -/
def ipOpaque (i : IpInfo) : Bool :=
  if i.v6 then i.exts.any (fun e => e == .fragment || e == .other) || 2 < i.exts.length
  else i.moreFrags || i.fragOff ≠ 0

/-- The class by EtherType, IP and UDP (R45, R53). An encrypted 90-5 session, which the device does not support (R46),
shows it no application unit: bypass (log 75). -/
def classOf (f : Frame) : FClass :=
  if f.etherType = 0x88BA then .sv
  else if f.etherType = 0x88B8 then .goose
  else if f.etherType = 0x0800 || f.etherType = 0x86DD then
    match f.ip with
    | none => .bypass
    | some i =>
      if ipOpaque i || i.v6 ≠ (f.etherType == 0x86DD) then .bypass
      else match i.udp with
        | some u =>
          if u.dport ≠ 102 then .bypass
          else match u.session with
            | .sv => .rsv
            | .goose => .rgoose
            | .encrypted => .bypass
            | .none => .bypass
        | none => .bypass
  else .bypass

def fclassNo (c : FClass) : Nat :=
  match c with
  | .bypass => 0
  | .sv => 1
  | .goose => 2
  | .rsv => 3
  | .rgoose => 4

/-- PTP messages (R47): EtherType 0x88F7, or UDP destination port 319 or 320 in a packet the classifier looks into. -/
def ptpMark (f : Frame) : Bool :=
  f.etherType == 0x88F7 ||
    ((f.etherType == 0x0800 || f.etherType == 0x86DD) && (match f.ip with
      | some i => !ipOpaque i && i.v6 == (f.etherType == 0x86DD) &&
          (match i.udp with
           | some u => u.dport == 319 || u.dport == 320
           | none => false)
      | none => false))

/-- The PTP message of a marked frame. -/
def ptpOf (f : Frame) : Option Ptp := if ptpMark f then f.ptp else none

/-- The security extension where the class has it (R46): behind the APDU, or at the end of the 90-5 session. -/
def located (c : FClass) (a : Apdu) : SecExt := if c = .rsv || c = .rgoose then a.sig else a.sec

/-- The length that a profile's IEC extension has (log 33). -/
def iecLength (prof : Nat) : Nat := if prof = 0 then 29 else 43

/-- The extension's length matches the profile it names, and a Bluortis extension has the TYPE, LEN and FMT of R153 (R52).
An identifier that names no supported profile gives no length to match. -/
def extLayoutOk (x : SecExt) : Bool :=
  match x with
  | .none => true
  | .iec len .hmacSha256x128 _ _ _ => len == iecLength 0
  | .iec len .aesGmac128 _ _ _ => len == iecLength 1
  | .iec _ (.other _) _ _ _ => true
  | .bluortis ty len fmt _ _ _ _ _ => ty == 0xB7 && len == 34 && fmt == 1

def identOf (a : Apdu) : Bytes := a.ident.getD a.gocbRef

/-- What R52 demands of a protected frame. -/
def protectedOk (f : Frame) (c : FClass) (stack : Bool) : Bool :=
  stack &&
  (match f.apdu with
   | none => false
   | some a => a.lens.all (fun l => l.value ≤ l.room) && extLayoutOk (located c a) && (identOf a).length ≤ 129) &&
  (match f.ip with
   | none => true
   | some i => (i.v6 || i.hdrSumOk) && (match i.udp with | some u => u.sum == 0 || u.sumOk | none => true))

/-- Destination bytes of the match key (R100). -/
def daddrOf (f : Frame) (c : FClass) : Bytes :=
  match c, f.ip with
  | .rsv, some i => natBE (if i.v6 then 16 else 4) i.dst
  | .rgoose, some i => natBE (if i.v6 then 16 else 4) i.dst
  | _, _ => natBE 6 f.dst.toNat

def keyOf (f : Frame) (c : FClass) (vid : Nat) (publish : Bool) (s : State) : Option MatchKey :=
  match f.apdu with
  | none => none
  | some a => some {
      daddr := fit 16 (daddrOf f c), idHash := sip64 s.se.idKey (identOf a), appid := a.appid, vid := vid,
      fclass := fclassNo c, publish := publish }

/-- Path and sequence number of the frame's HSR tag. -/
def hsrTag (f : Frame) : Option (Nat × Nat) :=
  (f.tags.find? isHsr).bind (fun t => match t with
    | .hsr p q => some (p, q)
    | .vlan _ _ => none)

/-- The LAN of a port (R50): A for L0 and L2, B for L1 and L3 (log 110). -/
def lanOf (port : Nat) : Nat := 0xA + port % 2

/-- Classify a wire frame of a port whose pair is in the given mode. -/
def classify (port : Nat) (mode : PairMode) (f : Frame) (s : State) : Cls :=
  let hsr := mode == .hsr && f.tags.any isHsr
  let tags := if hsr then f.tags.eraseP isHsr else f.tags
  let vl := tags.filter isVlan
  let plain := tags.all isVlan
  let nv := (f.tags.filter isVlan).length
  let rct : Option Rct := match f.rct with
    | some r => if mode == .prp && r.suffix = 0x88FB && r.size = lsduSize f.len nv then some r else none
    | none => none
  let view : Frame := { f with
    len := f.len - 4 - (if hsr then 6 else 0) - (if rct.isSome then 6 else 0)
    tags := tags
    rct := if rct.isSome then none else f.rct }
  let c := if plain then classOf f else .bypass
  let ok := c = .bypass || protectedOk f c (vlanOk vl)
  { fclass := c, parseOk := ok, vtag := decide (vl ≠ []), rclass := if hsr then 2 else if rct.isSome then 1 else 0,
    hsr := if hsr then hsrTag f else none, rct := rct.map (fun r => (r.seq, r.lan))
    wrongLan := rct.any (fun r => r.lan ≠ lanOf port), ptpMark := ptpMark f
    sec := match f.apdu with | some a => located c a | none => .none
    key := if c = .bypass || !ok then none else keyOf f c (vidOf vl) false s
    view := view }

/-! ## Tickets and cells (R58 to R66) -/

def rxRecs (s : State) : List Rec := (s.fp.rxq.map (fun e => e.2.recs)).flatten

/-- What has returned in the present tick still counts as held (R63, R84). -/
def heldBack (n : Nat) (s : State) : Nat := if s.fp.backAt = s.clk.now then n else 0

/-- Tickets held by ingress frames, by egress frames, and free (R58). -/
def ingressHeld (s : State) : Nat :=
  s.fp.ing.length + (rxRecs s).countP (fun r => r.ticket.isSome) + heldBack s.fp.backIng s
def egressHeld (s : State) : Nat := s.fp.egr.length + heldBack s.fp.backEgr s
def freeTickets (s : State) : Nat := 1024 - ingressHeld s - egressHeld s

/-- Tickets that withdrawn cells take from a direction (R65). -/
def cutTickets (wd : Nat) : Nat := (wd + 31) / 32

/-- R59 with the limits of R65. -/
def ingressMayTake (s : State) : Bool :=
  let n := cutTickets s.fp.wdDelivery
  let m := cutTickets s.fp.wdTransmit
  ingressHeld s < 896 - n && 0 < freeTickets s && (ingressHeld s < 256 - n || 128 - m < freeTickets s)

def egressMayTake (s : State) : Bool :=
  let n := cutTickets s.fp.wdDelivery
  let m := cutTickets s.fp.wdTransmit
  egressHeld s < 768 - m && 0 < freeTickets s && (egressHeld s < 128 - m || 256 - n < freeTickets s)

/-- Cells held, withdrawn and free in each memory (R64); lent cells count as withdrawn (R378). -/
def deliveryHeld (s : State) : Nat :=
  (s.fp.ing.map (·.cells)).sum + ((rxRecs s).map (·.cells)).sum + heldBack s.fp.backDelivery s
def transmitHeld (s : State) : Nat := (s.fp.egr.map (·.cells)).sum + heldBack s.fp.backTransmit s
def deliveryGone (s : State) : Nat := s.fp.wdDelivery + s.fp.lentDelivery
def transmitGone (s : State) : Nat := s.fp.wdTransmit + s.fp.lentTransmit
def freeDelivery (s : State) : Nat := 32768 - deliveryGone s - deliveryHeld s
def freeTransmit (s : State) : Nat := 32768 - transmitGone s - transmitHeld s

/-- What a change of the path gives back, tickets and cells, becomes available in the next clock (R63, R84). -/
def returning (f : State → State) (s : State) : State :=
  let t := f s
  let i := ingressHeld s - ingressHeld t
  let e := egressHeld s - egressHeld t
  let d := deliveryHeld s - deliveryHeld t
  let x := transmitHeld s - transmitHeld t
  if i = 0 && e = 0 && d = 0 && x = 0 then t
  else onFp (fun p => { p with
    backAt := t.clk.now, backIng := heldBack p.backIng t + i, backEgr := heldBack p.backEgr t + e
    backDelivery := heldBack p.backDelivery t + d, backTransmit := heldBack p.backTransmit t + x }) t

/-! ## Lookup (R103, R112 to R114) -/

/-- How a walk over the candidates stands. -/
inductive Walk
  | found (idx : Nat)
  | absent
  | reading (rank : Nat)
  | waitRead (rank : Nat)
  deriving DecidableEq, Repr

/-- Walk the candidates from a rank on, serving residents from the cache and starting at most one read. -/
def walk (k : MatchKey) (cands : List Nat) : Nat → Nat → State → Walk × State
  | 0, _, s => (.absent, s)
  | n + 1, r, s =>
    match cands[r]? with
    | none => (.absent, s)
    | some i =>
      if mappedOut i s then walk k cands n (r + 1) s
      else match cacheLine i s with
        | some l =>
          let s := touchLine i s
          if l.entry.quar then walk k cands n (r + 1) s
          else if entryMatches k l.entry then (.found i, s)
          else if l.entry.chain = 0 then (.absent, s)
          else walk k cands n (r + 1) s
        | none =>
          if s.se.reads.contains i then (.reading r, s)
          else if s.se.reads.length < 256 then
            (.reading r, cisternAsk reqMiss (onSe (fun e => { e with reads := e.reads ++ [i], misses := e.misses + 1 }) s))
          else (.waitRead r, s)

def onIng (t : Nat) (f : Ing → Ing) (s : State) : State :=
  onFp (fun x => { x with ing := x.ing.map (fun y => if y.ticket = t then f y else y) }) s
def onEgr (t : Nat) (f : Egr → Egr) (s : State) : State :=
  onFp (fun x => { x with egr := x.egr.map (fun y => if y.ticket = t then f y else y) }) s
def ingOf (t : Nat) (s : State) : Option Ing := s.fp.ing.find? (fun x => x.ticket == t)
def egrOf (t : Nat) (s : State) : Option Egr := s.fp.egr.find? (fun x => x.ticket == t)

end Sys2Proof.Machine
end

