-- ==== Sys2Proof/Machine/Ingress.lean ====
section
/-! DEFINITION. The ingress path: arrival, lookup, tag work, verdict, drop, spill and delivery (chapter 02); its rows are in
FrameRows.lean. -/
namespace Sys2Proof.Machine

/-! ## Spill (R69 to R72) -/

def recSize (flen : Nat) : Nat := (16 + flen + 15) / 16 * 16

def stagingShare : Nat := 8 * 1024 * 1024

/-- The order of a queue (R57): by the release instant, which the last bit fixes, and of one instant the lower port
first. -/
def recBefore (a b : Rec) : Bool := a.rel < b.rel || (a.rel = b.rel && a.port ≤ b.port)

/-- The queue begins to spill: its verdicted records move to its share in release order, returning tickets and cells. A
staged record takes its length rounded up to 16 bytes of the share (DESIGN CHOICE, log 113). -/
def beginSpill (q : Nat) (s : State) : State :=
  returning (fun s => onRxq q (fun x => if x.spilling then x else { x with
    spilling := true
    staged := (x.recs.map (fun r => { r with ticket := none, cells := 0 })).foldl (fun l r => insertBy recBefore r l) x.staged
    stagedBytes := x.stagedBytes + (x.recs.map (fun r => recSize r.flen)).sum
    recs := [] }) s) s

/-- With fewer than 8,192 free cells every queue that holds a record spills (R69). -/
def lowCells (s : State) : State :=
  if freeDelivery s < 8192 then
    (s.fp.rxq.filter (fun e => e.2.recs ≠ [])).foldl (fun s e => beginSpill e.1 s) s
  else s

/-! ## Lookup results -/

def setDone (t : Nat) (code : Code) (s : State) : State :=
  onIng t (fun x => { x with code := some code, stage := .done, doneAt := s.clk.now }) s

/-- The time-bound check with its flag, TFLAG and unchecked counter (R79, R198, R199). A frame that an uncorrectable error
has struck is MALFORMED, a code that is not checked (R78, R79). -/
def applyTimeCheck (t : Nat) (s : State) : State :=
  match ingOf t s with
  | none => s
  | some x =>
    match x.entry, x.bank, x.frame.apdu with
    | some i, some b, some a =>
      let flag (n : Nat) (s : State) : State :=
        dataEntry i (fun e => { e with tflag := min 255 (e.tflag + 1) })
          (onIng t (fun x => { x with flags := x.flags ||| BitVec.twoPow 5 n }) s)
      if x.memErr then s
      else match timeCheck b.tbnd (curEntry i s).wrapLine a x.ts x.snap with
        | .off => s
        | .none => s
        | .unchecked => onTu (fun u => { u with unchecked := wrap1 u.unchecked }) s
        | .late => flag 2 s
        | .early => flag 3 s
    | _, _, _ => s

/-- The frame ends without a job: its code, and the time-bound check. -/
def endWith (t : Nat) (code : Code) (s : State) : State := applyTimeCheck t (setDone t code s)

/-- Give a job to the dispatcher's choice (R147, R164): each lane reads the key row once and latches it; a row that does
not read gives the frame NO_KEY (R166). -/
def dispatchIng (t : Nat) (s : State) : State :=
  match ingOf t s with
  | none => s
  | some x =>
    match x.slot, x.bank, x.frame.apdu with
    | some i, some b, some a =>
      if (failedPumps s).length = 4 then endWith t .noKey s
      else match dispatchTo s with
        | none => s
        | some g =>
          if rowBad i s then badRowFound i (endWith t .noKey s)
          else
            let w := frameWork b.prof a.segs x.sec
            let (l, s) := latchRow i g s
            startJob g w (onIng t (fun x => { x with lanes := g, work := w, latched := l }) s)
    | _, _, _ => s

/-- The stream is found: image, key slot, and the pump job (R78, R111, R131, R147 to R151, R177). A frame without the
extension is AUTH_FAIL (R52); one whose extension is not of the kind the image names (R150) is so once a key is there. -/
def gotEntry (t idx : Nat) (s : State) : State :=
  match ingOf t s with
  | none => s
  | some x =>
    match image (curEntry idx s) x.ts s with
    | some b =>
      let s := onIng t (fun x => { x with entry := some idx, bank := some b }) s
      if x.sec = .none then endWith t .authFail s
      else if (failedPumps s).length = 4 then endWith t .noKey s
      else
        match selectSub b ((extKeyId x.sec).getD 0) (epochAt x.ts s) s with
        | none => endWith t .noKey s
        | some i =>
          let k := kslot i s
          let s := refUp i (onIng t (fun x => { x with slot := some i }) s)
          if k.ktype ≠ ktypeOf b.prof then raise 69 [] (endWith t .noKey s)
          else
            let s := onIng t (fun x => { x with slotEpoch := k.epoch }) s
            if k.notAfter * 1000000000 * 65536 < x.ts then endWith t .keyExpired s
            else if !extFitsPfv b.pfv x.sec then endWith t .authFail s
            else dispatchIng t (onIng t (fun x => { x with stage := .working }) s)
    | none => setDone t .unknownStream s

/-- Take a frame's lookup forward from a rank. -/
def lookupIng (t r : Nat) (s : State) : State :=
  match ingOf t s with
  | none => s
  | some x =>
    match x.key with
    | none => s
    | some k =>
      match walk k x.cands 5 r s with
      | (.found i, s) => gotEntry t i s
      | (.absent, s) => setDone t .unknownStream s
      | (.reading r, s) => onIng t (fun x => { x with stage := .reading r }) s
      | (.waitRead r, s) => onIng t (fun x => { x with stage := .waitRead r }) s

/-! ## Forwarding on an HSR pair (R94, R192, R193) -/

def hsrSeq (f : Frame) : Option Nat := (hsrTag f).map (·.2)

/-- Source bit 0 of the destination address: a group address. -/
def isGroup (d : BitVec 48) : Bool := d.getLsbD 40

/-- Link-local PTP messages of R193. -/
def linkLocal (f : Frame) : Bool :=
  match ptpOf f with
  | some m => m.msgType == 2 || m.msgType == 3 || m.msgType == 0xA
  | none => false

/-- Whether the frame was already forwarded in this direction within 400 ms (R94). -/
def forwardedBefore (q : Pair) (up : Bool) (src : BitVec 48) (seq now : Nat) : Bool :=
  q.marks.any (fun m => m.up == up && m.src == src && m.seq == seq && now < m.at_ + msTicks 400)

/-- A full table loses its oldest entry of the direction. -/
def addMark (q : Pair) (m : FwdMark) : List FwdMark :=
  let l := q.marks
  (if 4096 ≤ l.countP (fun x => x.up == m.up) then l.eraseP (fun x => x.up == m.up) else l) ++ [m]

/-- The UDP checksum, if any, computed anew (R191, R192); a computed 0 is sent as 0xFFFF (R152). -/
def udpFresh (f : Frame) : Frame :=
  { f with ip := f.ip.map (fun i => { i with udp := i.udp.map (fun u =>
    if u.sum = 0 then u
    else { u with sum := if Config.udpSum f = 0 then 0xFFFF else Config.udpSum f, sumOk := true }) }) }

/-- The transparent clock's update (R192): residence time, and LDELAY for a Sync. -/
def correctPtp (port out ts txTick : Nat) (f : Frame) (s : State) : Frame :=
  match ptpOf f with
  | none => f
  | some m =>
    let q := pairOf (port / 2) s
    if q.tcEn && m.msgType < 16 && bitN q.tcMask m.msgType then
      let tx : Int := ((s.tu.time + (txTick - s.clk.now) * tuIncr s.tu.freq) / 2 ^ 32 : Nat) + txLat out (portOf out s).mode s
      let d : Int := tx - ts + (if m.msgType = 0 then ((smGet 0 s.tu.ldelay port : Nat) : Int) else 0)
      udpFresh { f with ptp := some { m with correction := m.correction + d } }
    else f

/-- The order of a port's releases (R90). -/
def lineBefore (a b : LineItem) : Bool := a.at_ < b.at_ || (a.at_ = b.at_ && a.rank ≤ b.rank)

/-- A frame joins a port's order of release: rank 0 is a forwarded frame, 1 + q one of transmit queue q (R90). -/
def joinLine (p at_ rank : Nat) (item : LineFrame) (s : State) : State :=
  onPort p (fun x => { x with line := insertBy lineBefore ⟨at_, rank, item⟩ x.line }) s

def itemBytes (i : LineItem) : Nat :=
  match i.item with
  | .mine _ => 0
  | .forwarded _ _ f => f.len

/-- Forwarded frames at the head of a port's order leave one after another; a local one leaves by TRANSMIT_COMPLETE. -/
def drainLine (p : Nat) : Nat → State → State
  | 0, s => s
  | n + 1, s =>
    match (portOf p s).line with
    | { item := .forwarded port ts f, .. } :: rest =>
      let start := max s.clk.now (portOf p s).freeAt
      let fin := start + byteTicks (portOf p s).mode f.len
      let g := correctPtp port p ts start f s
      let s := onPair (p / 2) (fun q =>
        if port % 2 = 0 then { q with queueUp := q.queueUp ++ [(f.len, fin)] }
        else { q with queueDown := q.queueDown ++ [(f.len, fin)] }) s
      drainLine p n (emit (.wire p true g) (onPort p (fun x => { x with line := rest, freeAt := fin }) s))
    | _ => s

def drainPort (p : Nat) (s : State) : State := drainLine p (portOf p s).line.length s

/-- Forward to the pair's other port, unless the queue is full or that port is down. What counts against the 32 KiB of the
queue is each frame's length with its FCS until its last bit has left the port (DESIGN CHOICE, log 114). -/
def forward (port ts : Nat) (f : Frame) (seq : Nat) (s : State) : State :=
  let out := port / 2 * 2 + (1 - port % 2)
  let up := port % 2 == 0
  let q := pairOf (port / 2) s
  if forwardedBefore q up f.src seq s.clk.now || !portUp out s then s
  else
    let queue := (if up then q.queueUp else q.queueDown).filter (fun e => s.clk.now < e.2)
    let waits := ((portOf out s).line.map itemBytes).sum
    if 32768 < (queue.map (·.1)).sum + waits + f.len then
      raise (40 + port / 2) [] (onPair (port / 2) (fun q => { q with fwdOvf := wrap1 q.fwdOvf }) s)
    else
      let s := onPair (port / 2) (fun q =>
        let q := { q with marks := addMark q { src := f.src, seq := seq, up := up, at_ := s.clk.now } }
        if up then { q with queueUp := queue } else { q with queueDown := queue }) s
      drainPort out (joinLine out s.clk.now 0 (.forwarded port ts f) s)

/-- Whether an HSR port offers a frame for local delivery (R94, R193). -/
def hsrLocal (port : Nat) (f : Frame) (s : State) : Bool :=
  let mac := (pairOf (port / 2) s).nodeMac
  if f.src = mac then false
  else (hsrSeq f).isNone || linkLocal f || f.dst = mac || isGroup f.dst

/-- Whether an HSR port forwards it. -/
def hsrForwards (port : Nat) (f : Frame) (s : State) : Bool :=
  let mac := (pairOf (port / 2) s).nodeMac
  f.src ≠ mac && (hsrSeq f).isSome && !linkLocal f && f.dst ≠ mac

/-! ## Arrival (R43, R44, R60, R66, R532) -/

/-- The MAC error counter of R43, first that applies. -/
def macError (f : Frame) (p : Port) : Option Port :=
  if f.codingError then some { p with coding := wrap1 p.coding }
  else if f.len < 64 then some { p with runts := wrap1 p.runts }
  else if 2000 < f.len then some { p with oversize := wrap1 p.oversize }
  else if !f.fcsOk then some { p with fcsErr := wrap1 p.fcsErr }
  else none

def starve (port : Nat) (s : State) : State :=
  raise (36 + port) [] (onPort port (fun p => { p with starved := wrap1 p.starved }) s)

/-- A frame admitted by its port takes a ticket and cells, in front of higher ports and of egress frames of its clock
(R63, R96), and is classified and looked up. -/
def enterPort (port : Fin 4) (ts sofTick : Nat) (f : Frame) (s : State) : State :=
  let s := inTurn turnTicket 0 port s
  let s := cdcPass (cdcFromLine + port) ((f.len + 7) / 8) s
  let s := onPort port (fun p => { p with admitted := wrap1 p.admitted }) s
  let mode := (pairOf (port / 2) s).mode
  let c := classify port mode f s
  let cells := (16 + c.view.len + 63) / 64
  if !ingressMayTake s || freeDelivery s < cells then starve port s
  else
    let s := if c.wrongLan then onPort port (fun p => { p with wrongLan := wrap1 p.wrongLan }) s else s
    let t := s.fp.nextTicket
    let code : Option Code := if c.fclass = .bypass then some .unprotected else if !c.parseOk then some .malformed else none
    let x : Ing := {
      ticket := t, port := port, frame := c.view, flen := c.view.len, fclass := c.fclass, parseOk := c.parseOk,
      rclass := c.rclass, vtag := c.vtag, ts := ts, sofTick := sofTick, lastBit := s.clk.now, sec := c.sec, hsr := c.hsr
      rct := c.rct, ptpMark := c.ptpMark, key := c.key
      cands := match c.key with | some k => candidates k s | none => []
      snap := snapAt sofTick s, paired := mode != .independent, stage := if code.isSome then .done else .working
      code := code, cells := cells, doneAt := s.clk.now }
    let s := lowCells (onFp (fun y => { y with ing := y.ing ++ [x], nextTicket := y.nextTicket + 1 }) s)
    if code.isSome then s else lookupIng t 0 s

/-! ## Tag work complete (R79, R80, R119 to R122, R149, R150, R155, R160) -/

/-- Shift the window by d positions of two bits (R120). -/
def winShift (w : BitVec 256) (d : Nat) : BitVec 256 := if 128 ≤ d then 0 else w <<< (2 * d)
def winAt (w : BitVec 256) (i : Nat) : Nat := (w >>> (2 * i)).toNat % 4
def winSet (w : BitVec 256) (i v : Nat) : BitVec 256 :=
  (w &&& ~~~ (BitVec.ofNat 256 3 <<< (2 * i))) ||| (BitVec.ofNat 256 v <<< (2 * i))

/-- The replay window (R120): its answer as flag bits, and the entry. -/
def window (e : Entry) (v p : Nat) (paired : Bool) : BitVec 5 × Entry :=
  if !e.primed then (0, { e with seq := v, win := winSet 0 0 (1 + p), primed := true })
  else if e.seq < v then (0, { e with seq := v, win := winSet (winShift e.win (v - e.seq)) 0 (1 + p) })
  else
    let i := e.seq - v
    if 127 < i then (1, e)
    else
      let w := winAt e.win i
      if w = 0 then (0, { e with win := winSet e.win i (1 + p) })
      else if paired && (w = 1 || w = 2) && w ≠ 1 + p then (2, { e with win := winSet e.win i 3 })
      else (1, e)

/-- The frame's sequence value with its modulus (R119). -/
def seqValue (prof : Nat) (c : FClass) (a : Apdu) (x : SecExt) (e : Entry) : Nat :=
  if prof ≠ 0 then
    match x with
    | .iec _ _ _ iv _ => iv.toNat % 2 ^ 64
    | .bluortis _ _ _ _ _ _ ctr _ => ctr.toNat
    | .none => 0
  else match c with
    | .sv => extend e.seq ((a.asdus.head?.map (·.smpCnt)).getD 0) (if e.wrapLine = 0 then 65536 else e.wrapLine)
    | .goose => a.stNum * 2 ^ 32 + a.sqNum
    | _ => extend e.seq (a.spdu % 2 ^ 32) (2 ^ 32)

/-- The secret segments, one per ASDU (R202). -/
def secretDatas (l : List Seg) : List Bytes := (l.filter (·.secret)).map (·.bytes)

def withSegs (f : Frame) (g : List Seg → List Seg) : Frame :=
  { f with apdu := f.apdu.map (fun a => { a with segs := g a.segs }) }

/-- An AUTH_OK frame passes the window and supplies its samples (R80, R120, R203); one that an uncorrectable error has
struck does not, for its code is MALFORMED. Of one clock the lower port's frame is judged first (R122). -/
def acceptFrame (t : Nat) (s : State) : State :=
  match ingOf t s with
  | none => s
  | some x =>
    match x.entry, x.bank, x.frame.apdu with
    | some i, some b, some a =>
      if x.memErr then s
      else
        let s := inTurn turnWindow i x.port s
        let e := curEntry i s
        let (fl, e') := window e (seqValue b.prof x.fclass a x.sec e) (x.port % 2) x.paired
        let s := onIng t (fun x => { x with flags := x.flags ||| fl }) (dataEntry i (fun _ => e') s)
        if fl = 0 && (x.fclass == .sv || x.fclass == .rsv) then
          commitFrame i t x.port x.ts a.asdus (secretDatas a.segs) s
        else s
    | _, _, _ => s

/-- The two lanes' tags and pass bits are compared (R160), the payload is decrypted by the first lane (R155), and the
frame has its code. `errA` and `errB` say what faulty lanes do. -/
def finishIng (x : Ing) (b : Bank) (a : Apdu) (errA errB : LaneFault) (s : State) : State :=
  let key := latchedKey b.prof 0 x.latched
  let tagA := frameTag b.prof key a.segs x.sec ^^^ errA.tag
  let tagB := frameTag b.prof (latchedKey b.prof 1 x.latched) a.segs x.sec ^^^ errB.tag
  let okA := (tagA == extTag x.sec) != errA.pass
  let okB := (tagB == extTag x.sec) != errB.pass
  let differ := x.lanes.length = 2 && (tagA ≠ tagB || okA ≠ okB)
  let code : Code := if differ then .laneMismatch else if okA && extFitsProf b.prof x.sec then .authOk else .authFail
  let s := endJob x.lanes x.work s
  let s := if differ then laneMismatch x.lanes s else s
  let s := if b.prof = 3 then
      onIng x.ticket (fun y => { y with frame := withSegs x.frame (fun l => cryptSegs key x.sec l) }) s
    else s
  let s := setDone x.ticket code s
  let s := if code = .authOk then acceptFrame x.ticket s else s
  applyTimeCheck x.ticket s

/-! ## Verdict (R54, R55, R73 to R83) -/

def codeNo (c : Code) : Nat :=
  match c with
  | .authOk => 0
  | .authFail => 1
  | .unknownStream => 2
  | .noKey => 3
  | .keyExpired => 4
  | .malformed => 5
  | .laneMismatch => 6
  | .unprotected => 7

/-- The queue of a frame: its entry's, else the port's default map (R54). -/
def steer (x : Ing) (c : Code) (s : State) : Nat :=
  match x.bank with
  | some b => b.rxq
  | none =>
    let p := portOf x.port s
    match c with
    | .unknownStream => p.mapUnknown
    | .malformed => p.mapMalformed
    | _ => p.mapUnprot

/-- The mask bit that drops a record: the code's, else the lowest set flag's (R82). -/
def dropBy (mask : Nat) (c : Code) (fl : BitVec 5) : Option (Bool × Nat) :=
  if bitN mask (codeNo c) then some (true, codeNo c)
  else ((List.range 5).find? (fun i => fl.getLsbD i && bitN mask (8 + i))).map (fun i => (false, i))

/-- A record enters its queue at its place (R57): staged or overflowed while the queue spills, else in memory. A discard
counts as the first one again, and raises the event, after the share has been empty or the queue disabled (DESIGN CHOICE,
log 113). -/
def enqueueRec (q : Nat) (r : Rec) (s : State) : State :=
  let x := rxqOf q s
  if x.spilling then
    if stagingShare < x.stagedBytes + recSize r.flen then
      let s := onRxq q (fun x => { x with overflow := wrap1 x.overflow, ovfRaised := true }) s
      if x.ovfRaised then s else raise 65 [] s
    else onRxq q (fun x => { x with
      staged := insertBy recBefore { r with ticket := none, cells := 0 } x.staged
      stagedBytes := x.stagedBytes + recSize r.flen }) s
  else lowCells (onRxq q (fun x => { x with recs := insertBy recBefore r x.recs }) s)

/-- The code of a verdict (R78). A frame that an uncorrectable error struck in delivery memory is MALFORMED whatever its
class: R68 says so of every record, and is read to go before the order of R78 for a bypass frame (DEDUCED, log 115). -/
def finalCode (x : Ing) : Code := if x.memErr then .malformed else x.code.getD .malformed

/-- The frame as the host gets it: of PROF 3, every encrypted byte zero unless the code is AUTH_OK (R155). -/
def finalFrame (x : Ing) : Frame :=
  if (match x.bank with | some b => b.prof == 3 | none => false) && finalCode x ≠ .authOk then withSegs x.frame zeroSecret
  else x.frame

/-- The verdict is written at a tick (R75 to R83): answer, books, reference, steering, drop, record. -/
def writeVerdict (x : Ing) (late : Bool) (at_ : Nat) (s : State) : State :=
  let c := finalCode x
  let (ans, s) := frameAnswer x s
  let fl := if ans = .inconsistent then x.flags ||| BitVec.twoPow 5 4 else x.flags
  let s := match x.entry with
    | some i => dataEntry i (fun e => if c = .authOk then { e with good := wrap1 e.good } else { e with bad := min 65535 (e.bad + 1) }) s
    | none => s
  let q := steer x c s
  let s := match x.slot with
    | some i => refDown i s
    | none => s
  let s := if late then raise 64 [] (onRxq q (fun x => { x with late := wrap1 x.late }) s) else s
  let s := if x.corrs = 0 then s else onRxq q (fun y => { y with corrected := (y.corrected + x.corrs) % 2 ^ 32 }) s
  let o := rxqOf q s
  let v : Verdict := {
    ver := o.vfmt, code := c, flags := fl, corr := o.vfmt = 2 && x.corrs ≠ 0, cinc := o.vfmt = 2 && ans = .incomplete
    memerr := o.vfmt = 2 && x.memErr, len := x.flen, ts := x.ts, stream := x.entry.getD 0xFFFFFF, port := x.port
    rclass := x.rclass, fclass := fclassNo x.fclass, vtag := x.vtag
    epoch := if x.slot.isSome then x.slotEpoch % 65536 else 0 }
  returning (fun s =>
    let s := onFp (fun f => { f with ing := f.ing.filter (fun y => y.ticket ≠ x.ticket) }) s
    if o.size = 0 then onRxq q (fun x => { x with overflow := wrap1 x.overflow }) s
    else match dropBy o.drop c fl with
      | some (true, i) => onRxq q (fun x => { x with dropCode := smMod 0 x.dropCode i wrap1 }) s
      | some (false, i) => onRxq q (fun x => { x with dropFlag := smMod 0 x.dropFlag i wrap1 }) s
      | none => enqueueRec q {
          verdict := v, frame := finalFrame x, flen := x.flen, port := x.port, rel := x.lastBit, at_ := at_
          ticket := some x.ticket, cells := x.cells } s) s

/-- First tick of the release instant, 1,120 ns less 16 ns after the last bit, and the last, 16 ns after it (R73). -/
def relFirst : Nat := 276
def relLast : Nat := 284

/-- The work was done by the release instant (R73, R74). -/
def onTime (x : Ing) : Bool := x.doneAt ≤ x.lastBit + relLast

/-- A verdict whose instant has gone by: it is written at its instant if the work was done in time, else when the work
was done. -/
def verdictDue (x : Ing) (s : State) : Bool :=
  x.stage = .done && (if onTime x then x.lastBit + relLast < s.clk.now else x.doneAt < s.clk.now)

/-- The instant at which such a verdict was written: 1,120 ns after the last bit, or the end of the work. -/
def writtenAt (x : Ing) : Nat := if onTime x then x.lastBit + 280 else x.doneAt

/-- The verdicts whose instants have gone by, in their order. -/
def verdictsDue (s : State) : State :=
  (sortBy (fun a b => writtenAt a < writtenAt b || (writtenAt a = writtenAt b && a.port ≤ b.port))
    (s.fp.ing.filter (fun x => verdictDue x s))).foldl (fun s x => writeVerdict x (!onTime x) (writtenAt x) s) s

/-! ## Delivery (R56, R57, R62, R67 to R71, R237 to R239) -/

/-- Ring space for a record: an open buffer or a posted one that holds it, and a completion entry (R238, R523). -/
def ringSpace (x : RxQ) (size : Nat) : Bool :=
  x.size ≠ 0 && x.csize ≠ 0 && (x.ctail + 1) % x.csize ≠ x.chead &&
  (match x.bufs with
   | (_, n) :: _ => x.bufUsed + size ≤ n
   | [] => false)

/-- A frame still without its verdict may become a record of the queue: the queue of its entry, or that of its code; of
one whose code is open yet, any queue (log 109). -/
def mayJoin (q : Nat) (y : Ing) (s : State) : Bool :=
  if y.bank.isSome || y.code.isSome || y.memErr then steer y (finalCode y) s == q else true

/-- A record stands behind a verdict slot that is not valid yet (R67): that of an earlier frame of its queue. -/
def stalled (q : Nat) (r : Rec) (s : State) : Bool :=
  s.fp.ing.any (fun y => (y.lastBit < r.rel || (y.lastBit = r.rel && y.port.val < r.port)) && mayJoin q y s)

/-- The record a queue delivers next: the oldest staged one, else the oldest in delivery memory (R70). -/
def headRec (x : RxQ) : Option Rec := x.staged.head?.or x.recs.head?

/-- The queue has a record to move (R67, R238). -/
def readyHead (q : Nat) (s : State) : Bool :=
  match headRec (rxqOf q s) with
  | some r => !pcieDown s && ringSpace (rxqOf q s) (recSize r.flen) && !stalled q r s
  | none => false

/-- The queue whose record the PCIe delivery queue takes next: round robin over the queues with one to move, one record a
turn (R96). `rrQueue` is the first queue of the next turn. -/
def nextQueue (s : State) : Option Nat :=
  let ks := (s.fp.rxq.map (·.1)).filter (fun q => readyHead q s)
  (ks.find? (fun k => s.fp.rrQueue ≤ k)).or ks.head?

/-- The record's verdict after an uncorrectable error (R68, R71). -/
def spoil (v : Verdict) : Verdict := { v with code := .malformed, memerr := v.ver = 2 }

/-- The word an uncorrectable error struck holds an open value (log 32): the first payload word. -/
def garble (v : Nat) (f : Frame) : Frame :=
  match f.apdu with
  | none => { f with rest := xorBytes (f.rest.take 8) (natLE 8 v) ++ f.rest.drop 8 }
  | some a => { f with apdu := some { a with segs := match a.segs with
      | g :: r => { g with bytes := xorBytes (g.bytes.take 8) (natLE 8 v) ++ g.bytes.drop 8 } :: r
      | [] => [] } }

/-- The verdict word as laid out (R75): LEN in format 1, TS_FRAC in format 2. -/
def verdictBytes (v : Verdict) : Bytes :=
  natLE 1 (v.ver + 16 * codeNo v.code) ++ natLE 1 (v.flags.toNat + 32 * b2n v.corr + 64 * b2n v.cinc + 128 * b2n v.memerr) ++
    natLE 2 (if v.ver = 2 then v.ts % 65536 else v.len) ++ natLE 4 (v.ts / 65536 % 1000000000) ++
    natLE 2 (v.ts / 65536 / 1000000000) ++ natLE 3 v.stream ++
    natLE 1 (v.port + 4 * v.rclass + 16 * v.fclass + 128 * b2n v.vtag) ++ natLE 2 v.epoch

/-- A receive completion as laid out (R239). -/
def rxCompletionBytes (desc offs flen : Nat) (phase bufdone : Bool) : Bytes :=
  natLE 2 desc ++ natLE 2 offs ++ natLE 2 flen ++ natLE 1 (b2n phase + 2 * b2n bufdone) ++ [0]

/-- Move one record to the open buffer, rewrite its verdict word there if an error struck it on the way (R68), then write
its completion (R56, R239). -/
def moveRec (q : Nat) (r : Rec) (rewrite : Option Verdict) (s : State) : State :=
  let x := rxqOf q s
  let size := recSize r.flen
  let opening := x.bufUsed = 0
  let desc := if opening then x.dhead else (x.dhead + x.size - 1) % x.size
  let (base, cap) := x.bufs.headD (0, 0)
  let used := x.bufUsed + size
  let closes := decide (cap < used + 2016)
  let next := (x.ctail + 1) % x.csize
  let addr := base + x.bufUsed
  let s := emit (.dma addr (verdictBytes r.verdict))
    (emit (.record addr q desc (x.bufUsed / 16) r.flen x.phase closes r.verdict r.frame) s)
  let s := match rewrite with
    | some v => emit (.dma addr (verdictBytes v)) (emit (.rewrite q v) s)
    | none => s
  let s := emit (.dma (x.cbase + 8 * x.ctail) (rxCompletionBytes desc (x.bufUsed / 16) r.flen x.phase closes)) s
  let s := cdcPass cdcToPcie (size / 16 + 1) s
  let s := onRxq q (fun x => { x with
    dhead := if opening then (x.dhead + 1) % x.size else x.dhead
    bufs := if closes then x.bufs.drop 1 else x.bufs
    bufUsed := if closes then 0 else used
    ctail := next
    phase := if next = 0 then !x.phase else x.phase
    delivered := wrap1 x.delivered }) s
  let s := onFp (fun f => { f with rrQueue := q + 1 }) s
  if x.intMask then s else msix x.vector s

/-- Staged records that could be drawn now ask the cistern for it (R26, R70). -/
def askDraws (s : State) : State :=
  if s.fp.rxq.any (fun e => e.2.staged ≠ [] && readyHead e.1 s) then cisternAsk reqDraw s else s

/-- A disabled queue gives back everything it holds (R531). -/
def disableRxq (q : Nat) (s : State) : State :=
  returning (onRxq q (fun x => { x with
    size := 0, overflow := (x.overflow + x.recs.length + x.staged.length) % 2 ^ 32, recs := [], staged := []
    stagedBytes := 0, spilling := false, ovfRaised := false, bufs := [], bufUsed := 0, dtail := 0, dhead := 0 })) s

/-! ## Frames in flight on a port that goes down (R91) -/

def dropIngress (p : Nat) (s : State) : State :=
  let gone := s.fp.ing.filter (fun x => x.port.val == p)
  let s := gone.foldl (fun s x =>
    let s := match x.slot with
      | some i => refDown i s
      | none => s
    if x.stage = .working && x.lanes ≠ [] then endJob x.lanes x.work s else s) s
  let s := returning (onFp (fun f => { f with ing := f.ing.filter (fun x => x.port.val ≠ p) })) s
  onPort p (fun x => { x with admitted := (x.admitted + 2 ^ 32 - gone.length) % 2 ^ 32 }) s

end Sys2Proof.Machine
end

