-- ==== Sys2Proof/Machine/Egress.lean ====
section
/-! DEFINITION. The egress path: descriptors, counters, jobs, release, completion, entry reads, and the passing of time on
the frame path (R61, R86 to R93, R103, R125 to R127, R147, R157, R158, R240, R241); its rows are in FrameRows.lean. -/
namespace Sys2Proof.Machine

/-! ## Completions (R62, R88, R241) -/

def txStatusNo (t : TxStatus) : Nat :=
  match t with
  | .sent => 0
  | .sentOne => 1
  | .noEntry => 2
  | .noKey => 3
  | .keyExpired => 4
  | .wrapRefused => 5
  | .malformed => 6
  | .laneMismatch => 7
  | .portDown => 8

/-- A time stamp of a transmit completion: nanoseconds, seconds modulo 65,536, fraction (R241). -/
def stampBytes (t : Nat) : Bytes := natLE 4 (t / 65536 % 1000000000) ++ natLE 2 (t / 65536 / 1000000000) ++ natLE 2 t

/-- A transmit completion as laid out (R241). -/
def txCompletionBytes (phase : Bool) (c : TxComp) : Bytes :=
  natLE 2 c.desc ++ natLE 1 (txStatusNo c.status) ++ natLE 1 ((c.ports.map (2 ^ ·)).sum + 16 * b2n phase) ++ stampBytes c.tsA ++
    stampBytes c.tsB ++ natLE 8 c.counter ++ List.replicate 4 0

/-- Write completions in descriptor order while the host has returned entries; a refused frame's ticket returns here. -/
def flushTx (q : Nat) : Nat → State → State
  | 0, s => s
  | n + 1, s =>
    let x := txqOf q s
    match x.order with
    | (d, some c) :: rest =>
      if pcieDown s || x.csize = 0 || (x.ctail + 1) % x.csize = x.chead then s
      else
        let next := (x.ctail + 1) % x.csize
        let s := emit (.dma (x.cbase + 32 * x.ctail) (txCompletionBytes x.phase c)) (emit (.txComp q x.phase c) s)
        let s := cdcPass cdcToPcie 2 s
        let s := onTxq q (fun x => { x with
          order := rest, ctail := next, phase := if next = 0 then !x.phase else x.phase
          status := smMod 0 x.status (txStatusNo c.status) wrap1 }) s
        let s := returning (onFp (fun f => { f with
          egr := f.egr.filter (fun y => !(y.q.val = q && y.desc = d && y.stage = .refused)) })) s
        flushTx q n (if x.intMask then s else msix x.vector s)
    | _ => s

def completeTx (q : Nat) (c : TxComp) (s : State) : State :=
  let s := if (txqOf q s).order.any (fun e => e.1 = c.desc) then s
    else returning (onFp (fun f => { f with
      egr := f.egr.filter (fun y => !(y.q.val = q && y.desc = c.desc && y.stage = .refused)) })) s
  let s := onTxq q (fun x => { x with order := x.order.map (fun e => if e.1 = c.desc && e.2.isNone then (e.1, some c) else e) }) s
  flushTx q (txqOf q s).order.length s

/-- A queue that is disabled forgets its descriptors: frames in transmit memory are still sent, and their completions
are discarded (R487; log 49). -/
def forgetTx (q : Nat) (s : State) : State :=
  returning (onFp (fun f => { f with
    egr := (f.egr.filter (fun y => !(y.q.val = q && y.stage = .refused))).map (fun y =>
      if y.q.val = q then { y with desc := 65536 } else y) }))
    (onTxq q (fun y => { y with descs := [], order := [], waiting := false }) s)

/-- A refusal (R88): counted in the entry, its reference released (R132), completed in descriptor order. -/
def refuseEgr (t : Nat) (st : TxStatus) (s : State) : State :=
  match egrOf t s with
  | none => s
  | some x =>
    let s := match x.entry with
      | some i => dataEntry i (fun e => { e with bad := min 65535 (e.bad + 1) }) s
      | none => s
    let s := match x.slot with
      | some i => refDown i s
      | none => s
    let s := onEgr t (fun x => { x with stage := .refused, refusal := some st, slot := none, latched := [] }) s
    completeTx x.q { desc := x.desc, status := st, ports := [], tsA := 0, tsB := 0, counter := x.counter } s

/-- LEN and PAIR of R240, and the one-step conditions of R191. -/
def descBad (d : TxDesc) (s : State) : Bool :=
  d.len < 14 || 1996 < d.len ||
  (d.pair && (pairOf (d.port / 2) s).mode == .independent) ||
  (d.oneStep && !(d.bypass && !d.pair && (match ptpOf d.frame with | some m => m.msgType == 0 | none => false)))

/-- Whether the posted frame has a place for the extension (R88): a protected class that parses, with none yet. -/
def insertable (c : Cls) : Bool :=
  c.fclass != .bypass && c.parseOk && c.view.apdu.isSome && c.sec == .none

def postedClass (f : Frame) (s : State) : Cls := classify 0 .independent { f with len := f.len + 4 } s

/-! ## Signing (R87, R88, R109, R125, R131, R149, R151 to R160) -/

/-- Bytes of the extension: 36 in PFV 1; in PFV 0 as the standards lay it out (log 33). -/
def extLength (pfv prof : Nat) : Nat := if pfv = 1 then 36 else iecLength prof

def extMade (pfv prof keyId : Nat) (salt counter : Nat) (tag : BitVec 128) : SecExt :=
  if pfv = 1 then .bluortis 0xB7 34 1 prof keyId (BitVec.ofNat 32 salt) (BitVec.ofNat 64 counter) tag
  else if prof = 0 then .iec (iecLength 0) .hmacSha256x128 keyId 0 tag
  else .iec (iecLength prof) .aesGmac128 keyId (BitVec.ofNat 96 (salt * 2 ^ 64 + counter)) tag

/-- Wire length: padding to the minimum, the FCS, and an RCT or HSR tag (R92, R93, R240). -/
def wireLen (d : TxDesc) (len : Nat) (s : State) : Nat :=
  match (pairOf (d.port / 2) s).mode with
  | .independent => max len 60 + 4
  | .prp => if d.pair then max (len + 6) 60 + 4 else max len 60 + 4
  | .hsr => max (len + 6) 60 + 4

/-- The length fields and checksums the device writes once n bytes are inserted (R152): the UDP checksum is computed and
never sent as 0. -/
def freshIp (n : Nat) (f : Frame) : Frame :=
  let g : Frame := { f with ip := f.ip.map (fun i => { i with len := i.len + n, udp := i.udp.map (fun u => { u with len := u.len + n, sum := 1 }) }) }
  udpFresh { g with ip := g.ip.map (fun i =>
    if i.v6 then i else { i with hdrSum := Config.hdrSum g, hdrSumOk := true }) }

/-- The extension of n bytes stands in its place, and the length fields that cover it count it (R152). -/
def setApdu (c : FClass) (n : Nat) (f : Frame) (segs : List Seg) (x : SecExt) : Frame :=
  { f with apdu := f.apdu.map (fun a => { a with
    segs := segs
    lens := a.lens.map (fun l => if l.covers then { l with value := l.value + n, room := l.room + n } else l)
    sec := if c = .rsv || c = .rgoose then a.sec else x
    sig := if c = .rsv || c = .rgoose then x else a.sig }) }

/-- A frame of wire length `len` with n bytes of it inserted behind the posted ones, the rest of it zero padding in front
of an RCT and the FCS (R92, R240); `room` is what an RCT or an HSR tag takes. -/
def padded (posted len room : Nat) (f : Frame) : Frame :=
  { f with len := len, fcsOk := true, pad := f.pad ++ List.replicate (len - 4 - room - posted) 0 }

/-- What the redundancy field of a frame takes (R92, R93). -/
def fieldRoom (d : TxDesc) (s : State) : Nat :=
  match (pairOf (d.port / 2) s).mode with
  | .independent => 0
  | .prp => if d.pair then 6 else 0
  | .hsr => 6

/-- The nonce guard of a lane (R158), in the profiles that have an IV. -/
def withheld (prof counter resend : Nat) (fault : Bool) : Bool :=
  prof ≠ 0 && (fault || resend ≤ counter || counter = 2 ^ 64 - 1)

/-- The egress job's tags are complete: nonce guards, lane compare, the extension, and the frame as it is to be sent
(R152, R155, R158, R160). The reference and the latched shares are released (R132, R164). Where several causes of a
refusal hold, the guards and the compare go before the length (DESIGN CHOICE, log 116). -/
def signEgr (x : Egr) (s : State) : State :=
  match x.entry, x.bank, x.d.frame.apdu with
  | some i, some b, some a =>
    let t := x.ticket
    let s := endJob x.lanes x.work s
    let s := match x.slot with
      | some n => refDown n s
      | none => s
    let s := onEgr t (fun y => { y with slot := none, latched := [] }) s
    let keyId := match x.slot with | some n => (kslot n s).keyId | none => 0
    let n := extLength b.pfv b.prof
    let x0 := extMade b.pfv b.prof keyId b.salt x.counter 0
    let lane (k : Nat) : List Seg × BitVec 128 :=
      let key := latchedKey b.prof k x.latched
      let segs := if b.prof = 3 then cryptSegs key x0 a.segs else a.segs
      (segs, frameTag b.prof key segs x0)
    let resend := (curEntry i s).resend
    let two := x.lanes.length = 2
    let tagA := (lane 0).2 ^^^ x.fault.errA
    let wA := withheld b.prof x.counter resend x.fault.guardA
    let wB := withheld b.prof x.counter resend x.fault.guardB
    let guarded := wA || (two && wB)
    let s := if guarded then raise 70 [i] s else s
    if wA && (!two || wB) then refuseEgr t .wrapRefused s
    else if guarded then refuseEgr t .laneMismatch s
    else if two && tagA ≠ (lane 1).2 ^^^ x.fault.errB then refuseEgr t .laneMismatch (laneMismatch x.lanes s)
    else
      let len := wireLen x.d (x.d.len + n) s
      if 2000 < len then refuseEgr t .malformed s
      else
        let c := classOf x.d.frame
        let f := setApdu c n x.d.frame (lane 0).1 (extMade b.pfv b.prof keyId b.salt x.counter tagA)
        let f := if c = .rsv || c = .rgoose then freshIp n f else f
        onEgr t (fun y => { y with
          out := some (padded (x.d.len + n) len (fieldRoom x.d s) f), stage := .signed, doneAt := x.readyAt }) s
  | _, _, _ => s

/-- Give an egress job to the dispatcher's choice (R147, R164, R166): when every queue is full it waits. -/
def dispatchEgr (t : Nat) (s : State) : State :=
  match egrOf t s with
  | none => s
  | some x =>
    match x.slot, x.bank, x.d.frame.apdu with
    | some i, some b, some a =>
      if (failedPumps s).length = 4 then refuseEgr t .noKey s
      else match dispatchTo s with
        | none => onEgr t (fun y => { y with stage := .waitJob }) s
        | some g =>
          if rowBad i s then badRowFound i (refuseEgr t .noKey s)
          else
            let w := frameWork b.prof a.segs (extMade b.pfv b.prof 0 b.salt x.counter 0)
            let (l, s) := latchRow i g s
            let s := startJob g w s
            onEgr t (fun y => { y with
              stage := .working, lanes := g, work := w, latched := l
              readyAt := s.clk.now + pumpTicks (groupWork g s + jobTail b.prof) }) s
    | _, _, _ => s

/-- Jobs that found every queue full are given out: ingress in port order, then egress (R147, R178). -/
def dispatchWaiting (s : State) : State :=
  let ing := (s.fp.ing.filter (fun x => x.stage == .working && x.lanes == []))
  let s := (sortBy (fun a b => a.port ≤ b.port) ing).foldl (fun s x => dispatchIng x.ticket s) s
  (s.fp.egr.filter (fun x => x.stage == .waitJob)).foldl (fun s x => dispatchEgr x.ticket s) s

/-- The data of a frame is in transmit memory and its lookup is over: entry, counter, image, key and pumps, in the order
of R87. Of the frames of one entry that draw in one clock, the lower queue's draws first (R127). -/
def startSign (t : Nat) (s : State) : State :=
  match egrOf t s with
  | none => s
  | some x =>
    match x.refusal with
    | some r => refuseEgr t r s
    | none =>
      if x.d.bypass then
        let len := wireLen x.d x.d.len s
        if 2000 < len then refuseEgr t .malformed s
        else onEgr t (fun y => { y with
          out := some (padded x.d.len len (fieldRoom x.d s) x.d.frame), stage := .signed, doneAt := s.clk.now }) s
      else match x.entry with
        | none => refuseEgr t .noEntry s
        | some i =>
          let s := inTurn turnCounter i x.q s
          let now := ptp16 s
          match image (curEntry i s) now s with
          | none => refuseEgr t .noEntry s
          | some b =>
            match drawCounter i s with
            | (none, s) => refuseEgr t .wrapRefused s
            | (some v, s) =>
              let s := onEgr t (fun y => { y with counter := v, bank := some b }) s
              if (failedPumps s).length = 4 then refuseEgr t .noKey s
              else match selectPub b (epochAt now s) s with
              | none => refuseEgr t .noKey s
              | some slot =>
                let k := kslot slot s
                let s := refUp slot (onEgr t (fun y => { y with slot := some slot }) s)
                if k.ktype ≠ ktypeOf b.prof then refuseEgr t .noKey (raise 69 [] s)
                else if k.notAfter * 1000000000 * 65536 < now then refuseEgr t .keyExpired s
                else dispatchEgr t s

/-- Work goes on as soon as both the data and the lookup are there. -/
def signWhenReady (t : Nat) (s : State) : State :=
  match egrOf t s with
  | some x => if x.stage = .fetching && x.lastByte.isSome then startSign t s else s
  | none => s

/-! ## Descriptor fetch (R61, R86, R107) -/

/-- Take a lookup forward; it ends in `fetching` with the entry, or with the refusal NO_ENTRY, and the signing begins when
the data is there. -/
def lookupEgr (t r : Nat) (s : State) : State :=
  match egrOf t s with
  | none => s
  | some x =>
    match x.key with
    | none => s
    | some k =>
      match walk k x.cands 5 r s with
      | (.found i, s) => signWhenReady t (onEgr t (fun x => { x with entry := some i, stage := .fetching }) s)
      | (.absent, s) => signWhenReady t (onEgr t (fun x => { x with refusal := some .noEntry, stage := .fetching }) s)
      | (.reading r, s) => onEgr t (fun x => { x with stage := .reading r }) s
      | (.waitRead r, s) => onEgr t (fun x => { x with stage := .waitRead r }) s

/-- Fetch the head descriptor: its frame takes a ticket, or the descriptor stays (R61). -/
def fetchDesc (q : Fin 64) (s : State) : State :=
  let x := txqOf q s
  match x.descs with
  | [] => s
  | d :: rest =>
    if x.size = 0 || pcieDown s then s
    else if !egressMayTake s then onTxq q (fun x => { x with waiting := true }) s
    else
      let s := cdcPass cdcFromPcie 1 s
      let t := s.fp.nextTicket
      let c := postedClass d.frame s
      let bad := descBad d s || (!d.bypass && !insertable c)
      let key := if d.bypass || bad then none else c.key.map (fun k => { k with publish := true })
      let cands := match key with
        | none => []
        | some k => if d.stream = 0xFFFFFF then candidates k s else [d.stream]
      let cells := (d.len + 63) / 64
      let e : Egr := {
        ticket := t, q := q, desc := x.dhead, d := d, stage := .fetching, key := key, cands := cands
        refusal := if bad then some .malformed else none
        cells := if cells ≤ freeTransmit s then cells else 0 }
      let s := onTxq q (fun x => { x with
        descs := rest, waiting := false, dhead := (x.dhead + 1) % x.size, order := x.order ++ [(x.dhead, none)] }) s
      let s := onFp (fun f => { f with egr := f.egr ++ [e], nextTicket := f.nextTicket + 1 }) s
      if key.isSome then lookupEgr t 0 s else s

/-! ## Release (R89 to R93) -/

def nextSeq (n : Nat) : Nat := (n + 1) % 65536

/-- The frame as one port sends it: HSR tag or RCT with the pair's number (R92, R93). -/
def dress (d : TxDesc) (p seq : Nat) (m : PairMode) (f : Frame) : Frame :=
  match m with
  | .hsr => { f with tags := f.tags ++ [.hsr (p % 2) seq] }
  | .prp =>
    if d.pair then { f with rct := some { seq := seq, lan := lanOf p, size := lsduSize f.len (f.tags.filter isVlan).length, suffix := 0x88FB } }
    else f
  | .independent => f

/-- The ports a descriptor names (R240). -/
def namedPorts (d : TxDesc) : List Nat :=
  let pr := d.port.val / 2
  if d.pair then [2 * pr, 2 * pr + 1] else [d.port.val]

/-- Release to every named port that is up; the frame joins the order of release of each (R90). The device sends no
supervision frames of its own: the spec names none (DESIGN CHOICE, log 117). -/
def releaseEgr (x : Egr) (late : Bool) (at_ : Nat) (s : State) : State :=
  let pr := x.d.port.val / 2
  let ups := (namedPorts x.d).filter (fun p => portUp p s)
  let s := if late then raise 64 [] (onTxq x.q (fun q => { q with lateRel := wrap1 q.lateRel }) s) else s
  if ups = [] then refuseEgr x.ticket .portDown s
  else
    let m := (pairOf pr s).mode
    let seq := (pairOf pr s).seq
    let counts := m = .hsr || (m = .prp && x.d.pair)
    let s := if counts then onPair pr (fun q => { q with seq := nextSeq q.seq }) s else s
    let y := { x with stage := .released, toSend := ups, out := x.out.map (fun f => dress x.d 0 seq m f) }
    ups.foldl (fun s p => joinLine p at_ (1 + x.q) (.mine x.ticket) s)
      (onFp (fun f => { f with egr := f.egr.filter (fun z => z.ticket ≠ x.ticket) ++ [y] }) s)

/-- First and last tick of the release instant, 760 ns ± 16 ns after the last byte (R89). -/
def egrFirst : Nat := 186
def egrLast : Nat := 194

/-- The frame has left its last port: books, ticket, completion. -/
def finishEgr (x : Egr) (s : State) : State :=
  let sent := if x.sent.length = 2 && (x.sent.headD (0, 0)).1 > ((x.sent.getD 1 (0, 0)).1) then x.sent.reverse else x.sent
  let st : TxStatus := if sent = [] then .portDown else if x.d.pair && sent.length = 1 then .sentOne else .sent
  let s := match x.entry with
    | some i => dataEntry i (fun e => if st = .portDown then { e with bad := min 65535 (e.bad + 1) } else { e with good := wrap1 e.good }) s
    | none => s
  let s := returning (onFp (fun f => { f with egr := f.egr.filter (fun z => z.ticket ≠ x.ticket) })) s
  completeTx x.q {
    desc := x.desc, status := st, ports := sent.map (·.1), tsA := ((sent.map (·.2)).head?).getD 0
    tsB := ((sent.map (·.2))[1]?).getD 0, counter := x.counter } s

/-- The one-step rewrite of a Sync (R191). -/
def oneStepPtp (ts : Nat) (f : Frame) : Frame :=
  udpFresh { f with ptp := f.ptp.map (fun m => { m with
    originSec := ts / 65536 / 1000000000 % 2 ^ 48, originNs := ts / 65536 % 1000000000
    correction := m.correction + ((ts % 65536 : Nat) : Int) }) }

/-- The wire form of one port: its path or LAN identifier. -/
def forPort (p : Nat) (f : Frame) : Frame :=
  { f with
    tags := f.tags.map (fun t => match t with | .hsr _ q => .hsr (p % 2) q | .vlan a b => .vlan a b)
    rct := f.rct.map (fun r => { r with lan := lanOf p }) }

/-- A frame is given up on one of its ports. -/
def giveUp (x : Egr) (p : Nat) (s : State) : State :=
  let y := { x with toSend := x.toSend.filter (· ≠ p) }
  if y.toSend = [] then finishEgr y s else onEgr x.ticket (fun _ => y) s

/-- Frames released to a port that goes down are lost there, the forwarded ones among them (R91). -/
def dropEgress (p : Nat) (s : State) : State :=
  let hit := s.fp.egr.filter (fun x => x.stage = .released && x.toSend.contains p)
  hit.foldl (fun s x => giveUp x p s) (onPort p (fun x => { x with line := [] }) s)

/-- A change of a pair's mode discards every frame in flight to its ports as PORT_DOWN, whatever its stage (R91). -/
def dropUnsent (pr : Nat) (s : State) : State :=
  let hit := s.fp.egr.filter (fun x => x.d.port.val / 2 = pr && x.stage ≠ .released && x.stage ≠ .refused)
  dispatchWaiting (hit.foldl (fun s x =>
    refuseEgr x.ticket .portDown (if x.stage = .working then endJob x.lanes x.work s else s)) s)

/-- Bring a port's link in line with its mode, its partner, the line reference and the boundary register (R43, R91,
R484, R503): the event, and the egress frames of a port that goes down. -/
def relink (p : Nat) (s : State) : State :=
  let x := portOf p s
  let up := x.mode ≠ 0 && x.linkIn && s.plat.refLine && !pinsTaken s
  if x.link = up then s
  else
    let s := raise (32 + p) [p] (onPort p (fun x => { x with link := up }) s)
    if up then s else dropEgress p s

/-- Every port and the PCIe link after a change of what holds them (R484, R487, R503). -/
def relinkAll (s : State) : State :=
  let s := onPlat (fun p => { p with pcieL0 := p.pcieRef && !p.pcieReset && !pinsTaken s }) s
  [0, 1, 2, 3].foldl (fun s p => relink p s) s

/-! ## Time on the frame path (R73, R74, R89, R138) -/

/-- Jobs whose tags are complete by now are compared and signed, in the order of their completion. -/
def jobsDue (s : State) : State :=
  (sortBy (fun a b => a.readyAt ≤ b.readyAt) (s.fp.egr.filter (fun x => x.stage = .working && x.readyAt ≤ s.clk.now))).foldl
    (fun s x => dispatchWaiting (signEgr x s)) s

/-- The work was done by the release instant (R89). -/
def egrOnTime (x : Egr) : Bool := match x.lastByte with | some l => x.doneAt ≤ l + egrLast | none => false

/-- A release whose instant has gone by. -/
def releaseDue (x : Egr) (s : State) : Bool :=
  x.stage = .signed && (match x.lastByte with
    | some l => if egrOnTime x then l + egrLast < s.clk.now else x.doneAt < s.clk.now
    | none => false)

def releaseAt (x : Egr) : Nat := if egrOnTime x then x.lastByte.getD 0 + 190 else x.doneAt

/-- The releases whose instants have gone by, in their order (R89, R90). -/
def releasesDue (s : State) : State :=
  (sortBy (fun a b => releaseAt a < releaseAt b || (releaseAt a = releaseAt b && a.q ≤ b.q))
    (s.fp.egr.filter (fun x => releaseDue x s))).foldl (fun s x => releaseEgr x (!egrOnTime x) (releaseAt x) s) s

/-- Jobs that are done, and the verdicts and the releases whose instants have gone by. -/
def framesDue (s : State) : State := verdictsDue (releasesDue (jobsDue s))

/-- Time passes on the frame path, commit instants that have come first. -/
def pass (dt : Nat) (s : State) : State := framesDue (commitDue (advance dt s))

end Sys2Proof.Machine
end

