-- ==== Sys2Proof/Machine/ModMath.lean ====
section
/-! DEFINITION. The arithmetic of the modular engine (R266 to R268): modular numbers, the Weierstrass curves,
edwards25519, X25519, and the two number-theoretic transforms. The curves and transforms are published standards
(PRESUMED, log 8). -/
namespace Sys2Proof.Machine

def powMod (b e m : Nat) : Nat :=
  (List.range (e.log2 + 1)).reverse.foldl (fun acc i =>
    let q := acc * acc % m
    if e.testBit i then q * b % m else q) (1 % m)

def subMod (a b m : Nat) : Nat := (a + (m - b % m)) % m

/-- The inverse modulo a prime: the power m - 2 (R267). -/
def invMod (a m : Nat) : Nat := powMod a (m - 2) m

/-! ## Weierstrass curves, a = -3 -/

structure Curve where
  p : Nat
  b : Nat
  gx : Nat
  gy : Nat
  n : Nat
  deriving DecidableEq, Repr

def p256 : Curve :=
  { p := 0xffffffff00000001000000000000000000000000ffffffffffffffffffffffff, b := 0x5ac635d8aa3a93e7b3ebbd55769886bc651d06b0cc53b0f63bce3c3e27d2604b,
    gx := 0x6b17d1f2e12c4247f8bce6e563a440f277037d812deb33a0f4a13945d898c296,
    gy := 0x4fe342e2fe1a7f9b8ee7eb4a7c0f9e162bce33576b315ececbb6406837bf51f5,
    n := 0xffffffff00000000ffffffffffffffffbce6faada7179e84f3b9cac2fc632551 }

def p384 : Curve :=
  { p := 0xfffffffffffffffffffffffffffffffffffffffffffffffffffffffffffffffeffffffff0000000000000000ffffffff, b := 0xb3312fa7e23ee7e4988e056be3f82d19181d9c6efe8141120314088f5013875ac656398d8a2ed19d2a85c8edd3ec2aef,
    gx := 0xaa87ca22be8b05378eb1c71ef320ad746e1d3b628ba79b9859f741e082542a385502f25dbf55296c3a545e3872760ab7,
    gy := 0x3617de4a96262c6f5d9e98bf9292dc29f8f41dbd289a147ce9da3113b5f0b8c00a60b1ce1d7e819d7a431d7c90ea0e5f,
    n := 0xffffffffffffffffffffffffffffffffffffffffffffffffc7634d81f4372ddf581a0db248b0a77aecec196accc52973 }

def p521 : Curve :=
  { p := 0x1ffffffffffffffffffffffffffffffffffffffffffffffffffffffffffffffffffffffffffffffffffffffffffffffffffffffffffffffffffffffffffffffffff, b := 0x51953eb9618e1c9a1f929a21a0b68540eea2da725b99b315f3b8b489918ef109e156193951ec7e937b1652c0bd3bb1bf073573df883d2c34f1ef451fd46b503f00,
    gx := 0xc6858e06b70404e9cd9e3ecb662395b4429c648139053fb521f828af606b4d3dbaa14b5e77efe75928fe1dc127a2ffa8de3348b3c1856a429bf97e7e31c2e5bd66,
    gy := 0x11839296a789a3bc0045c8a5fb42c7d1bd998f54449579b446817afbd17273e662c97ee72995ef42640c550b9013fad0761353c7086a272c24088be94769fd16650,
    n := 0x1fffffffffffffffffffffffffffffffffffffffffffffffffffffffffffffffffa51868783bf2f966b7fcc0148f709a5d03bb5c9b8899c47aebb6fb71e91386409 }

/-- A point, none at infinity. -/
abbrev Pt := Option (Nat × Nat)

def onCurve (c : Curve) (x y : Nat) : Bool := y * y % c.p == subMod ((x * x + c.p - 3) * x + c.b) 0 c.p

def ptAdd (c : Curve) (a b : Pt) : Pt :=
  match a, b with
  | none, q => q
  | q, none => q
  | some (x1, y1), some (x2, y2) =>
    if x1 = x2 && (y1 + y2) % c.p = 0 then none
    else
      let l := if x1 = x2 then (3 * x1 * x1 + (c.p - 3)) * invMod (2 * y1) c.p % c.p
        else subMod y2 y1 c.p * invMod (subMod x2 x1 c.p) c.p % c.p
      let x := subMod (subMod (l * l) x1 c.p) x2 c.p
      some (x, subMod (l * subMod x1 x c.p) y1 c.p)

def ptMul (c : Curve) (k : Nat) (q : Pt) : Pt :=
  (List.range (k.log2 + 1)).reverse.foldl (fun acc i =>
    let d := ptAdd c acc acc
    if k.testBit i then ptAdd c d q else d) none

/-! ## edwards25519 and X25519 -/

def p25519 : Nat := 2 ^ 255 - 19
def edD : Nat := 0x52036cee2b6ffe738cc740797779e89800700a4d4141d8ab75eb4dca135978a3
def edGx : Nat := 0x216936d3cd6e53fec0a4e231fdd6dc5c692cc7609525a7b2c9562d608f25d51a
def edGy : Nat := 0x6666666666666666666666666666666666666666666666666666666666666658
def edN : Nat := 2 ^ 252 + 27742317777372353535851937790883648493

def edOn (x y : Nat) : Bool :=
  subMod (y * y) (x * x) p25519 == (1 + edD * (x * x % p25519 * (y * y % p25519) % p25519)) % p25519

def edAdd (a b : Nat × Nat) : Nat × Nat :=
  let t := edD * (a.1 * b.1 % p25519 * (a.2 * b.2 % p25519) % p25519) % p25519
  ((a.1 * b.2 + b.1 * a.2) * invMod (1 + t) p25519 % p25519,
   (a.2 * b.2 + a.1 * b.1) * invMod (subMod 1 t p25519) p25519 % p25519)

def edMul (k : Nat) (q : Nat × Nat) : Nat × Nat :=
  (List.range (k.log2 + 1)).reverse.foldl (fun acc i =>
    let d := edAdd acc acc
    if k.testBit i then edAdd d q else d) (0, 1)

/-- Some x with (x, y) on the curve (used to check a compressed public key). -/
def edHasY (y : Nat) : Bool :=
  let u := subMod (y * y) 1 p25519
  let v := (edD * (y * y % p25519) + 1) % p25519
  let x2 := u * invMod v p25519 % p25519
  x2 == 0 || powMod x2 ((p25519 - 1) / 2) p25519 == 1

structure Ladder where
  x2 : Nat
  z2 : Nat
  x3 : Nat
  z3 : Nat
  deriving DecidableEq, Repr

def ladderStep (u : Nat) (bit : Bool) (l : Ladder) : Ladder :=
  let m := p25519
  let (x2, z2, x3, z3) := if bit then (l.x3, l.z3, l.x2, l.z2) else (l.x2, l.z2, l.x3, l.z3)
  let a := (x2 + z2) % m
  let b := subMod x2 z2 m
  let e := subMod (a * a) (b * b) m
  let c := (x3 + z3) % m
  let d := subMod x3 z3 m
  let da := d * a % m
  let cb := c * b % m
  let nx3 := (da + cb) * (da + cb) % m
  let nz3 := u * (subMod da cb m * subMod da cb m % m) % m
  let nx2 := (a * a % m) * (b * b % m) % m
  let nz2 := e * (a * a + 121665 * e) % m
  if bit then { x2 := nx3, z2 := nz3, x3 := nx2, z3 := nz2 } else { x2 := nx2, z2 := nz2, x3 := nx3, z3 := nz3 }

/-- X25519 with a clamped scalar and the top bit of u masked (R268). -/
def x25519 (k u : Nat) : Nat :=
  let k := k % 2 ^ 254 / 8 * 8 + 2 ^ 254
  let u := u % 2 ^ 255 % p25519
  let l := (List.range 255).reverse.foldl (fun l i => ladderStep u (k.testBit i) l) { x2 := 1, z2 := 0, x3 := u, z3 := 1 }
  l.x2 * invMod l.z2 p25519 % p25519

/-! ## Number-theoretic transforms -/

/-- The bits of n, w of them, in reverse order. -/
def bitRev (w n : Nat) : Nat := ((List.range w).map (fun i => if n.testBit i then 2 ^ (w - 1 - i) else 0)).sum

def ntt (q root w : Nat) : Nat → Nat → List Nat → List Nat
  | 0, _, a => a
  | d + 1, k, a =>
    let h := a.length / 2
    let z := powMod root (bitRev w k) q
    let lo := a.take h
    let hi := (a.drop h).map (fun x => z * x % q)
    ntt q root w d (2 * k) (List.zipWith (fun x y => (x + y) % q) lo hi) ++
      ntt q root w d (2 * k + 1) (List.zipWith (fun x y => subMod x y q) lo hi)

def intt (q root w : Nat) : Nat → Nat → List Nat → List Nat
  | 0, _, a => a
  | d + 1, k, a =>
    let h := a.length / 2
    let half := invMod 2 q
    let zi := invMod (powMod root (bitRev w k) q) q
    let lo := intt q root w d (2 * k) (a.take h)
    let hi := intt q root w d (2 * k + 1) (a.drop h)
    List.zipWith (fun x y => (x + y) * half % q) lo hi ++
      List.zipWith (fun x y => subMod x y q * half % q * zi % q) lo hi

/-- Modulus of a transform curve (R266). -/
def nttQ (curve : Nat) : Nat := if curve = 6 then 8380417 else 3329

def nttFwd (curve : Nat) (a : List Nat) : List Nat :=
  if curve = 6 then ntt 8380417 1753 8 8 1 a else ntt 3329 17 7 7 1 a

def nttInv (curve : Nat) (a : List Nat) : List Nat :=
  if curve = 6 then intt 8380417 1753 8 8 1 a else intt 3329 17 7 7 1 a

/-- Base-case multiplication of pairs for q = 3329. -/
def pairMul (i : Nat) (a b : List Nat) : Nat → List Nat
  | 0 => []
  | n + 1 =>
    let g := powMod 17 (2 * bitRev 7 i + 1) 3329
    let a0 := a.getD 0 0
    let a1 := a.getD 1 0
    let b0 := b.getD 0 0
    let b1 := b.getD 1 0
    ((a0 * b0 + a1 * b1 % 3329 * g) % 3329) :: ((a0 * b1 + a1 * b0) % 3329) :: pairMul (i + 1) (a.drop 2) (b.drop 2) n

def pmulPoly (curve : Nat) (a b : List Nat) : List Nat :=
  if curve = 6 then List.zipWith (fun x y => x * y % 8380417) a b else pairMul 0 a b 128

end Sys2Proof.Machine
end

