-- ==== Sys2Proof/Machine/Valves.lean ====
section
/-! DEFINITION. The valve tables' check of every master's access (R456 to R465). -/
namespace Sys2Proof.Machine

/-! ## The valve table (R456 to R462) -/

inductive Right | read | write | exec
  deriving DecidableEq, Repr

/-- What the table answers: a refusal and whether no entry matched, or a grant with its attributes. -/
inductive ValveAns
  | deny (noMatch : Bool)
  | grant (sealed : Bool) (cache : Nat) (order : Nat)
  deriving DecidableEq, Repr

def keeperRight (e : Valve) (r : Right) : Bool :=
  match r with
  | .read => e.kr
  | .write => e.kw
  | .exec => e.kx

def tenantRight (e : Valve) (r : Right) : Bool :=
  match r with
  | .read => e.tr
  | .write => e.tw
  | .exec => e.tx

/-- The entry covers the 256-byte block of an address. -/
def covers (e : Valve) (a : Nat) : Bool := e.valid && e.base.toNat ≤ a / 256 && a / 256 ≤ e.limit.toNat

/-- The entry decides for a master. -/
def decides (m : Nat) (keeper : Bool) (tid : Nat) (a : Nat) (e : Valve) : Bool :=
  covers e a && e.mset.getLsbD m && (keeper || e.tid = 0 || e.tid.toNat = tid)

def grantOf (e : Valve) : ValveAns := .grant e.sealed e.cache.toNat e.order.toNat

/-- The check of one block (R459). `keeper` says that the keeper rights apply: the core's PRIV, always for masters 1 and
2, and the absence of SCOPE bit 3 for the debug master. -/
def valveCheck (t : SMap Valve) (m : Nat) (keeper : Bool) (tid : Nat) (a : Nat) (r : Right) : ValveAns :=
  if m = 15 && t.any (fun e => covers e.2 a && e.2.lock) then .deny false
  else
    match t.find? (fun e => decides m keeper tid a e.2) with
    | some (_, e) => if (if keeper then keeperRight e r else tenantRight e r) then grantOf e else .deny false
    | none => if m = 0 && keeper then .grant false 0 0 else .deny true

/-- The check of a core's access (master 0). -/
def coreCheck (k : CoreId) (a : Nat) (r : Right) (s : State) : ValveAns :=
  let c := cpu k s
  valveCheck (valves k s) 0 c.priv c.tid.toNat a r

/-- Every block of a transfer of n bytes by a DMA master, 1 or 2, is granted (R459, R461). -/
def dmaGranted (t : SMap Valve) (m a n : Nat) (r : Right) : Bool :=
  (List.range (if n = 0 then 0 else (a + n - 1) / 256 - a / 256 + 1)).all (fun i =>
    match valveCheck t m true 0 (256 * (a / 256 + i)) r with
    | .grant _ _ _ => true
    | .deny _ => false)

/-- A transfer of the log DMA or the riser end that the table refuses (R465). Both are masters of Pumphouse. -/
def dmaRefused (s : State) : State := raise 100 [] s

end Sys2Proof.Machine
end

