-- ==== Sys2Proof/Machine/Engines.lean ====
section
/-! DEFINITION. Vault key slots, and the work of the vault cipher engine and of the modular engine (R245 to R274). -/
namespace Sys2Proof.Machine

abbrev evVcDone : Nat := 128
abbrev evMeDone : Nat := 129
abbrev evModFault : Nat := 130
abbrev evVkey : Nat := 131
abbrev evRamError : Nat := 140

/-! ## Key slots (R245 to R249) -/

def vslot (i : Nat) (s : State) : VSlot := smGet {} s.nv.slots i
def onVslot (i : Nat) (f : VSlot → VSlot) (s : State) : State :=
  onNv (fun n => { n with slots := smMod {} n.slots i f }) s

/-- Uses of R247 by bit. -/
abbrev useEnc : Nat := 0
abbrev useDec : Nat := 1
abbrev useMac : Nat := 2
abbrev useKeystream : Nat := 3
abbrev useVdec : Nat := 4
abbrev useSign : Nat := 5
abbrev useAgree : Nat := 6

def mayUse (v : VSlot) (bit : Nat) : Bool := bitN v.usage bit

/-- Key material wrapped under the key-encryption key of BBRAM (R248). -/
def wrapKey (key : Bytes) (s : State) : Bytes :=
  match s.nv.bbram.kek with
  | some k => kwpWrap (bytes256 k) key
  | none => []

/-- n bytes of fresh masks from the cipher engine's generator, whose state advances one-way behind each output (R262). -/
def vcMask (n : Nat) (s : State) : Bytes × State :=
  let x := (List.range ((n + 31) / 32)).foldl (fun x _ =>
    (x.1 ++ bytes256 ((Config.maskOut x.2.eng.vcGen).setWidth 256),
      onEng (fun e => { e with vcGen := Config.maskNext e.vcGen }) x.2)) (([] : Bytes), s)
  (x.1.take n, x.2)

/-- The line of a slot becomes the most recently used of the cache's eight, its key under fresh shares (R248, R262). -/
def cacheKey (i : Nat) (k : Bytes) (s : State) : State :=
  let (m, s) := vcMask k.length s
  onEng (fun e => { e with
    vcCache := (⟨i, xorBytes k m, m⟩ :: e.vcCache.filter (fun l => l.slot ≠ i)).take 8 }) s

/-- The key of a slot (R248): from the cache, or unwrapped into it. An unwrap that fails raises its event. -/
def slotKey (i : Nat) (s : State) : Option Bytes × State :=
  match s.eng.vcCache.find? (fun l => l.slot == i) with
  | some l =>
    let k := xorBytes l.share0 l.share1
    (some k, cacheKey i k s)
  | none =>
    match s.nv.bbram.kek.bind (fun k => kwpUnwrap (bytes256 k) (vslot i s).wrapped) with
    | some k => (some k, cacheKey i k s)
    | none => (none, raise evVkey [i] s)

/-- Erase a slot and its cache line (R249). -/
def eraseSlot (i : Nat) (s : State) : State :=
  onEng (fun e => { e with vcCache := e.vcCache.filter (fun l => l.slot ≠ i) }) (onVslot i (fun _ => {}) s)

/-! ## Cipher engine: descriptors (R251) -/

structure VcReq where
  op : Nat
  slot : Nat
  sess : Nat
  opens : Bool
  closes : Bool
  irq : Bool
  src : Nat
  dst : Nat
  len : Nat
  arg : Bytes
  deriving DecidableEq, Repr

def vcParse (b : Bytes) : VcReq :=
  let f := leNat (slice b 2 1)
  { op := leNat (slice b 0 1), slot := leNat (slice b 1 1), sess := f % 16, opens := bitN f 4, closes := bitN f 5,
    irq := bitN f 7, src := leNat (slice b 4 4), dst := leNat (slice b 8 4), len := leNat (slice b 12 4),
    arg := fit 16 (b.drop 16) }

def vcOps : List Nat := [1, 2, 3, 4, 5, 0x10, 0x11, 0x12]

def isAesOp (op : Nat) : Bool := op ≤ 5

/-- AAD length of a VDEC (R252). -/
def aadLen (r : VcReq) : Nat := leNat (slice r.arg 12 4)

/-- Bytes read at SRC and written at DST (R252). -/
def srcLen (r : VcReq) : Nat :=
  match r.op with
  | 1 => r.len
  | 2 => r.len
  | 4 => aadLen r + r.len + 16
  | 0x10 => r.len
  | 0x11 => r.len
  | _ => 0

def dstLen (r : VcReq) : Nat :=
  match r.op with
  | 1 => r.len
  | 2 => r.len
  | 3 => r.len + 16
  | 4 => r.len
  | 0x10 => 32
  | 0x11 => 64
  | 0x12 => 32
  | _ => 0

/-- Bytes lie in vault RAM (R526). -/
def inVaultRam (a n : Nat) : Bool := 0x100000 ≤ a && a + n ≤ 0x180000

/-- An address range the operation uses is aligned and lies in vault RAM (R254). -/
def rangeOk (al a n : Nat) : Bool := n = 0 || (a % al = 0 && inVaultRam a n)

def lenOk (r : VcReq) : Bool :=
  match r.op with
  | 1 => 16 ≤ r.len && r.len ≤ 65536 && r.len % 16 = 0
  | 2 => 16 ≤ r.len && r.len ≤ 65536 && r.len % 16 = 0
  | 3 => 16 ≤ r.len && r.len ≤ 65536 && r.len % 16 = 0
  | 4 => 1 ≤ r.len && r.len ≤ 16384 && aadLen r ≤ 1048576
  | 5 => r.len = 0
  | 0x10 => r.len % 64 = 0
  | 0x11 => r.len % 128 = 0
  | 0x12 => r.len = 0
  | _ => false

/-- The first checks of R254; `dma` is false for the keeper's own requests, which name no addresses. -/
def vcBad (dma : Bool) (r : VcReq) (v : VSlot) : Bool :=
  !vcOps.contains r.op || !lenOk r ||
  (dma && !(rangeOk 16 r.src (srcLen r) && rangeOk 16 r.dst (dstLen r))) ||
  (r.op == 0x12 && !(leNat (r.arg.take 1) == 0x36 || leNat (r.arg.take 1) == 0x5C)) ||
  (isAesOp r.op && 2 ≤ v.ktype) || (r.op == 0x12 && v.ktype ≠ 2)

/-- The engine's DMA is granted what it reads and writes; SHA reads its state at DST (R465). -/
def vcGranted (r : VcReq) (s : State) : Bool :=
  dmaGranted s.vtW 1 r.src (srcLen r) .read && dmaGranted s.vtW 1 r.dst (dstLen r) .write &&
    ((r.op ≠ 0x10 && r.op ≠ 0x11) || dmaGranted s.vtW 1 r.dst (dstLen r) .read)

/-- USAGE and NMODE (R247). -/
def vcDenied (r : VcReq) (v : VSlot) : Bool :=
  match r.op with
  | 1 => !mayUse v useEnc || v.nmode ≠ 0
  | 2 => !mayUse v useDec || v.nmode ≠ 0
  | 3 => !mayUse v useKeystream
  | 4 => !mayUse v useVdec
  | 5 => !mayUse v useKeystream
  | 0x12 => !mayUse v useMac
  | _ => false

/-- Blocks of a request (R256; for VDEC the ciphertext blocks and the tag's, log 43). -/
def vcBlocks (r : VcReq) : Nat :=
  match r.op with
  | 1 => r.len / 16
  | 2 => r.len / 16
  | 3 => r.len / 16 + 1
  | 4 => (r.len + 15) / 16 + 1
  | 0x10 => r.len / 64
  | 0x11 => r.len / 128
  | 0x12 => 1
  | _ => 0

def sessAt (n : Nat) (s : State) : Option (Nat × Nat) := smGet none s.eng.vcSess n

/-- R256's refusals. SHA requests ignore SLOT, so they are not held to an open session's slot (log 43). -/
def sessBad (r : VcReq) (s : State) : Bool :=
  if r.opens then r.sess = 0 || (sessAt r.sess s).isSome
  else r.sess ≠ 0 &&
    (match sessAt r.sess s with
     | none => true
     | some (sl, _) => sl ≠ r.slot && r.op ≠ 0x10 && r.op ≠ 0x11)

/-- Slot and count of the session before the request; a stateless SHA request has no slot. -/
def sessBase (r : VcReq) (s : State) : Option (Nat × Nat) :=
  if r.sess = 0 then (if r.op = 0x10 || r.op = 0x11 then none else some (r.slot, 0))
  else if r.opens then some (r.slot, 0)
  else sessAt r.sess s

/-- R257's limit. -/
def overLimit (r : VcReq) (s : State) : Bool :=
  match sessBase r s with
  | none => false
  | some (sl, n) => 2 ^ (vslot sl s).slimit < n + vcBlocks r

/-- The sessions after a request that ran. -/
def sessAfter (r : VcReq) (s : State) : State :=
  if r.sess = 0 then s
  else
    let v : Option (Nat × Nat) := if r.closes then none else (sessBase r s).map (fun e => (e.1, e.2 + vcBlocks r))
    onEng (fun e => { e with vcSess := smSet none e.vcSess r.sess v }) s

/-- R258 and R259: what refuses the nonce. -/
def nonceRefuse (r : VcReq) (v : VSlot) : Option Nat :=
  if r.op = 3 then
    if v.nmode = 0 then some stDenied
    else if v.nmode = 2 && !v.baseset then some stDenied
    else if v.next = 0xFFFFFFFFFFFFFFFF then some stWrapRefused
    else none
  else if r.op = 5 then (if v.nmode = 2 && !v.baseset then none else some stDenied)
  else none

/-- Every check before any work, in the order of R254, R465, R247, R256 to R258. -/
def vcRefuse (dma : Bool) (r : VcReq) (s : State) : Option Nat :=
  let v := vslot r.slot s
  if vcBad dma r v then some stBadParam
  else if dma && !vcGranted r s then some stDenied
  else if vcDenied r v then some stDenied
  else if sessBad r s then some stBadParam
  else if overLimit r s then some stLimit
  else nonceRefuse r v

/-- What a request answers: status, nonce (zeros but for KEYSTREAM) and the bytes for DST. -/
structure VcAns where
  status : Nat
  nonce : Bytes := List.replicate 12 0
  out : Bytes := []
  deriving DecidableEq, Repr

def stateWords32 (b : Bytes) : List (BitVec 32) := (blocksOf 4 b).map (fun x => BitVec.ofNat 32 (beNat x))
def stateWords64 (b : Bytes) : List (BitVec 64) := (blocksOf 8 b).map (fun x => BitVec.ofNat 64 (beNat x))

/-- Compressions from a given state, 32 or 64 bytes (R252). -/
def compress256 (st m : Bytes) : Bytes := shaBytes ((blocksOf 64 m).foldl sha256Block (stateWords32 (fit 32 st)))
def compress512 (st m : Bytes) : Bytes := shaBytes ((blocksOf 128 m).foldl sha512Block (stateWords64 (fit 64 st)))

def ctrBlock (n : Bytes) (i : Nat) : Bytes := n ++ natBE 4 i

/-- The AES key of a slot: 16 bytes for KTYPE 0, 32 for KTYPE 1. -/
def aesKeyOf (v : VSlot) (k : Bytes) : Bytes := fit (if v.ktype = 0 then 16 else 32) k

/-- The work of a request that passed its checks, on its key and input; `st` is the hash state. -/
def vcWork (r : VcReq) (v : VSlot) (key input st : Bytes) : VcAns :=
  let k := aesKeyOf v key
  match r.op with
  | 1 => { status := stOk, out := ((blocksOf 16 input).map (aesEnc k)).flatten }
  | 2 => { status := stOk, out := ((blocksOf 16 input).map (aesDec k)).flatten }
  | 3 =>
    let n := natBE 4 v.salt ++ natBE 8 v.next
    { status := stOk, nonce := n, out := ((List.range (r.len / 16 + 1)).map (fun i => aesEnc k (ctrBlock n (i + 1)))).flatten }
  | 4 =>
    let iv := r.arg.take 12
    let aad := input.take (aadLen r)
    let ct := slice input (aadLen r) r.len
    if gcmTag k iv aad ct = slice input (aadLen r + r.len) 16 then { status := stOk, out := gcmCrypt k iv ct }
    else { status := stTagMismatch }
  | 0x10 => { status := stOk, out := compress256 st input }
  | 0x11 => { status := stOk, out := compress512 st input }
  | 0x12 =>
    { status := stOk,
      out := compress256 (shaBytes h256) ((fit 64 key).map (· ^^^ BitVec.ofNat 8 (leNat (r.arg.take 1)))) }
  | _ => { status := stOk }

/-- The plaintext of a VDEC stands in the hold buffer; a wrong tag overwrites the buffer with zeros (R260). -/
def holdAfter (r : VcReq) (a : VcAns) (s : State) : State :=
  if r.op = 4 then onEng (fun e => { e with hold := if a.status = stOk then a.out else [] }) s else s

/-- What a request leaves in its slot record, an MRAM write in the engine's turn (R258, R259, R406). -/
def slotAfter (r : VcReq) (s : State) : State :=
  if r.op = 3 then onVslot r.slot (fun v => { v with next := v.next + 1 }) (mramTurn 0 mramCipher s)
  else if r.op = 5 then
    onVslot r.slot (fun v => { v with baseset := true, salt := beNat (r.arg.take 4), next := beNat (slice r.arg 4 8) })
      (mramTurn 0 mramCipher s)
  else s

/-- One request of the cipher engine (R252 to R260), run to its end. -/
def vcRun (dma : Bool) (r : VcReq) (input st : Bytes) (s : State) : VcAns × State :=
  match vcRefuse dma r s with
  | some e => ({ status := e }, s)
  | none =>
    let v := vslot r.slot s
    if r.op = 5 then ({ status := stOk }, sessAfter r (slotAfter r s))
    else if r.op = 0x10 || r.op = 0x11 then (vcWork r v [] input st, sessAfter r s)
    else
      match slotKey r.slot s with
      | (none, s) => ({ status := stHwFault }, s)
      | (some key, s) =>
      let a := vcWork r v key input st
      (a, holdAfter r a (slotAfter r (sessAfter r s)))

/-! ## Modular engine (R265 to R273) -/

structure MeReq where
  op : Nat
  curve : Nat
  len : Nat
  keySrc : Bool
  irq : Bool
  verify : Bool
  slot : Nat
  src : Nat
  res : Nat
  deriving DecidableEq, Repr

def meParse (b : Bytes) : MeReq :=
  let f := leNat (slice b 3 1)
  { op := leNat (slice b 0 1), curve := leNat (slice b 1 1), len := leNat (slice b 2 1), keySrc := bitN f 0,
    irq := bitN f 1, verify := bitN f 2, slot := leNat (slice b 4 1), src := leNat (slice b 8 4), res := leNat (slice b 12 4) }

/-- Operands of an operation (R267). -/
def meArity (op : Nat) : Nat :=
  match op with
  | 0x01 => 3
  | 0x02 => 3
  | 0x03 => 3
  | 0x04 => 4
  | 0x05 => 2
  | 0x10 => 1
  | 0x11 => 3
  | 0x12 => 4
  | 0x13 => 2
  | 0x14 => 2
  | 0x20 => 1
  | 0x21 => 1
  | 0x22 => 2
  | 0x23 => 2
  | 0x24 => 2
  | _ => 0

/-- CURVE and L agree, and the operation is one of the curve's (R266, R267). -/
def meFits (op curve len : Nat) : Bool :=
  (match curve with
   | 0 => 1 ≤ len && len ≤ 128
   | 1 => len == 4
   | 2 => len == 6
   | 3 => len == 9
   | 4 => len == 4
   | 5 => len == 4
   | 6 => len == 128
   | 7 => len == 128
   | _ => false) &&
  (if op ≤ 5 then 1 ≤ op && curve == 0
   else if 0x10 ≤ op && op ≤ 0x13 then (1 ≤ curve && curve ≤ 3) || curve == 5
   else if op = 0x14 then curve == 4
   else if 0x20 ≤ op && op ≤ 0x24 then curve == 6 || curve == 7
   else false)

/-- The operands, each of L words (R267, R268). -/
def operandsOf (len : Nat) (b : Bytes) : List Nat := (blocksOf (8 * len) b).map leNat

/-- Coefficients of a transform operand (R268). -/
def coeffs (b : Bytes) : List Nat := (blocksOf 4 (fit 1024 b)).map leNat
def coeffBytes (l : List Nat) : Bytes := (l.map (natLE 4)).flatten

def weier (curve : Nat) : Curve := if curve = 1 then p256 else if curve = 2 then p384 else p521

/-- A result of the engine's arithmetic: a status, and the bytes for RES. -/
structure MeAns where
  status : Nat
  out : Bytes := []
  deriving DecidableEq, Repr

/-- The first failing check of one operand: range, then zero (R271). -/
def chk (v lim : Nat) (zero : Bool) : Option Nat :=
  if lim ≤ v then some stInputGeModulus else if zero && v = 0 then some stInputZero else none

def firstBad : List (Option Nat) → Option Nat
  | [] => none
  | some e :: _ => some e
  | none :: r => firstBad r

/-- CURVE 0: the modulus, the operands in order, then the value (R267, R271). -/
def meRaw (op len : Nat) (l : List Nat) : MeAns :=
  let m := l.getLastD 0
  let a := l.getD 0 0
  let b := l.getD 1 0
  let ans (e : Option Nat) (v : Nat) : MeAns :=
    match e with
    | some st => { status := st }
    | none => { status := stOk, out := natLE (8 * len) v }
  if m < 3 then { status := stBadParam }
  else match op with
  | 1 => ans (firstBad [chk a m false, chk b m false]) ((a + b) % m)
  | 2 => ans (firstBad [chk a m false, chk b m false]) (subMod a b m)
  | 3 => if m % 2 = 0 then { status := stBadParam } else ans (firstBad [chk a m false, chk b m false]) (a * b % m)
  | 4 =>
    let r := l.getD 2 0
    if m % 2 = 0 then { status := stBadParam }
    else ans (firstBad [chk a m true, chk b m false, chk r m false]) (powMod a b m)
  | _ => if m % 2 = 0 then { status := stBadParam } else ans (chk a m true) (invMod a m)

def ptBytes (len x y : Nat) : Bytes := natLE (8 * len) x ++ natLE (8 * len) y

/-- Curves 1 to 3 and 5 over one interface: prime, order, membership, addition and multiples of G. -/
def meCurve (op curve len : Nat) (l : List Nat) : MeAns :=
  let ed := curve == 5
  let c := weier curve
  let p := if ed then p25519 else c.p
  let n := if ed then edN else c.n
  let on (x y : Nat) : Bool := if ed then edOn x y else onCurve c x y
  let wpt (q : Pt) : Nat × Nat := q.getD (0, 0)
  let mulG (k : Nat) : Nat × Nat := if ed then edMul k (edGx, edGy) else wpt (ptMul c k (some (c.gx, c.gy)))
  let mulP (k x y : Nat) : Nat × Nat := if ed then edMul k (x, y) else wpt (ptMul c k (some (x, y)))
  let ans (e : Option Nat) (r : Nat × Nat) : MeAns :=
    match e with
    | some st => { status := st }
    | none => { status := stOk, out := ptBytes len r.1 r.2 }
  let point (x y : Nat) : List (Option Nat) :=
    [chk x p false, chk y p false, if on x y then none else some stNotOnCurve]
  let a := l.getD 0 0
  let b := l.getD 1 0
  let x := l.getD 2 0
  let y := l.getD 3 0
  match op with
  | 0x10 => ans (chk a n true) (mulG a)
  | 0x11 => ans (firstBad (chk a n true :: point b x)) (mulP a b x)
  | 0x12 =>
    let both : Option Nat := if a = 0 && b = 0 then some stInputZero else none
    let sum := if ed then edAdd (edMul a (edGx, edGy)) (edMul b (x, y))
      else wpt (ptAdd c (ptMul c a (some (c.gx, c.gy))) (ptMul c b (some (x, y))))
    ans (firstBad ([chk a n false, chk b n false, both] ++ point x y)) sum
  | _ =>
    match firstBad (point a b) with
    | some st => { status := st }
    | none => { status := stOk }

/-- X25519 (R268, R271). -/
def meX25519 (l : List Nat) : MeAns :=
  let v := Sys2Proof.Machine.x25519 (l.getD 0 0) (l.getD 1 0)
  if v = 0 then { status := stInputZero } else { status := stOk, out := natLE 32 v }

/-- The transforms (R267, R268, R271). -/
def meNtt (op curve : Nat) (b : Bytes) : MeAns :=
  let q := nttQ curve
  let x := coeffs (b.take 1024)
  let y := coeffs (slice b 1024 1024)
  let bad (l : List Nat) : Bool := l.any (fun v => q ≤ v)
  if bad x || (0x22 ≤ op && bad y) then { status := stInputGeModulus }
  else
    { status := stOk, out := coeffBytes (
        match op with
        | 0x20 => nttFwd curve x
        | 0x21 => nttInv curve x
        | 0x22 => pmulPoly curve x y
        | 0x23 => List.zipWith (fun a b => (a + b) % q) x y
        | _ => List.zipWith (fun a b => subMod a b q) x y) }

def meCompute (op curve len : Nat) (b : Bytes) : MeAns :=
  if curve = 0 then meRaw op len (operandsOf len b)
  else if curve = 4 then meX25519 (operandsOf len b)
  else if 6 ≤ curve then meNtt op curve b
  else meCurve op curve len (operandsOf len b)

/-- Random bits of blinding an operation draws (R269); ECCHECK and the transforms draw none. -/
def blindBits (op len : Nat) : Nat :=
  match op with
  | 0x04 => 128
  | 0x10 => 64 + 64 * len
  | 0x11 => 64 + 64 * len
  | 0x12 => 128 + 64 * len
  | 0x14 => 64 * len
  | _ => 0

/-- The workspace is overwritten (R273). -/
def scrubMe (s : State) : State := onEng (fun e => { e with meWork := [] }) s

/-- KTYPE that fits a curve (R246, R265). -/
def curveKtype (curve : Nat) : Option Nat :=
  match curve with
  | 1 => some 3
  | 2 => some 4
  | 3 => some 5
  | 4 => some 6
  | 5 => some 7
  | _ => none

/-- One operation of the modular engine on its operands (R265 to R273). -/
def meRun (r : MeReq) (faulty : Bool) (input : Bytes) (s : State) : MeAns × State :=
  let v := vslot r.slot s
  if !meFits r.op r.curve r.len || (r.keySrc && r.verify) then ({ status := stBadParam }, s)
  else if r.keySrc && (!(mayUse v useSign || mayUse v useAgree) || curveKtype r.curve ≠ some v.ktype) then
    ({ status := stDenied }, s)
  else
    let keyed : Option Bytes × State :=
      if r.keySrc then
        match slotKey r.slot s with
        | (some k, s) => (some (natLE (8 * r.len) (Config.privateValue v.ktype k) ++ input), s)
        | (none, s) => (none, s)
      else (some input, s)
    match keyed with
    | (none, s) => ({ status := stHwFault }, s)
    | (some input, s) =>
      let bits := if r.verify then 0 else blindBits r.op r.len
      if bits ≠ 0 && s.nw.lost then ({ status := stEntropyFail }, scrubMe s)
      else
        let s := if bits = 0 then s else (takeEntries ((bits + 255) / 256) (poolTurn 6 s)).2
        let s := onEng (fun e => { e with meWork := input }) s
        let a := meCompute r.op r.curve r.len input
        let curveOp := r.op = 0x10 || r.op = 0x11 || r.op = 0x12 || r.op = 0x14
        if a.status = stOk && faulty && curveOp then ({ status := stHwFault }, raise evModFault [] (scrubMe s))
        else (a, s)

end Sys2Proof.Machine
end

