-- ==== Sys2Proof/Machine/EngineQueues.lean ====
section
/-! DEFINITION. The queues of the vault cipher engine and of the modular engine: descriptors in vault RAM, the requests
that commands put among them, key slots that are destroyed, doorbells, abort and zeroise (R249, R250, R253, R257, R263 to
R265, R273, R284, R529). -/
namespace Sys2Proof.Machine

/-! ## Descriptors and places -/

def vcDescAt (i : Nat) (s : State) : VcReq := vcParse (ramGet .vault (s.eng.vcQBase + 32 * i) 32 s)
def meDescBytes (i : Nat) (s : State) : Bytes := ramGet .vault (s.eng.meQBase + 16 * i) 16 s
def meDescAt (i : Nat) (s : State) : MeReq := meParse (meDescBytes i s)

/-- Requests that wait in a queue of n places. -/
def queued (n head tail : Nat) : Nat := (tail + n - head) % n

/-- A queue is full with one place left (R250). -/
def vcQueueFull (s : State) : Bool := (s.eng.vcTail + 1) % 256 = s.eng.vcHead
def meQueueFull (s : State) : Bool := (s.eng.meTail + 1) % 8 = s.eng.meHead

/-- The count of completed requests at which the next request put into a queue has its turn. -/
def vcPlace (s : State) : Nat := s.eng.vcDone + queued 256 s.eng.vcHead s.eng.vcTail
def mePlace (s : State) : Nat := s.eng.meDone + queued 8 s.eng.meHead s.eng.meTail

/-- Write the completion of the cipher request at the head and move on (R251, R253). -/
def vcComplete (irq : Bool) (a : VcAns) (s : State) : State :=
  let i := s.eng.vcHead
  let s := ramPut .vault (s.eng.vcCBase + 16 * i) (natLE 2 i ++ natLE 2 a.status ++ fit 12 a.nonce) s
  let s := onEng (fun e => { e with
    vcHead := (i + 1) % 256, vcDone := e.vcDone + 1, vcMine := e.vcMine.filter (fun n => e.vcDone < n) }) s
  if irq then raise evVcDone [] s else s

/-- Write STATUS into the descriptor at the head of the modular queue and move on (R265). -/
def meComplete (irq : Bool) (st : Nat) (s : State) : State :=
  let i := s.eng.meHead
  let s := ramPut .vault (s.eng.meQBase + 16 * i + 6) (natLE 2 st) s
  let s := onEng (fun e => { e with
    meHead := (i + 1) % 8, meDone := e.meDone + 1, meMine := e.meMine.filter (fun n => e.meDone < n) }) s
  if irq then raise evMeDone [] s else s

/-! ## VKEY_DESTROY among the requests (R249) -/

def usesSlot (slot : Nat) (r : VcReq) : Bool := r.slot == slot && r.op ≠ 0x10 && r.op ≠ 0x11

/-- A descriptor that either queue still holds from before a destroy names the slot. -/
def slotQueued (slot vcTo meTo : Nat) (s : State) : Bool :=
  (List.range (vcTo - s.eng.vcDone)).any (fun k =>
    !s.eng.vcMine.contains (s.eng.vcDone + k) && usesSlot slot (vcDescAt ((s.eng.vcHead + k) % 256) s)) ||
  (List.range (meTo - s.eng.meDone)).any (fun k =>
    let r := meDescAt ((s.eng.meHead + k) % 8) s
    !s.eng.meMine.contains (s.eng.meDone + k) && r.keySrc && r.slot == slot)

/-- Every VKEY_DESTROY whose requests have completed erases its slot and replies. -/
def finishDestroys (s : State) : State :=
  s.cmd.owed.foldl (fun s o =>
    match o.wait with
    | .vkeyGone slot vcTo meTo => if slotQueued slot vcTo meTo s then s else replyOk o.call [] (eraseSlot slot s)
    | _ => s) s

/-- A slot whose destroy was asked for before the request at the head was queued: the request finds it EMPTY. -/
def destroyedFor (modular : Bool) (slot : Nat) (s : State) : Bool :=
  s.cmd.owed.any (fun o =>
    match o.wait with
    | .vkeyGone i vcTo meTo => i == slot && (if modular then meTo ≤ s.eng.meDone else vcTo ≤ s.eng.vcDone)
    | _ => false)

/-! ## The requests of commands (R250, R257, R284, R285) -/

/-- A command that needs the cipher engine takes the next place of its queue; a full queue is answered BUSY. The
descriptor's addresses are the keeper's own, so only the place stands in the state (log 85). -/
def vcPost (c : Call) (s : State) : State :=
  if vcQueueFull s then refuse c stBusy s
  else onEng (fun e => { e with vcTail := (e.vcTail + 1) % 256, vcMine := e.vcMine ++ [vcPlace s] }) (await c (.cipher (vcPlace s)) s)

/-- The same for the modular engine; R265 does not say what a full queue answers (DESIGN CHOICE, log 85). -/
def mePost (c : Call) (s : State) : State :=
  if meQueueFull s then refuse c stBusy s
  else onEng (fun e => { e with meTail := (e.meTail + 1) % 8, meMine := e.meMine ++ [mePlace s] }) (await c (.modular (mePlace s)) s)

/-- The request of VC_BLOCK (R284): ENC, DEC, KEYSTREAM, and in the expert form NONCE_BASE and a session byte laid out as
descriptor byte 2. -/
def blockReq (c : Call) : VcReq :=
  let op := argD c 2 0
  let data := (argOf c 3).getD []
  let f := if c.pkt.expert then argD c 4 0 else 0
  { op := op, slot := argD c 1 0, sess := f % 16, opens := bitN f 4, closes := bitN f 5, irq := false, src := 0, dst := 0
    len := if op = 3 then leNat data else if op = 5 then 0 else data.length
    arg := fit 16 (if c.pkt.expert then (argOf c 5).getD [] else []) }

/-- The request of VC_DECRYPT_VERIFY (R284), and its input. -/
def verifyReq (c : Call) : VcReq :=
  { op := 4, slot := argD c 1 0, sess := 0, opens := false, closes := false, irq := false, src := 0, dst := 0
    len := ((argOf c 4).getD []).length, arg := fit 12 ((argOf c 2).getD []) ++ natLE 4 ((argOf c 3).getD []).length }
def verifyInput (c : Call) : Bytes := (argOf c 3).getD [] ++ (argOf c 4).getD [] ++ (argOf c 5).getD []

/-- A tenant names a session that is assigned to another caller (R257). The keeper assigns a session to the caller that
opens it, until it closes (DESIGN CHOICE, log 125). -/
def sessForeign (c : Call) (n : Nat) (s : State) : Bool :=
  (match c.via with
    | .applet _ _ => true
    | _ => false) && n ≠ 0 && (smFind s.eng.sessOwner n).any (fun v => v ≠ c.via)

/-- The books of who holds which session, after a request of a command. -/
def ownSess (c : Call) (r : VcReq) (a : VcAns) (s : State) : State :=
  if a.status ≠ stOk || r.sess = 0 then s
  else onEng (fun e => { e with
    sessOwner := if r.closes then smDel e.sessOwner r.sess else if r.opens then smPut e.sessOwner r.sess c.via else e.sessOwner }) s

/-- Answer with an engine's status, its data on OK. -/
def answerVc (c : Call) (ty : Nat) (a : VcAns) (data : Bytes) (s : State) : State :=
  if a.status = stOk then replyOk c [rtlv 1 data] s
  else if a.status = stBadParam then badParam c ty s
  else refuse c a.status s

/-- Signature bytes by KTYPE (R285). -/
def sigLen (kt : Nat) : Nat :=
  match kt with
  | 3 => 64
  | 4 => 96
  | 5 => 132
  | 7 => 64
  | 9 => 3309
  | _ => 0

/-- The digest of VC_HASH, or in the expert form the state after whole blocks (R284). -/
def hashOf (c : Call) : Bytes :=
  let alg := argD c 1 0
  let m := (argOf c 2).getD []
  match (if c.pkt.expert then argOf c 3 else none) with
  | some st => if alg = 0 then compress256 st m else compress512 st m
  | none => if alg = 0 then sha256 m else if alg = 1 then sha384 m else sha512 m

/-- The blinding of a signature's multiple of the base point (R269); ML-DSA-65 draws none. -/
def signBlinding (kt : Nat) (s : State) : State :=
  let l := match kt with
    | 3 => 4
    | 4 => 6
    | 5 => 9
    | 7 => 4
    | _ => 0
  if l = 0 then s else (takeEntries ((blindBits 0x10 l + 255) / 256) (poolTurn 6 s)).2

/-- The signature of VSIGN (R285). -/
def signNow (c : Call) (s : State) : State :=
  let i := argD c 1 0
  let v := vslot i s
  if s.nw.lost then refuse c stEntropyFail s
  else
    match slotKey i s with
    | (none, s) => refuse c stHwFault s
    | (some key, s) =>
      let (r, s) := drbgGenerate 32 (drbgReseed (signBlinding v.ktype s))
      let n := match (if c.pkt.expert then argN c 3 else none) with
        | some a => v.ktype + 16 * (a + 1)
        | none => v.ktype
      replyOk c [rtlv 1 (fit (sigLen v.ktype) (Config.sign n key ((argOf c 2).getD []) (of256 (r.getD []))))] s

/-- A public key's algorithm by its length (R285): the verdict, or the refusing status. -/
def verifyWith (key m sig : Bytes) : Nat :=
  let ec (kt n : Nat) (c : Curve) : Nat :=
    let x := beNat (slice key 1 n)
    let y := beNat (slice key (1 + n) n)
    if leNat (key.take 1) ≠ 4 then stBadParam
    else if c.p ≤ x || c.p ≤ y || !onCurve c x y then stNotOnCurve
    else if Config.ecdsaVerify kt key m sig then stOk else stTagMismatch
  match key.length with
  | 65 => ec 3 32 p256
  | 97 => ec 4 48 p384
  | 133 => ec 5 66 p521
  | 32 =>
    if !edHasY (leNat key % 2 ^ 255 % p25519) then stNotOnCurve
    else if Config.ed25519Verify key m sig then stOk else stTagMismatch
  | 1952 => if Config.mlDsaVerify key m sig then stOk else stTagMismatch
  | _ => stBadParam

/-- The verdict of VVERIFY (R285). -/
def verifyNow (c : Call) (s : State) : State :=
  let st := verifyWith ((argOf c 1).getD []) ((argOf c 2).getD []) ((argOf c 3).getD [])
  if st = stOk then replyOk c [] s else if st = stBadParam then badParam c 1 s else refuse c st s

/-- The cipher engine does a command's request at the head of its queue, and the command is answered. -/
def vcServe (o : Owed) (s : State) : State :=
  let c := o.call
  if o.opcode = 0x0805 then
    let r := blockReq c
    if sessForeign c r.sess s then refuse c stDenied (vcComplete false { status := stDenied } s)
    else
      let (a, s) := vcRun false r ((argOf c 3).getD []) [] s
      answerVc c 3 a (if r.op = 3 then a.nonce ++ a.out else a.out) (vcComplete false a (ownSess c r a s))
  else if o.opcode = 0x0806 then
    let (a, s) := vcRun false (verifyReq c) (verifyInput c) [] s
    answerVc c 4 a a.out (vcComplete false a s)
  else
    let s := vcComplete false { status := stOk } s
    if o.opcode = 0x0807 then replyOk c [rtlv 1 (hashOf c)] s
    else if o.opcode = 0x0809 then signNow c s
    else verifyNow c s

/-- The request of MOD_OP (R284) and its operands: a raw modulus given apart follows them. -/
def modReq (c : Call) : MeReq :=
  { op := argD c 1 0, curve := argD c 2 0, len := leNat (((argOf c 3).getD []).take 1), keySrc := false, irq := false
    verify := false, slot := 0, src := 0, res := 0 }
def modOperands (c : Call) : Bytes :=
  ((argOf c 3).getD []).drop 4 ++ (if c.pkt.expert && argD c 2 0 = 0 then (argOf c 4).getD [] else [])

/-- The modular engine does a command's request at the head of its queue. -/
def meServe (o : Owed) (s : State) : State :=
  let c := o.call
  let (a, s) := meRun (modReq c) false (modOperands c) s
  let s := meComplete false a.status s
  if a.status = stOk then replyOk c [rtlv 1 a.out] s
  else if a.status = stBadParam then badParam c 3 s
  else refuse c a.status s

/-- The command whose request is at the head of a queue. -/
def vcOwner (s : State) : Option Owed := s.cmd.owed.find? (fun o => o.wait == .cipher s.eng.vcDone)
def meOwner (s : State) : Option Owed := s.cmd.owed.find? (fun o => o.wait == .modular s.eng.meDone)

/-- What the cipher engine does by itself at the head of its queue: the requests of commands, and at once a refusal of
an unknown OP (R254). A request whose command has ended is dropped. -/
def vcGo : Nat → State → State
  | 0, s => s
  | n + 1, s =>
    if s.eng.vcHead = s.eng.vcTail then s
    else if s.eng.vcMine.contains s.eng.vcDone then
      vcGo n (match vcOwner s with
        | some o => vcServe o s
        | none => vcComplete false { status := stHwFault } s)
    else
      let r := vcDescAt s.eng.vcHead s
      if vcOps.contains r.op then s else vcGo n (vcComplete r.irq { status := stBadParam } s)

def meOps : List Nat := [1, 2, 3, 4, 5, 0x10, 0x11, 0x12, 0x13, 0x14, 0x20, 0x21, 0x22, 0x23, 0x24]

/-- The same for the modular engine (R267). -/
def meGo : Nat → State → State
  | 0, s => s
  | n + 1, s =>
    if s.eng.meHead = s.eng.meTail then s
    else if s.eng.meMine.contains s.eng.meDone then
      meGo n (match meOwner s with
        | some o => meServe o s
        | none => meComplete false stHwFault s)
    else
      let r := meDescAt s.eng.meHead s
      if meOps.contains r.op then s else meGo n (meComplete r.irq stBadParam s)

/-! ## One descriptor of the vault core -/

/-- A word of vault RAM that a range takes in holds an uncorrectable error (R374). -/
def dmaFaulty (a n : Nat) (s : State) : Bool := s.me.faulty.any (fun e => ramWordIn .vault e.1 e.2 a n)

/-- What the cipher engine answers to the descriptor at the head. An input word with an uncorrectable error ends the
request with HW_FAULT (DESIGN CHOICE, log 124). -/
def vcDo (r : VcReq) (s : State) : VcAns × State :=
  let st : Nat := if r.op = 0x10 then 32 else if r.op = 0x11 then 64 else 0
  if usesSlot r.slot r && destroyedFor false r.slot s then ({ status := stBadParam }, s)
  else
    match vcRefuse true r s with
    | some e => ({ status := e }, s)
    | none =>
      if dmaFaulty r.src (srcLen r) s || dmaFaulty r.dst st s then ({ status := stHwFault }, raise evRamError [] s)
      else vcRun true r (ramGet .vault r.src (srcLen r) s) (ramGet .vault r.dst st s) s

/-- Execute the descriptor at the head of the queue if it has the given operation (R250). -/
def vcStep (op : Nat) (s : State) : State :=
  if s.eng.vcHead = s.eng.vcTail then s
  else
    let r := vcDescAt s.eng.vcHead s
    if r.op ≠ op then s
    else
      let (a, s) := vcDo r s
      let s := if a.status = stOk then ramPut .vault r.dst a.out s else s
      finishDestroys (vcGo 256 (vcComplete r.irq a s))

/-- The doorbell VC_QTAIL (R529). -/
def writeVcTail (v : Nat) (s : State) : State := vcGo 256 (onEng (fun e => { e with vcTail := v % 256 }) s)

/-- Bytes of operands a descriptor reads from SRC. -/
def meSrcLen (r : MeReq) : Nat := 8 * r.len * (meArity r.op - b2n r.keySrc)

def meResLen (r : MeReq) : Nat :=
  if r.op = 0x13 then 0 else if 0x10 ≤ r.op && r.op ≤ 0x12 then 16 * r.len else 8 * r.len

/-- The addresses of a descriptor are aligned and in vault RAM (log 44), and granted to the engine's DMA (R465). -/
def meAddrOk (r : MeReq) : Bool := rangeOk 8 r.src (meSrcLen r) && rangeOk 8 r.res (meResLen r)
def meGranted (r : MeReq) (s : State) : Bool :=
  dmaGranted s.vtW 2 r.src (meSrcLen r) .read && dmaGranted s.vtW 2 r.res (meResLen r) .write

/-- What the modular engine answers to the descriptor at the head. -/
def meDo (r : MeReq) (faulty : Bool) (s : State) : MeAns × State :=
  if !meFits r.op r.curve r.len || !meAddrOk r || (r.keySrc && r.verify) then ({ status := stBadParam }, s)
  else if !meGranted r s || (r.keySrc && destroyedFor true r.slot s) then ({ status := stDenied }, s)
  else if dmaFaulty r.src (meSrcLen r) s then ({ status := stHwFault }, raise evRamError [] s)
  else meRun r faulty (ramGet .vault r.src (meSrcLen r) s) s

/-- Execute the descriptor at the head of the modular queue if it has the given operation. -/
def meStep (op : Nat) (faulty : Bool) (s : State) : State :=
  if s.eng.meHead = s.eng.meTail then s
  else
    let r := meDescAt s.eng.meHead s
    if r.op ≠ op then s
    else
      let (a, s) := meDo r faulty s
      let s := if a.status = stOk then ramPut .vault r.res a.out s else s
      finishDestroys (meGo 8 (meComplete r.irq a.status s))

/-- The doorbell ME_QTAIL (R529). -/
def writeMeTail (v : Nat) (s : State) : State := meGo 8 (onEng (fun e => { e with meTail := v % 8 }) s)

/-- ME_CTL (R273, R529): with bit 0 the operation at the head is aborted with HW_FAULT. -/
def writeMeCtl (v : Nat) (s : State) : State :=
  if !bitN v 0 || s.eng.meHead = s.eng.meTail then s
  else finishDestroys (meGo 8 (meComplete (meDescAt s.eng.meHead s).irq stHwFault (scrubMe s)))

/-! ## Zeroise (R264, R273) -/

/-- A command whose request is at the head is answered HW_FAULT. -/
def faultOwner (o : Option Owed) (s : State) : State :=
  match o with
  | some o => refuse o.call stHwFault s
  | none => s

def vcAbortAll : Nat → State → State
  | 0, s => s
  | n + 1, s =>
    if s.eng.vcHead = s.eng.vcTail then s
    else
      let mine := s.eng.vcMine.contains s.eng.vcDone
      let s1 := if mine then faultOwner (vcOwner s) s else s
      vcAbortAll n (vcComplete (!mine && (vcDescAt s.eng.vcHead s).irq) { status := stHwFault } s1)

def meAbortAll : Nat → State → State
  | 0, s => s
  | n + 1, s =>
    if s.eng.meHead = s.eng.meTail then s
    else
      let mine := s.eng.meMine.contains s.eng.meDone
      let s1 := if mine then faultOwner (meOwner s) s else s
      meAbortAll n (meComplete (!mine && (meDescAt s.eng.meHead s).irq) stHwFault s1)

/-- A zeroise at the engines: every queued request HW_FAULT, buffers, cache and workspace cleared. -/
def zeroiseEngines (s : State) : State :=
  let s := onEng (fun e => { e with hold := [], vcCache := [] }) (vcAbortAll 256 s)
  meAbortAll 8 (scrubMe s)

end Sys2Proof.Machine
end

