-- ==== Sys2Proof/Machine/TagMem.lean ====
section
/-! DEFINITION. The tag area of MRAM: its bytes, the write journal, the status mirror of page 1 and the 64 tag
counters (R300, R307 to R311). -/
namespace Sys2Proof.Machine

/-- Factory contents (R289, R300, R307): the identification page, the counters' check fields, stored mode 1. -/
def tagFactory (a : Nat) : Byte :=
  if a < 16 then
    ([0x16, 0x40] ++ natLE 2 Config.stepCode ++ natLE 8 Config.serial ++ [0x01, 0x00, 0x00, 0x00]).getD a 0
  else if a = 122 then 1
  else if 256 ≤ a && a < 1280 && a % 8 ≥ 4 then 0xFF
  else 0

def tagByte (a : Nat) (s : State) : Byte := (smFind s.nv.tag a).getD (tagFactory a)

def tagBytes (a n : Nat) (s : State) : Bytes := (List.range n).map (fun i => tagByte (a + i) s)

def tagPutByte (a : Nat) (b : Byte) (m : SMap Byte) : SMap Byte :=
  if b = tagFactory a then smDel m a else smPut m a b

/-- Words completed: their bytes, and a word that was uncorrectable is good again (R404). -/
def tagStore (a : Nat) (b : Bytes) (s : State) : State :=
  onNv (fun n => { n with
    tag := b.zipIdx.foldl (fun m (x, i) => tagPutByte (a + i) x m) n.tag
    torn := n.torn.filter (fun w => !(a ≤ 8 * w && 8 * w < a + b.length)) }) s

/-- Write whole words, in ascending order. Where the field collapses during the command, the words that have started
complete and the others keep their old values (R288). -/
def tagPut (a : Nat) (b : Bytes) (s : State) : State :=
  match s.cl.fuel with
  | none => tagStore a b s
  | some k =>
    onCl (fun c => { c with fuel := some (k - ((a + b.length + 7) / 8 - a / 8)) }) (tagStore a (b.take (8 * (a / 8 + k) - a)) s)

def tagPages (p n : Nat) (s : State) : Bytes := tagBytes (16 * p) (16 * n) s

/-- A word of the range has an uncorrectable error (R404). -/
def tagTorn (a n : Nat) (s : State) : Bool := s.nv.torn.any (fun w => a < 8 * w + 8 && 8 * w < a + n)

/-- SEQ of JHDR and of JDONE (R309). -/
def jhdrSeq (s : State) : Nat := bitsN (leNat (tagBytes 1344 8 s)) 47 16
def jdoneSeq (s : State) : Nat := bitsN (leNat (tagBytes 1352 8 s)) 47 16

/-- One journal group of 1 to 4 pages: steps 1 to 4 of R309. -/
def tagGroup (page : Nat) (data : Bytes) (s : State) : State :=
  let n := data.length / 16
  let seq := (jdoneSeq s + 1) % 2 ^ 32
  let s := tagPut 1280 data s
  let s := tagPut 1344 (natLE 8 (page + 2048 * (n - 1) + 65536 * seq)) s
  let s := tagPut (16 * page) data s
  tagPut 1352 (natLE 8 (65536 * seq)) s

/-- Recovery of a group whose completion mark is missing (R310). -/
def tagRecover (s : State) : State :=
  let h := leNat (tagBytes 1344 8 s)
  if jhdrSeq s = jdoneSeq s then s
  else
    let s := tagPut (16 * bitsN h 10 0) (tagBytes 1280 (16 * (bitsN h 12 11 + 1)) s) s
    tagPut 1352 (natLE 8 (65536 * bitsN h 47 16)) s

/-- n pages in groups of four, ascending (R311). -/
def tagWrite : Nat → Nat → Bytes → State → State
  | 0, _, _, s => s
  | f + 1, page, data, s => if data = [] then s else tagWrite f (page + 4) (data.drop 64) (tagGroup page (data.take 64) s)

def tctr (s : State) : Nat := leNat (tagBytes 112 8 s)
def pwdFails (s : State) : Nat := leNat (tagBytes 120 2 s)
def storedMode (s : State) : Nat := leNat (tagBytes 122 1 s)

def setPwdFails (n : Nat) (s : State) : State := tagPut 120 (natLE 2 n) s
def setStoredMode (n : Nat) (s : State) : State := tagPut 122 (natLE 1 n) s

/-- TCTR + 1 is written before its use (R294). -/
def nextTctr (s : State) : Nat × State :=
  let v := (tctr s + 1) % 2 ^ 64
  (v, tagPut 112 (natLE 8 v) s)

/-! ## Counters (R307, R308) -/

/-- One copy of a counter: its value when the check holds and its word reads. -/
def ctrCopy (c : Nat) (backup : Bool) (s : State) : Option Nat :=
  let a := 16 * (16 + c) + (if backup then 8 else 0)
  let v := leNat (tagBytes a 4 s)
  if leNat (tagBytes (a + 4) 4 s) + v = 0xFFFFFFFF && !tagTorn a 8 s then some v else none

def ctrPut (c : Nat) (backup : Bool) (v : Nat) (s : State) : State :=
  tagPut (16 * (16 + c) + (if backup then 8 else 0)) (natLE 4 v ++ natLE 4 (0xFFFFFFFF - v)) s

/-- An uncorrectable error met in the tag area: on main power, the event and record of R404. -/
def tagReadError (s : State) : State := if s.plat.pwrOk then raise 138 [] s else s

/-- The value, with unequal or invalid copies rewritten first (R308); none when neither copy is valid. -/
def ctrValue (c : Nat) (s : State) : Option Nat × State :=
  let s := if tagTorn (16 * (16 + c)) 16 s then tagReadError s else s
  match ctrCopy c false s, ctrCopy c true s with
  | none, none => (none, s)
  | a, b =>
    let v := max (a.getD 0) (b.getD 0)
    (some v, if a = some v && b = some v then s
      else
        let s := if a = some v then s else ctrPut c false v s
        if b = some v then s else ctrPut c true v s)

/-- What an increment answers. -/
inductive CtrRes | lost | wrap | value (v : Nat)
  deriving DecidableEq, Repr

def ctrIncr (c n : Nat) (s : State) : CtrRes × State :=
  match ctrValue c s with
  | (none, s) => (.lost, s)
  | (some v, s) =>
    if 0xFFFFFFFF < v + n then (.wrap, s)
    else (.value (v + n), ctrPut c true (v + n) (ctrPut c false (v + n) s))

/-! ## Access maps (R301, R302) -/

def pageEntry (page : Nat) (s : State) : Nat :=
  let b := page / 16
  let v := leNat (tagBytes (16 * (8 + b / 32) + b % 32 / 2) 1 s)
  if b < 6 then 0 else if b % 2 = 0 then v % 16 else v / 16

def ctrEntry (c : Nat) (s : State) : Nat := leNat (tagBytes (16 * 12 + c / 4) 1 s) / 2 ^ (2 * (c % 4)) % 4

/-! ## The status mirror (R300) -/

def lifeNo (l : Life) : Nat :=
  match l with
  | .factory => 0
  | .owned => 1
  | .operational => 2
  | .sealed => 3
  | .retired => 4

/-- LEVEL, OFF and REST of a source's policy entry (R323). -/
def tampEntry (n : Nat) (s : State) : Nat := s.bk.table.getD n 8
def tampLevel (n : Nat) (s : State) : Nat := tampEntry n s % 8
def tampOff (n : Nat) (s : State) : Bool := bitN (tampEntry n s) 3
def tampRest (n : Nat) (s : State) : Bool := bitN (tampEntry n s) 4

/-- Sticky tamper sources: the SUMP or the backup sump holds the bit (R515, R516). -/
def tampSticky (n : Nat) (s : State) : Bool := bit256 s.ev.sumpW n || s.nv.bbram.sticky.getLsbD n

/-- One bit per response level that is sticky. -/
def tampSummary (s : State) : Nat :=
  ((List.range 5).map (fun l =>
    if (List.range 24).any (fun n => tampSticky n s && tampLevel n s == l) then 2 ^ l else 0)).sum

/-- A change that page 1 is to show (R300): the mirror update follows when it gets the lock (R313). -/
def tagMirror (s : State) : State := onCl (fun c => { c with mirror := true }) s

/-- Rewrite page 1 through the journal. -/
def writeMirror (s : State) : State :=
  tagGroup 1 (natLE 1 (lifeNo s.nv.life) ++ natLE 1 (tampSummary s) ++ natLE 6 (ptp16 s / 65536 / 1000000000)
    ++ List.replicate 8 0) s

end Sys2Proof.Machine
end

