-- ==== Sys2Proof/Machine/Tamper.lean ====
section
/-! DEFINITION. Tamper logic and the response levels (R317 to R333), and the waits they end. -/
namespace Sys2Proof.Machine

/-! ## Commands that wait for pump keys -/

/-- A KEY_RELEASE whose slots are EMPTY replies (R168). -/
def checkReleases (s : State) : State :=
  s.cmd.owed.foldl (fun s o =>
    match o.wait with
    | .slotEmpty l => if l.all (fun i => (kslot i s).state == 0) then replyOk o.call [] s else s
    | _ => s) s

/-- Loads that have not reached the store, the ones not yet begun too, are abandoned with a status (R169, R343). -/
def abandonLoads (st : Nat) (s : State) : State :=
  let s := s.cmd.owed.foldl (fun s o =>
    match o.wait with
    | .keyLoaded _ => refuse o.call st s
    | .held => if o.opcode = 0x0401 then refuse o.call st s else s
    | _ => s) s
  onPu (fun p => { p with keyChan := [], queued := [] }) s

/-! ## Response levels (R324) -/

/-- The scope a TAP instruction needs is open (R499). -/
def scopeFits (i : TapIns) (scope : BitVec 4) : Bool :=
  match i with
  | .bypass => true
  | .idcode => true
  | .sample => true
  | .debug => scope.getLsbD 1 || scope.getLsbD 2
  | _ => scope.getLsbD 0

/-- A scope opens, or ends as scope 0: an instruction that needs more reverts to BYPASS (R339, R501), and a core that a
scope halted runs again (R342). -/
def setScope (scope : BitVec 4) (until_ : Nat) (s : State) : State :=
  let s := if scope.getLsbD 1 then s else onCpu .control (fun c => { c with halted := false }) s
  let s := if scope.getLsbD 2 then s else onCpu .vault (fun c => { c with halted := false }) s
  let s := onTap (fun t => { t with scope := scope, until_ := until_ }) s
  if scopeFits s.tap.ins scope then s else relinkAll (onTap (fun t => { t with ins := .bypass }) s)

def endScope (s : State) : State := setScope 0 s.tap.until_ s

/-- Level 2. -/
def respSeal (s : State) : State :=
  let s := endScope s
  if s.nv.life = .owned || s.nv.life = .operational then onNv (fun n => { n with life := .sealed }) s else s

/-- Level 3 (R167). -/
def respDrop (s : State) : State := checkReleases (dropPumpKeys s)

/-- Level 4: the key-encryption key, the engines, the vault slots, ZEROISED (R248, R264, R273, R324). -/
def respZeroise (s : State) : State :=
  let s := onNv (fun n => { n with bbram := { n.bbram with kek := none, odd := [] } }) s
  let s := zeroiseEngines s
  finishDestroys (onNv (fun n => { n with slots := [], zeroised := true }) s)

/-- Every effect of a level (R324). -/
def respond (level : Nat) (s : State) : State :=
  let s := if 2 ≤ level then respSeal s else s
  let s := if 4 ≤ level then abandonLoads stHwFault s
    else if 2 ≤ level && s.nv.life = .sealed then abandonLoads stSealed s else s
  let s := if 3 ≤ level then respDrop s else s
  if 4 ≤ level then respZeroise s else s

/-- Raise the applied level, with its notice to Pumphouse; it is never lowered (R20, R327). -/
def applyLevel (level : Nat) (s : State) : State :=
  let s := if 1 ≤ level then sendRiser false .evt .tamperNotices (natLE 1 level) s else s
  let held := s.plat.stage == .reset
  respond level (onBk (fun b => { b with
    applied := some (max level (b.applied.getD level))
    resetLevel := if held then some (max level (b.resetLevel.getD level)) else b.resetLevel }) s)

/-! ## Firing (R327, R328) -/

/-- Sources 18 to 23 are occurrences without a lasting condition (R318; log 45). -/
def momentary (n : Nat) : Bool := 18 ≤ n

/-- A source that would fire now: in the set, monitored, inactive and armed. -/
def mayFire (set_ : BitVec 32) (s : State) (n : Nat) : Bool :=
  set_.getLsbD n && !tampOff n s && !s.bk.active.getLsbD n && !s.bk.disarmed.getLsbD n

def setBit32 (v : BitVec 32) (n : Nat) : BitVec 32 := v ||| BitVec.twoPow 32 n
def clrBit32 (v : BitVec 32) (n : Nat) : BitVec 32 := v &&& ~~~ BitVec.twoPow 32 n

/-- The records of one firing (R324 levels 0 and 1, R328). -/
def recordFiring (s : State) (n : Nat) : State :=
  let s := onBk (fun b => { b with
    active := if momentary n then b.active else setBit32 b.active n
    disarmed := setBit32 b.disarmed n
    offAt := if momentary n then smSet 0 b.offAt n s.clk.now else b.offAt
    counts := smSet 0 b.counts n (min 65535 (smGet 0 b.counts n + 1)) }) s
  let s := onNv (fun v => { v with bbram := { v.bbram with sticky := setBit32 v.bbram.sticky n } }) s
  let s := logRecord n 1 0 [] (sumpSet n s)
  if 1 ≤ tampLevel n s then evRaise n s else s

/-- Sources become active, and are not armed while they are, whether they fire or not (R320, R328): those with a lasting
condition. -/
def goActive (set_ : BitVec 32) (s : State) : State :=
  let l := set_ &&& 0x3FFFF
  onBk (fun b => { b with active := b.active ||| l, disarmed := b.disarmed ||| l }) s

/-- Sources fire in one clock on main power, ahead of every other MRAM master (R327, R406): every one recorded in ascending
order, the highest level applied. A source that is OFF or not armed only becomes active (R323, R328). -/
def fire (set_ : BitVec 32) (s : State) : State :=
  let l := (List.range 24).filter (mayFire set_ s)
  let s := goActive set_ s
  if l = [] then s
  else
    let s := mramTurn 0 mramTamper (mramTurn 2 mramTamper s)
    tagMirror (applyLevel ((l.map (fun n => tampLevel n s)).foldl max 0) (l.foldl recordFiring s))

/-- One source of the hardware itself. -/
def fireOne (n : Nat) (s : State) : State := fire (BitVec.twoPow 32 n) s

abbrev srcBicPh : Nat := 18
abbrev srcBicWh : Nat := 19
abbrev srcBicRiser : Nat := 20
abbrev srcLockC : Nat := 21
abbrev srcLockV : Nat := 22
abbrev srcDebug : Nat := 23

/-- A source becomes inactive (R328). -/
def goInactive (n : Nat) (s : State) : State :=
  if s.bk.active.getLsbD n then
    onBk (fun b => { b with active := clrBit32 b.active n, offAt := smSet 0 b.offAt n s.clk.now }) s
  else s

/-- The level of case inputs from the set of sources whose condition holds. -/
def caseLevels (set_ : BitVec 32) (s : State) : BitVec 4 :=
  (List.range 4).foldl (fun v n =>
    let lvl := if set_.getLsbD n then !tampRest n s else v.getLsbD n
    if lvl then v ||| BitVec.twoPow 4 n else v &&& ~~~ BitVec.twoPow 4 n) s.bk.caseLvl

/-- Detectors fire on main power (R536); without it the condition stands until a backup sample, or main power, finds it. -/
def tamperFires (srcs : BitVec 32) (s : State) : State :=
  let s := onBk (fun b => { b with caseLvl := caseLevels srcs s, cond := b.cond ||| srcs }) s
  if s.plat.pwrOk then fire srcs s else s

/-- A source's condition ends (R320, R328). -/
def execTamperSourceInactive (dt : Nat) (src : Fin 24) (s : State) : Res :=
  let s := advance dt s
  let s := if src.val < 4 then
      onBk (fun b => { b with caseLvl := if tampRest src.val s then b.caseLvl ||| BitVec.twoPow 4 src.val
                                         else b.caseLvl &&& ~~~ BitVec.twoPow 4 src.val }) s
    else s
  done (goInactive src.val (onBk (fun b => { b with cond := clrBit32 b.cond src.val }) s))

/-- A source inactive for 10 ms is armed again (R328). -/
def execTamperRearm (dt : Nat) (src : Fin 24) (s : State) : Res :=
  let s := advance dt s
  let n := src.val
  done (if !s.bk.active.getLsbD n && smGet 0 s.bk.offAt n + msTicks 10 ≤ s.clk.now then
      onBk (fun b => { b with disarmed := clrBit32 b.disarmed n, offAt := smSet 0 b.offAt n 0 }) s
    else s)

/-- A new tamper table takes effect (R320, R343): case inputs are judged against its REST bits, and page 1 shows the levels
that are sticky now (R300). -/
def newTable (t : List Nat) (s : State) : State :=
  let s := tagMirror (onBk (fun b => { b with table := t }) s)
  let diff := (List.range 4).filter (fun n => s.bk.caseLvl.getLsbD n != tampRest n s)
  let s := (List.range 4).foldl (fun s n => if diff.contains n then s else goInactive n s) s
  fire (diff.foldl (fun v n => setBit32 v n) 0) s

/-! ## Backup power (R330, R331) -/

/-- Sources that run on backup (R318). -/
def onBackup (n : Nat) : Bool := n ≤ 7 || n = 11 || n = 12 || (14 ≤ n && n ≤ 17)

def backupSet : BitVec 32 := (List.range 24).foldl (fun v n => if onBackup n then setBit32 v n else v) 0

/-- Main power is gone: sources that do not run on backup are monitored no longer (R330, R475). -/
def unmonitor (s : State) : State :=
  ((List.range 24).filter (fun n => !onBackup n)).foldl (fun s n => goInactive n s) s

/-- One bit of a loop's register of polynomial x^32 + x^22 + x^2 + x + 1 (R321). -/
def lfsrStep (v : Word) : Word :=
  let b := v.getLsbD 31 != (v.getLsbD 21 != (v.getLsbD 1 != v.getLsbD 0))
  (v <<< 1) ||| (if b then 1 else 0)

/-- A register after n bits. -/
def lfsrRun : Nat → Word → Word
  | 0, v => v
  | n + 1, v => lfsrRun n (lfsrStep v)

/-- The loops and tracks up to the present instant on main power, one bit per microsecond (R321). -/
def lfsrSync (s : State) : State :=
  let n := (s.clk.now - s.bk.lfsrAt) / usTicks 1
  onBk (fun b => { b with lfsr := b.lfsr.map (lfsrRun n), shield := b.shield.map (lfsrRun n), lfsrAt := b.lfsrAt + usTicks n }) s

/-- A seed that is not zero and differs from the seeds before it (R321; log 126). -/
def loopSeed (used : List Word) (v : Word) : Word :=
  ((List.range (used.length + 2)).map (fun i => v + BitVec.ofNat 32 i)).find? (fun x => x ≠ 0 && !used.contains x) |>.getD v

/-- The vault core seeds the registers from the noise well at start-up (R321). -/
def seedLoops (s : State) : State :=
  if s.nw.lost then s
  else
    let (b, s) := takeEntries 5 s
    let seeds := ((blocksOf 4 b).take 36).foldl (fun l w => l ++ [loopSeed l (BitVec.ofNat 32 (leNat w))]) []
    onBk (fun b => { b with lfsr := seeds.take 4, shield := seeds.drop 4, lfsrAt := s.clk.now }) s

/-- A firing on backup power (R331). -/
def backupFiring (s : State) (n : Nat) : State :=
  let lvl := tampLevel n s
  let s := onBk (fun b => { b with
    active := setBit32 b.active n
    disarmed := setBit32 b.disarmed n
    counts := smSet 0 b.counts n (min 65535 (smGet 0 b.counts n + 1)) }) s
  let rtc := s.clk.rtc
  let s := onNv (fun v =>
    let m := v.bbram
    let t := if smGet 0 m.times n = 0 then smSet 0 m.times n rtc else m.times
    let p := if lvl = 0 then m.pending else if m.pending = 255 then lvl else max m.pending lvl
    { v with bbram := { m with sticky := setBit32 m.sticky n, times := t, pending := p } }) s
  let s := onBk (fun b => { b with raiseLater := setBit32 b.raiseLater n }) s
  if lvl = 4 then onNv (fun v => { v with bbram := { v.bbram with kek := none, odd := [] } }) s else s

/-- 15.625 ms (R330). -/
def sampleTicks : Nat := 3906250

/-- One monitor sample on backup power (R330). -/
def execBackupSample (dt : Nat) (conds : BitVec 32) (s : State) : Res :=
  let s := advance dt s
  if s.plat.pwrOk || !s.plat.vbat || s.clk.now < s.bk.sampleAt + sampleTicks then done s
  else
    let conds := if s.plat.xtal32 then conds else setBit32 conds 12
    let loop (n : Nat) : Bool := 4 ≤ n && n ≤ 7
    let holds (n : Nat) : Bool := conds.getLsbD n && (!loop n || s.bk.loopMiss.getLsbD (n - 4))
    let idle := (List.range 24).filter (fun n => onBackup n && !conds.getLsbD n)
    let set_ : BitVec 32 := (List.range 24).foldl (fun v n => if onBackup n && holds n then setBit32 v n else v) 0
    let rearm := idle.filter (fun n => !s.bk.active.getLsbD n && smGet 0 s.bk.offAt n + msTicks 10 ≤ s.clk.now)
    let s := idle.foldl (fun s n => goInactive n s) s
    let s := rearm.foldl (fun s n => onBk (fun b => { b with disarmed := clrBit32 b.disarmed n }) s) s
    let s := goActive set_ (((List.range 24).filter (mayFire set_ s)).foldl backupFiring s)
    done (onBk (fun b => { b with
      sampleAt := s.clk.now, loopMiss := (conds >>> 4).setWidth 4, lfsr := b.lfsr.map lfsrStep, shield := b.shield.map lfsrStep
      caseLvl := (List.range 4).foldl (fun v n =>
        if conds.getLsbD n != tampRest n s then v ||| BitVec.twoPow 4 n else v &&& ~~~ BitVec.twoPow 4 n) b.caseLvl
      cond := (b.cond &&& ~~~ backupSet) ||| (conds &&& backupSet) }) s)

/-! ## Commands -/

def s32le (i : Int) : Bytes := natLE 4 (ofSigned 4 i)

/-- Free values of n detectors, each a 32-bit reading (R535). -/
def drawReadings : Nat → State → Bytes × State
  | 0, s => ([], s)
  | n + 1, s =>
    let (v, s) := draw 32 s
    let (r, s) := drawReadings n s
    (natLE 4 v ++ r, s)

/-- TAMPER_STATUS (R327, R328, R535). -/
def tamperStatusBody (c : Call) (s : State) : State :=
  let counts := ((List.range 24).map (fun n => natLE 2 (smGet 0 s.bk.counts n))).flatten
  let sticky : BitVec 32 := (List.range 24).foldl (fun v n => if tampSticky n s then setBit32 v n else v) 0
  let basic := [r32 1 s.bk.active.toNat, r32 2 sticky.toNat, r8 3 (s.bk.applied.getD 255), rtlv 4 counts]
  if c.pkt.expert then
    let cases := ((List.range 4).map (fun n => natLE 4 (b2n (s.bk.caseLvl.getLsbD n)))).flatten
    let (v, s) := drawReadings 14 s
    replyOk c (basic ++ [rtlv 5 (cases ++ v ++ List.replicate 24 0)]) s
  else replyOk c basic s

/-- TAMPER_TEST (R329): pass or fail of the replica is a free value. -/
def tamperTestBody (c : Call) (s : State) : State :=
  if 24 ≤ argD c 1 0 then badParam c 1 s
  else
    let (v, s) := draw 1 s
    replyOk c [r8 1 v] s

end Sys2Proof.Machine
end

