-- ==== Sys2Proof/Machine/PathEvents.lean ====
section
/-! DEFINITION. Events of the pumps, the key channel, the riser link, the line ports and the transactions
(R16 to R22, R43, R133, R138, R141, R146, R163 to R177). -/
namespace Sys2Proof.Machine

/-! ## Pumps -/

/-- The known-answer round of a pump, every 1 ms or at once after a lane mismatch (R175, R176); `err` is what is wrong
with its three results. Jobs that wait may find other pumps after a declaration. -/
def execKnownAnswerTest (dt : Nat) (pump : Fin 4) (err : BitVec 384) (s : State) : Res :=
  let s := pass dt s
  let p := Sys2Proof.Machine.pump pump.val s
  done (if running s && (p.katNow || p.katAt ≤ s.clk.now) then
      let s := onPump pump.val (fun x => { x with katAt := s.clk.now + msTicks 1, katNow := false }) s
      dispatchWaiting (katRound pump.val (katPass err s) s)
    else s)

/-- Every 62,500,000 pump clocks, 100 ms (R146). -/
def execPairingRotation (dt : Nat) (s : State) : Res :=
  let s := pass dt s
  if !running s then done s else
  done (if s.pu.rotAt ≤ s.clk.now then
      rotatePairs (onPu (fun p => { p with rotAt := s.clk.now + msTicks 100 }) s)
    else s)

/-- Ticks of 2^20 and of 2^24 pump clocks (R171). -/
def reseedTicks : Nat := pumpTicks (2 ^ 20)
def overdueTicks : Nat := pumpTicks (2 ^ 24)

/-- A pump's mask generator is reseeded (R171); not served once both banks have failed (R282) nor across a riser that
does not carry payload (R22). -/
def execMaskReseed (dt : Nat) (pump : Fin 4) (s : State) : Res :=
  let s := advance dt s
  if !running s then done s else
  if (Sys2Proof.Machine.pump pump.val s).reseedAt + reseedTicks ≤ s.clk.now && !s.nw.lost && riserUp s then
    let (v, s) := takePool (poolTurn pump.val s)
    done (onPump pump.val (fun p => { p with gen := v, reseedAt := s.clk.now, overdue := false }) s)
  else done s

/-- A reseed that did not arrive 2^24 clocks after it was due (R171). -/
def execMaskReseedOverdue (dt : Nat) (pump : Fin 4) (s : State) : Res :=
  let s := advance dt s
  if !running s then done s else
  let p := Sys2Proof.Machine.pump pump.val s
  if p.reseedAt + reseedTicks + overdueTicks ≤ s.clk.now && !p.overdue then
    done (raise 73 [pump.val] (onPump pump.val (fun p => { p with overdue := true }) s))
  else done s

/-- One row of the background sweep every 64 pump clocks (R165). -/
def execRemaskSweep (dt : Nat) (e : MemErr) (s : State) : Res :=
  let s := pass dt s
  if !running s then done s else
  done (if s.pu.sweepAt + pumpTicks 64 ≤ s.clk.now then sweepRow e (onPu (fun p => { p with sweepAt := s.clk.now }) s)
    else s)

/-! ## The KEY channel (R133, R163) -/

/-- The load message at the head of the channel is written into the store, and its KEY_LOAD replies (R163, R168). No key
changes while the vault core is stopped (R35). -/
def storeLoad (s : State) : State :=
  if !vaultReached s then s
  else match s.pu.keyChan with
  | [] => s
  | m :: r =>
    let s := sendRiser false .key .keyStore (natLE 2 m.slot ++ natLE 1 m.ktype ++ natLE 4 m.keyId ++ natLE 4 m.epoch ++
      natLE 6 m.notAfter ++ bytes256 m.share0 ++ bytes256 m.share1) s
    let s := storeKey m (onPu (fun p => { p with keyChan := r }) s)
    match s.cmd.owed.find? (fun o => o.wait == .keyLoaded m.slot) with
    | some o => replyOk o.call [r16 1 m.slot, r32 2 m.keyId, r32 3 m.epoch] s
    | none => s

/-- The vault core takes the drain notice of a slot: the slot EMPTY, a queued load sent, the releases answered (R133).
In the clock of the change to DRAINING a selection may still take the slot, so the notice is taken in the next. -/
def slotDrained (i : Nat) (s : State) : State :=
  if !s.pu.drained.contains i || !vaultReached s then s
  else
    let s := if (kslot i s).drainAt = some s.clk.now then advance 1 s else s
    let s := emptySlot i (sendRiser false .key .keyReleases (natLE 2 i) s)
    let s := match s.pu.queued.find? (fun m => m.slot == i) with
      | some m => onPu (fun p => { p with
          queued := p.queued.filter (fun x => x.slot ≠ i), keyChan := p.keyChan ++ [m] }) s
      | none => s
    checkReleases s

/-! ## Line ports -/

/-- A link changes (R43, R90). -/
def execLinkChange (port : Fin 4) (up : Bool) (s : State) : Res :=
  done (relink port.val (onPort port.val (fun x => { x with linkIn := up }) (pass 0 s)))

/-! ## Transactions (R138, R141) -/

def execTxnArmedInstant (dt : Nat) (slot : Fin 8) (s : State) : Res :=
  let s := pass dt s
  if !running s then done s else
  let t := txnOf slot.val s
  done (if t.st == .armed && t.instant ≤ ptp16 s then commitTxn slot.val t.instant (cdcPass cdcEvents 1 s) else s)

/-- Settling begins 2 ms after the instant (R141). A transaction with nothing to settle is FREE at once. -/
def execSettlingStart (dt : Nat) (slot : Fin 8) (s : State) : Res :=
  let s := pass dt s
  if !running s then done s else
  let t := txnOf slot.val s
  if t.st == .committed && !t.settling && t.wallAt + msTicks 2 ≤ s.clk.now then
    done (if toSettle t then onTxn slot.val (fun t => { t with settling := true }) s
      else onTxn slot.val (fun t => { ({} : Txn) with failed := t.failed }) s)
  else done s

def execSettleEntry (slot : Fin 8) (s : State) : Res :=
  if !running s then done s else
  let t := txnOf slot.val s
  done (if t.st == .committed && t.settling then stepTxn slot.val settleChange (cisternServe reqWriteBack 4 s) else s)

def execCleanupEntry (slot : Fin 8) (s : State) : Res :=
  if !running s then done s else
  done (if (txnOf slot.val s).st == .aborting then stepTxn slot.val cleanupChange (cisternServe reqWriteBack 4 s) else s)

/-! ## The riser link (R16 to R22) -/

/-- At most one sump record of kind 0x0103 per second, with the counts (R19, R517). -/
def riserRecord (s : State) : State :=
  let due : Bool := match s.ri.recordAt with
    | some t => t + secTicks 1 ≤ s.clk.now
    | none => true
  if due then logRecord 0x0103 1 0 [s.ri.discards, s.ri.retrains] (onRi (fun r => { r with recordAt := some s.clk.now }) s)
  else s

/-- A retrain begins (R19, R22, R318 source 20); the groups not acknowledged stay the next to send. -/
def beginRetrain (s : State) : State :=
  let s := raise 78 [] s
  let s := onRi (fun r => { r with
    st := .retraining, since := s.clk.now, retrains := satAdd 4294967295 r.retrains 1
    toW := { r.toW with failed := 0 }, toP := { r.toP with failed := 0 } }) s
  fireOne srcBicRiser (riserRecord s)

/-- A group whose tag does not verify (R19): discarded and counted, and a replay is requested from its number; the
fourth failure of one group retrains; sixteen within one second fire the bus integrity source. -/
def discardGroup (toW : Bool) (s : State) : State :=
  let now := s.clk.now
  let recent := s.ri.recent.filter (fun t => now < t + secTicks 1) ++ [now]
  let hit := 16 ≤ recent.length
  let s := onRi (fun r => { onDir toW (fun d => { d with failed := d.failed + 1 }) r with
    discards := satAdd 4294967295 r.discards 1, recent := if hit then [] else recent }) s
  let s := if hit then fireOne srcBicRiser s else s
  if 4 ≤ (riserDir toW s.ri).failed then beginRetrain s else riserRecord s

/-! ### Groups on the wire (R16, R17; log 103) -/

/-- The initialization vector of a group: its direction and its number (R17). -/
def groupIv (toW : Bool) (g : RGroup) : Bytes := natLE 4 (b2n toW) ++ natLE 8 g.seq

/-- The trailer behind the tag: the 48-bit sequence number and the 16-bit credit-return field, whose top bit marks the
last group under a key (R16, R18). -/
def groupTrailer (g : RGroup) : Bytes := natLE 6 g.seq ++ natLE 2 (g.credit + if g.last then 32768 else 0)

/-- The seven payload flits of a group; free slots are zero. -/
def groupPayload (g : RGroup) : Bytes := fit 112 (g.flits.map (fun f => bytes128 f.2)).flatten

/-- The key a group goes under. -/
def groupKey (g : RGroup) (r : Ri) : Bytes := bytes128 (if g.keyGen = r.keyGen then r.key else r.oldKey)

/-- The 64-bit integrity tag over a group: its encrypted payload and its trailer (R16, R17). -/
def groupTag (toW : Bool) (g : RGroup) (ct trailer : Bytes) (r : Ri) : Bytes :=
  (gcmTag (groupKey g r) (groupIv toW g) trailer ct).take 8

/-- The eight flits of a group as they go over the link: encrypted payload, tag, trailer. -/
def groupWire (toW : Bool) (g : RGroup) (r : Ri) : Bytes :=
  let ct := gcmCrypt (groupKey g r) (groupIv toW g) (groupPayload g)
  ct ++ groupTag toW g ct (groupTrailer g) r ++ groupTrailer g

/-- Whether eight received flits are the group with that number: its tag verifies under the receiver's key and number. -/
def groupVerifies (toW : Bool) (g : RGroup) (w : Bytes) (r : Ri) : Bool :=
  slice w 112 8 == groupTag toW g (w.take 112) (w.drop 120) r && leNat (slice w 120 6) == g.seq

/-- The group arrives with the given bits flipped on the way, first bit most significant; an untouched group verifies, for
its tag is the one the receiver forms. -/
def arrivesWhole (toW : Bool) (g : RGroup) (flips : BitVec 1024) (r : Ri) : Bool :=
  flips == 0 || groupVerifies toW g (xorBytes (groupWire toW g r) (natBE 128 flips.toNat)) r

/-- A flit group arrives (R16, R19): the group whose last flit comes now, or at the end of the next group time. The other
direction's group of that time arrives whole. -/
def groupReceived (toW : Bool) (flips : BitVec 1024) (s : State) : State :=
  if s.ri.st ≠ .up then s
  else
    let s := if linkDue s.clk.now s.ri = 0 then advance (s.ri.at_ + 4 - s.clk.now) s else s
    let r := linkSync (linkDue s.clk.now s.ri - 1) s.ri
    let (g, r) := formGroup toW false r
    let (h, r) := formGroup (!toW) false r
    let r := { takeGroup (!toW) h r with at_ := r.at_ + 4 }
    if arrivesWhole toW g flips r then onRi (fun _ => takeGroup toW g r) s else discardGroup toW (onRi (fun _ => r) s)

/-- The link resumes (R19, R22): from the first group not acknowledged, and what waited crosses. An attempt takes at most
20 µs, so a later return is that of a further retrain, each of them counted (log 103). -/
def retrainDone (s : State) : State :=
  if s.ri.st == .up then s
  else
    let more := (s.clk.now - s.ri.since - 1) / usTicks 20
    askWaiting (crossWaiting (onRi (fun r => { r with
      st := .up, at_ := s.clk.now, retrains := satAdd 4294967295 r.retrains more }) s))

/-- Commands that need the vault and wait for it are answered when the riser is down (R22). -/
def failVaultWaits (s : State) : State :=
  s.cmd.owed.foldl (fun s o =>
    if o.wait ≠ .held && vaultServed o.opcode o.call && vaultDown s then refuse o.call stHwFault s else s) s

/-- 10 ms after the retrain began (R22). -/
def riserGoesDown (s : State) : State :=
  if s.ri.st == .retraining && s.ri.since + msTicks 10 ≤ s.clk.now then
    failVaultWaits (abandonLoads stHwFault (onRi (fun r => { r with st := .down }) s))
  else s

/-- The purpose label of the riser session key (R283). -/
abbrev labelRiser : Nat := 1

/-- The vault core draws a riser session key and delivers it to both link ends (R17, R18). -/
def newRiserKey (s : State) : State :=
  let (k, s) := ruleKey labelRiser s
  onRi (fun r => { r with
    key := k.setWidth 128, oldKey := r.key, keyGen := r.keyGen + 1, keySeqW := r.toW.seq, keySeqP := r.toP.seq }) s

/-- Groups of a direction under the present key, at the present instant (R17, R18). -/
def groupsUnderKey (toW : Bool) (s : State) : Nat :=
  let r := linkSync (linkDue s.clk.now s.ri) s.ri
  ((riserDir toW r).seq + 2 ^ 48 - (if toW then r.keySeqW else r.keySeqP)) % 2 ^ 48

/-- After 2^40 groups of either direction the vault core, if it is reached, replaces the key; the last group under the
old key bears the mark (R18). -/
def execRiserKeyReplacement (dt : Nat) (s : State) : Res :=
  let s := advance dt s
  if !running s then done s else
  done (if vaultReached s && (2 ^ 40 ≤ groupsUnderKey true s || 2 ^ 40 ≤ groupsUnderKey false s) then
      newRiserKey (onRi (fun r =>
        let r := linkSync (linkDue s.clk.now r) r
        { linkStep true r with at_ := r.at_ + 4 }) s)
    else s)

end Sys2Proof.Machine
end

