-- ==== Sys2Proof/Machine/Auth.lean ====
section
/-! DEFINITION. Authority objects, policy, key packages, associations, tokens and the lifecycle
(R156, R168, R169, R334 to R337, R339, R353 to R360, R534). -/
namespace Sys2Proof.Machine

/-! ## Authority objects (R353, R354) -/

/-- Cut an object into its fields; none where its length does not fit. -/
def parseAuth (b : Bytes) : Option AuthObj :=
  let n := leNat (slice b 4 4)
  if b.length < 2076 || b.length ≠ 2076 + n + 96 + 3309 then none
  else some {
    kind := leNat (slice b 0 1), fmt := leNat (slice b 1 1), signer := leNat (slice b 2 1),
    rsv := leNat (slice b 3 1) = 0 && leNat (slice b 121 3) = 0, bodyLen := n, domain := slice b 8 16,
    spubEc := slice b 24 97, spubPq := slice b 124 1952, body := slice b 2076 n,
    sigEc := slice b (2076 + n) 96, sigPq := slice b (2172 + n) 3309 }

/-- The bytes both signatures cover. -/
def authSigned (o : AuthObj) : Bytes :=
  [BitVec.ofNat 8 o.kind, BitVec.ofNat 8 o.fmt, BitVec.ofNat 8 o.signer, 0] ++ natLE 4 o.bodyLen ++ o.domain ++
    o.spubEc ++ [0, 0, 0] ++ o.spubPq ++ o.body

def rootRevoked (n : Nat) (s : State) : Bool := smGet 0 s.nv.revoked n ≠ 0

/-- The KIND admits the SIGNER (R354, R339). -/
def signerFits (o : AuthObj) (s : State) : Bool :=
  let root := o.signer < 4
  let owner := o.signer = 0x10
  match o.kind with
  | 0x01 => root
  | 0x02 => root
  | 0x11 => root
  | 0x03 => owner
  | 0x10 => owner
  | 0x12 => owner
  | 0x13 => owner
  | 0x14 => owner
  | 0x21 => owner
  | 0x22 => owner
  | 0x24 => owner
  | 0x23 => if s.nv.life = .factory then root else owner
  | _ => false

/-- The signer's stored hash and the domain (R353). -/
def signerHash (o : AuthObj) (s : State) : Option Bytes :=
  if o.signer < 4 then
    if rootRevoked o.signer s || o.domain.any (· ≠ 0) then none else some (natBE 48 (Config.rootHash o.signer).toNat)
  else if o.domain = s.nv.domain then s.nv.ownerHash else none

/-- The device accepts the object (R353). -/
def accepted (o : AuthObj) (s : State) : Bool :=
  o.fmt = 1 && o.rsv && signerFits o s && signerHash o s = some (sha384 (o.spubEc ++ o.spubPq)) &&
    Config.ecdsaVerify 4 o.spubEc (authSigned o) o.sigEc && Config.mlDsaVerify o.spubPq (authSigned o) o.sigPq

/-- An accepted object of one of the kinds in a parameter. -/
def authArg (c : Call) (ty : Nat) (kinds : List Nat) (s : State) : Option AuthObj :=
  match (argOf c ty).bind parseAuth with
  | some o => if kinds.contains o.kind && accepted o s then some o else none
  | none => none

/-! ## Policy (R355, R356) -/

def policyOf (b : Bytes) : Policy :=
  { version := leNat (slice b 0 4), dual := bitN (leNat (slice b 4 1)) 0, autorevC := bitN (leNat (slice b 5 1)) 0,
    autorevV := bitN (leNat (slice b 5 1)) 1, kemreq := leNat (slice b 6 1) = 1, unlock := leNat (slice b 7 1),
    expertPcie := leNat (slice b 8 2), expertSpi := leNat (slice b 10 2), expertApp := leNat (slice b 12 2),
    trial := leNat (slice b 14 2), tamper := (slice b 16 32).map (·.toNat) }

def policyBytes (p : Policy) : Bytes :=
  natLE 4 p.version ++ natLE 1 (b2n p.dual) ++ natLE 1 (b2n p.autorevC + 2 * b2n p.autorevV) ++ natLE 1 (b2n p.kemreq) ++
    natLE 1 p.unlock ++ natLE 2 p.expertPcie ++ natLE 2 p.expertSpi ++ natLE 2 p.expertApp ++ natLE 2 p.trial ++
    p.tamper.map (BitVec.ofNat 8) ++ List.replicate 16 0

/-- The tamper table passes the checks of R323. -/
def tableOk (t : List Nat) : Bool :=
  t.length = 32 && t.zipIdx.all (fun (e, i) =>
    e % 8 ≤ 4 && e < 32 && (i < 4 || !bitN e 4) && (i < 24 || bitN e 3))

/-- The body's reserved bytes are zero and its values in range (R356). -/
def policyOk (b : Bytes) : Bool :=
  let p := policyOf b
  b.length = 64 && (b.drop 48).all (· == 0) && leNat (slice b 4 1) ≤ 1 && leNat (slice b 5 1) ≤ 3 &&
    leNat (slice b 6 1) ≤ 1 && p.unlock ≤ 2 && p.expertPcie < 16384 && p.expertSpi < 16384 && p.expertApp < 16384 &&
    60 ≤ p.trial && p.trial ≤ 3600 && tableOk p.tamper

/-- The stored policy in force: the accepted copy with the higher VERSION (R355). -/
def chosenPolicy (s : State) : Option Policy :=
  let good (o : Option AuthObj) : Option Policy :=
    match o with
    | some o => if o.kind = 0x10 && accepted o s then some (policyOf o.body) else none
    | none => none
  match good s.nv.polA, good s.nv.polB with
  | some a, some b => some (if b.version ≤ a.version then a else b)
  | some a, none => some a
  | none, r => r

/-- A policy takes effect (R320, R343, R356). -/
def applyPolicy (p : Policy) (s : State) : State :=
  newTable p.tamper (setStandby { s with pol := p })

/-- POLICY_LOAD (R355). -/
def policyLoadBody (c : Call) (s : State) : State :=
  match authArg c 1 [0x10] s with
  | none => refuse c stDenied s
  | some o =>
    let p := policyOf o.body
    if !policyOk o.body then badParam c 1 s
    else if p.version ≤ s.pol.version then refuse c stDenied s
    else
      let v (x : Option AuthObj) : Int := match x with | some y => (leNat (y.body.take 4) : Int) | none => -1
      let s := onNv (fun n => if v n.polA ≤ v n.polB then { n with polA := some o } else { n with polB := some o }) s
      replyOk c [r32 1 p.version] (applyPolicy p s)

/-- POLICY_GET (R243). -/
def policyGetBody (c : Call) (s : State) : State :=
  let p := s.pol
  replyOk c ([r32 1 p.version, r8 2 (b2n p.dual), r16 3 p.expertPcie, r16 3 p.expertSpi, r16 3 p.expertApp] ++
    (if c.pkt.expert then [rtlv 4 (sha384 (policyBytes p))] else [])) s

/-! ## Key packages (R357, R358) -/

structure KeyPkg where
  ktype : Nat
  keyId : Nat
  epoch : Nat
  notAfter : Nat
  key : Bytes
  deriving DecidableEq, Repr

/-- Key bytes a KTYPE takes (R358). -/
def keyLen (kt : Nat) : Option Nat :=
  match kt with
  | 0 => some 16
  | 1 => some 32
  | 2 => some 32
  | 3 => some 32
  | 4 => some 48
  | 5 => some 66
  | 6 => some 32
  | 7 => some 32
  | 8 => some 64
  | 9 => some 32
  | _ => none

/-- Keeper slots that hold the static keys (log 123). -/
abbrev slotX25519 : Nat := 0
abbrev slotMlKem : Nat := 1

/-- The wrapping key of a package (R358 steps 1 to 3) from the static keys; none when the agreement gives zero. -/
def packageKek (x kem b : Bytes) : Option Bytes :=
  let ss1 := x25519 (leNat x) (leNat (slice b 28 32))
  let ss2 := if leNat (slice b 8 1) = 2 then Config.mlKemDecap kem (slice b 60 1088) else []
  if ss1 = 0 then none else some (hkdf384 [] (natLE 32 ss1 ++ ss2) (slice b 0 8 ++ slice b 12 4 ++ slice b 16 4) 32)

/-- The static keys a package needs, out of their keeper slots (R248, R358). -/
def staticKeys (b : Bytes) (s : State) : Option (Bytes × Bytes) × State :=
  match slotKey slotX25519 s with
  | (none, s) => (none, s)
  | (some x, s) =>
    if leNat (slice b 8 1) = 2 then
      match slotKey slotMlKem s with
      | (none, s) => (none, s)
      | (some k, s) => (some (x, k), s)
    else (some (x, []), s)

/-- What refuses a package before it is unwrapped (R224, R282, R358). -/
def packageRefuse (c : Call) (o : AuthObj) (s : State) : Option Nat :=
  let b := o.body
  let kem := leNat (slice b 8 1)
  if b.length < 1148 || !(kem = 1 || kem = 2) then some stBadParam
  else if kem = 2 && !agreed c.via 6 s then some stBadParam
  else if leNat (slice b 0 8) ≠ Config.serial % 2 ^ 64 then some stDenied
  else if kem = 1 && s.pol.kemreq then some stDenied
  else if s.nw.lost then some stEntropyFail
  else none

/-- What a package holds under the static keys, or the refusing status (R358). -/
def unwrapPackage (x kem b : Bytes) : Except Nat KeyPkg :=
  let kt := leNat (slice b 9 1)
  match (packageKek x kem b).bind (fun k => kwpUnwrap k (b.drop 1148)) with
  | none => .error stTagMismatch
  | some key =>
    if keyLen kt ≠ some key.length then .error stBadParam
    else .ok { ktype := kt, keyId := leNat (slice b 12 4), epoch := leNat (slice b 16 4),
               notAfter := leNat (slice b 20 6), key := key }

/-- Unwrap a package: its fields and key, or the refusing status; HW_FAULT where a keeper slot does not unwrap (R248). -/
def openPackage (c : Call) (o : AuthObj) (s : State) : Except Nat KeyPkg × State :=
  match packageRefuse c o s with
  | some st => (.error st, s)
  | none =>
    match staticKeys o.body s with
    | (none, s) => (.error stHwFault, s)
    | (some (x, kem), s) => (unwrapPackage x kem o.body, s)

/-! ## Pump keys (R163, R166, R168, R169) -/

/-- The slot a KEY_LOAD takes (R168): an EMPTY one, else the one with the lower EPOCH. -/
def loadSlot (pair : Nat) (s : State) : Nat :=
  let a := kslot (2 * pair) s
  let b := kslot (2 * pair + 1) s
  if a.state = 0 then 2 * pair
  else if b.state = 0 then 2 * pair + 1
  else if a.epoch ≤ b.epoch then 2 * pair else 2 * pair + 1

/-- The other slot of a pair. -/
def otherSlot (i : Nat) : Nat := if i % 2 = 0 then i + 1 else i - 1

/-- The load message of a key: K under a mask from the DRBG (R163, R280). -/
def keyMsg (slot : Nat) (p : KeyPkg) (notAfter : Nat) (s : State) : KeyMsg × State :=
  let (m, s) := drbgGenerate 32 s
  let mask := of256 (m.getD [])
  ({ slot := slot, ktype := p.ktype, keyId := p.keyId, epoch := p.epoch, notAfter := notAfter,
     share0 := BitVec.ofNat 256 (beNat p.key) ^^^ mask, share1 := mask }, s)

/-- KEY_LOAD (R163, R168, R169). -/
def keyLoadBody (c : Call) (s : State) : State :=
  let pair := argD c 1 0
  match authArg c 2 [0x13] s with
  | none => refuse c stDenied s
  | some o =>
    let named := if c.pkt.expert then argN c 3 else none
    let slot := named.getD (loadSlot pair s)
    if slot / 2 ≠ pair then badParam c 3 s
    else match openPackage c o s with
    | (.error st, s) => if st = stBadParam then badParam c 2 s else refuse c st s
    | (.ok p, s) =>
      let limit := if c.pkt.expert then argN c 4 else none
      let other := kslot (otherSlot slot) s
      if 2 < p.ktype then badParam c 2 s
      else if limit.any (fun t => p.notAfter < t) then badParam c 4 s
      else if other.state = 1 && other.keyId = p.keyId then badParam c 2 s
      else if (kslot slot s).drainBad && 64 ≤ s.pu.sparesUsed then refuse c stHwFault s
      else
        let (m, s) := keyMsg slot p (limit.getD p.notAfter) s
        let s := await c (.keyLoaded slot) s
        if (kslot slot s).state = 0 then onPu (fun x => { x with keyChan := x.keyChan ++ [m] }) s
        else onPu (fun x => { x with queued := x.queued ++ [m] }) (drainSlot slot s)

/-- KEY_RELEASE (R133, R168). -/
def keyReleaseBody (c : Call) (s : State) : State :=
  let slots := match argN c 1 with
    | some i => [i]
    | none => match (if c.pkt.expert then argN c 2 else none) with
      | some p => [2 * p, 2 * p + 1]
      | none => []
  if slots = [] then reply c stBadParam (refuseTlvs (stBadParam, 0, rsMissing, 1)) s
  else checkReleases (await c (.slotEmpty slots) (slots.foldl (fun s i => drainSlot i s) s))

/-- KEY_INFO (R168). -/
def keyInfoBody (c : Call) (s : State) : State :=
  let k := kslot (argD c 1 0) s
  replyOk c ([r32 1 k.keyId, r32 2 k.epoch, r64 3 k.notAfter, r8 4 k.state, r8 5 k.ktype] ++
    (if c.pkt.expert then [r16 6 k.ref, r32 7 k.corrected, r16 8 (k.spare.getD 65535)] else [])) s

/-! ## Associations (R156, R534) -/

/-- Indices of the table and of the cache. -/
def storedIdx (s : State) : List Nat := s.se.table.map (·.1) ++ (s.se.cache.map (fun e => e.2.map (·.idx))).flatten

/-- An entry on the pair uses PROF 3 or PFV 1 in a bank that is not IDLE. -/
def assocUsed (pair : Nat) (s : State) : Bool :=
  let uses (st : BankSt) (b : Bank) : Bool := st ≠ .idle && b.kpair = pair && (b.prof = 3 || b.pfv = 1)
  (storedIdx s).any (fun i => let e := curEntry i s; e.used && (uses e.sta e.bankA || uses e.stb e.bankB)) ||
    txnNos.any (fun k => (txnOf k s).staged.any (fun ch =>
      match ch with
      | .addMoved _ e => uses e.sta e.bankA
      | _ => false))

/-- ASSOC_LOAD. -/
def assocLoadBody (c : Call) (s : State) : State :=
  match (if c.pkt.expert then argN c 2 else none) with
  | some p =>
    if assocUsed p s then refuse c stDenied s
    else replyOk c [r16 1 p] (onNv (fun n => { n with assocs := smSet {} n.assocs p {} }) s)
  | none =>
    if !hasArg c 1 then reply c stBadParam (refuseTlvs (stBadParam, 0, rsMissing, 1)) s
    else match authArg c 1 [0x12] s with
    | none => refuse c stDenied s
    | some o =>
      let b := o.body
      let peer := leNat (slice b 8 8)
      let pair := leNat (slice b 16 2)
      if b.length ≠ 32 || 16384 ≤ pair || (b.drop 18).any (· ≠ 0) then badParam c 1 s
      else if leNat (slice b 0 8) ≠ Config.serial % 2 ^ 64 then refuse c stDenied s
      else if peer = Config.serial % 2 ^ 64 then badParam c 1 s
      else replyOk c [r16 1 pair] (onNv (fun n => { n with assocs := smSet {} n.assocs pair { peer := peer, held := true } }) s)

/-! ## Tokens (R336, R337) -/

structure Token where
  serial : Nat
  counter : Nat
  target : Nat
  scope : Nat
  badge : Bytes
  duration : Nat
  deriving DecidableEq, Repr

def tokenOf (b : Bytes) : Token :=
  { serial := leNat (slice b 0 8), counter := leNat (slice b 8 4), target := leNat (slice b 12 1),
    scope := leNat (slice b 13 1), badge := slice b 16 16, duration := leNat (slice b 32 4) }

/-- A token whose form is refused with BAD_PARAM (R336; for debug also the ranges of SCOPE and DURATION). -/
def tokenMalformed (kind : Nat) (b : Bytes) : Bool :=
  let t := tokenOf b
  b.length ≠ 36 || leNat (slice b 14 2) ≠ 0 ||
    (if kind = 0x23 then 16 ≤ t.scope || t.duration = 0 || 86400 < t.duration else t.scope ≠ 0 || t.duration ≠ 0)

/-- LCCTR (R334): counter 0, bits [31:0]; none when it has no valid copy (R403). -/
def lcctr (s : State) : Option Nat := (monoRead 0 s).map (· % 2 ^ 32)

/-- SERIAL and COUNTER (R336). -/
def tokenFresh (t : Token) (s : State) : Bool :=
  t.serial = Config.serial % 2 ^ 64 &&
    (match lcctr s with
     | some l => l < t.counter && t.counter ≤ l + 65536
     | none => false)

def secs16 (n : Nat) : Nat := n * 1000000000 * 65536

/-- The badge rule (R337 step 3). -/
def badgeOk (t : Token) (s : State) : Bool :=
  let zero := t.badge.all (· == 0)
  if s.pol.unlock = 0 && zero then true
  else
    match s.cl.lastBadge with
    | none => false
    | some (id, at_) =>
      at_ ≤ ptp16 s && ptp16 s ≤ at_ + secs16 300 && ((s.pol.unlock ≠ 2 && zero) || id = t.badge)

/-- The badge a token of another kind names (R336; log 47). -/
def badgeNamed (t : Token) (s : State) : Bool :=
  t.badge.all (· == 0) ||
    (match s.cl.lastBadge with
     | some (id, at_) => id = t.badge && at_ ≤ ptp16 s && ptp16 s ≤ at_ + secs16 300
     | none => false)

/-- Common checks of a token command: the token, or the refusing status. -/
def tokenArg (c : Call) (ty kind : Nat) (s : State) : Except Nat Token :=
  match authArg c ty [kind] s with
  | none => .error stDenied
  | some o =>
    if tokenMalformed kind o.body then .error stBadParam
    else if (lcctr s).isNone then .error stHwFault
    else if !tokenFresh (tokenOf o.body) s then .error stDenied
    else .ok (tokenOf o.body)

def refuseToken (c : Call) (ty st : Nat) (s : State) : State := if st = stBadParam then badParam c ty s else refuse c st s

def spendToken (t : Token) (s : State) : State := monoWrite 0 t.counter s

/-- The device key statement is placed anew in the log region (R359). -/
def placeStatement (s : State) : State :=
  onFw (fun f => { f with stmt := Config.keyStatement ((lcctr s).getD 0) s.nv.keeperGen }) s

/-- A new key-encryption key and new keeper keys (R337 step 5, R408): the static keys are drawn, the signing keys and the
derivation key are those of the part (R359). -/
def newKek (s : State) : State :=
  let (k, s) := drbgGenerate 32 s
  let (x, s) := drbgGenerate 32 s
  let (m, s) := drbgGenerate 64 s
  let s := onNv (fun n => { n with
    keeperGen := n.keeperGen + 1, bbram := { n.bbram with kek := some (of256 (k.getD [])), lost := false } }) s
  let key (i : Nat) : Bytes := match i with
    | 0 => x.getD []
    | 1 => m.getD []
    | 2 => Config.identityKey false
    | 3 => Config.identityKey true
    | _ => bytes256 Config.derivationSecret
  placeStatement (onNv (fun n => { n with slots := keeperSlots (fun i => wrapKey (key i) s) }) s)

/-- A source of LEVEL 2 or above, not OFF, is active (R337 step 4, R323). -/
def activeAt2 (s : State) : Bool :=
  (List.range 24).any (fun n => s.bk.active.getLsbD n && !tampOff n s && 2 ≤ tampLevel n s)

/-- An occurrence of a source of LEVEL 2 or above fires in this clock (R343). -/
def firesNow (s : State) : Bool :=
  (List.range 24).any (fun n => momentary n && s.bk.disarmed.getLsbD n && smGet 0 s.bk.offAt n == s.clk.now &&
    !tampOff n s && 2 ≤ tampLevel n s)

/-- A word write of the MRAM, 0.2 µs (R399). -/
abbrev mramWriteTicks : Nat := 50

/-- UNLOCK, steps 1 to 6 (R337). -/
def unlockBody (c : Call) (s : State) : State :=
  if s.nv.life ≠ .sealed then refuse c stDenied s
  else match tokenArg c 1 0x21 s with
  | .error st => refuseToken c 1 st s
  | .ok t =>
    if !(t.target = 1 || (t.target = 2 && !s.nv.zeroised)) then refuse c stDenied s
    else if !badgeOk t s then refuse c stDenied s
    else if activeAt2 s then refuse c stDenied s
    else if s.nv.zeroised && s.nw.lost then refuse c stEntropyFail s
    else
      let s := if s.nv.zeroised then newKek s else s
      await c (.unlock t.target (s.clk.now + mramWriteTicks)) (spendToken t s)

/-- Step 7 of UNLOCK, in one clock: a source of LEVEL 2 or above that is active or fires in it leaves the device SEALED and
the token spent (R337, R343). -/
def unlockEnd (c : Call) (target : Nat) (s : State) : State :=
  if activeAt2 s || firesNow s then refuse c stDenied s
  else
    let s := onNv (fun n => { n with life := if target = 1 then .owned else .operational, zeroised := false }) s
    replyOk c [r8 1 target] (tagMirror (onBk (fun b => { b with applied := none }) s))

/-- DEBUG_AUTH up to the write of LCCTR (R339). -/
def debugAuthBody (c : Call) (s : State) : State :=
  match tokenArg c 1 0x23 s with
  | .error st => refuseToken c 1 st s
  | .ok t =>
    if !badgeOk t s then refuse c stDenied s
    else await c (.debug t.scope t.duration (s.clk.now + mramWriteTicks)) (spendToken t s)

/-- The scope opens, unless a seal has come first (R339, R343). -/
def debugEnd (c : Call) (scope duration : Nat) (s : State) : State :=
  if s.nv.life = .sealed then refuse c stSealed s
  else if s.nv.life = .retired then refuse c stDenied s
  else replyOk c [r8 1 scope] (setScope (BitVec.ofNat 4 scope) (s.clk.now + secTicks duration) s)

/-- The last steps of tokens whose LCCTR has been written. -/
def tokensDue (s : State) : State :=
  s.cmd.owed.foldl (fun s o => match o.wait with
    | .unlock target at_ => if at_ ≤ s.clk.now then unlockEnd o.call target s else s
    | .debug scope duration at_ => if at_ ≤ s.clk.now then debugEnd o.call scope duration s else s
    | _ => s) s

/-! ## Lifecycle (R334, R335) -/

/-- Entry to RETIRED (R335, R339). -/
def retireDevice (s : State) : State :=
  let s := endScope (onNv (fun n => { n with life := .retired }) s)
  tagMirror (respZeroise (respDrop (abandonLoads stHwFault s)))

/-- The transitions of LIFECYCLE_SET (R334). -/
def lifeStep (target : Nat) (s : State) : Option Life :=
  match s.nv.life, target with
  | .owned, 2 => if (chosenPolicy s).isSome && !s.nv.zeroised then some .operational else none
  | .operational, 1 => some .owned
  | .owned, 4 => some .retired
  | .operational, 4 => some .retired
  | .sealed, 4 => some .retired
  | _, _ => none

/-- LIFECYCLE_SET. -/
def lifecycleSetBody (c : Call) (s : State) : State :=
  let target := argD c 1 0
  if !hasArg c 1 then replyOk c [rtlv 1 (natLE 1 (lifeNo s.nv.life))] s
  else match tokenArg c 2 0x22 s with
  | .error st => refuseToken c 2 st s
  | .ok t =>
    match lifeStep target s with
    | none => refuse c stDenied s
    | some l =>
      if t.target ≠ target then refuse c stDenied s
      else if !badgeNamed t s then refuse c stDenied s
      else
        let s := spendToken t s
        let s := if l = .retired then retireDevice s else tagMirror (onNv (fun n => { n with life := l }) s)
        replyOk c [r8 1 target] s

/-- LIFECYCLE_GET (R243): STATE, the lowest root slot not revoked, counters 0, 1 and 4. -/
def lifecycleGetBody (c : Call) (s : State) : State :=
  let root := ([0, 1, 2, 3].find? (fun n => !rootRevoked n s)).getD 255
  let ctr (i : Nat) : Bytes := natLE 8 ((monoRead i s).getD 0)
  replyOk c [r8 1 (lifeNo s.nv.life), r8 2 root, rtlv 3 (ctr 0 ++ ctr 1 ++ ctr 4)] s

/-- OWN_TAKE (R334, R354): domain identifier, serial, hash of the owner's keys. -/
def ownTakeBody (c : Call) (s : State) : State :=
  if s.nv.life ≠ .factory then refuse c stDenied s
  else match authArg c 1 [0x11] s with
  | none => refuse c stDenied s
  | some o =>
    let b := o.body
    if b.length ≠ 72 then badParam c 1 s
    else if leNat (slice b 16 8) ≠ Config.serial % 2 ^ 64 then refuse c stDenied s
    else
      replyOk c [r8 1 1] (tagMirror (onNv (fun n => { n with
        life := .owned, domain := b.take 16, ownerHash := some (b.drop 24) }) s))

/-! ## Root slots (R360) -/

/-- Image areas by number: 0 and 1 the control core's banks, 2 and 3 the vault core's, 4 to 11 the control core's applet
areas, 12 to 19 the vault core's. -/
def imgArea (k : CoreId) (bank : Nat) : Nat := (match k with | .control => 0 | .vault => 2) + bank

def areaOf (a : Nat) (s : State) : Area := smGet .empty s.nv.areas a
def setArea (a : Nat) (v : Area) (s : State) : State := onNv (fun n => { n with areas := smSet .empty n.areas a v }) s

/-- The root slot an area's image is signed under. -/
def areaSigner (a : Nat) (s : State) : Option Nat :=
  match areaOf a s with
  | .empty => none
  | .factory => some (Config.factorySigner (2 ≤ a) % 4)
  | .loaded o _ => some o.signer

def rootRevokeBody (c : Call) (s : State) : State :=
  let n := argD c 1 0
  match tokenArg c 2 0x24 s with
  | .error st => refuseToken c 2 st s
  | .ok t =>
    if t.target ≠ n || !badgeNamed t s then refuse c stDenied s
    else if [0, 1, 2, 3].all (fun i => i = n || rootRevoked i s) then refuse c stDenied s
    else if [0, 1, 2, 3].any (fun a => areaSigner a s = some n) then refuse c stDenied s
    else if s.fw.sessions.any (fun x => x.obj.signer = n) then refuse c stDenied s
    else replyOk c [] (onNv (fun v => { v with revoked := smSet 0 v.revoked n 15 }) (spendToken t s))

end Sys2Proof.Machine
end

