-- ==== Sys2Proof/Machine/VaultCmd.lean ====
section
/-! DEFINITION. Vault crypto services: the commands of group 0x08xx (R245 to R249, R284, R285). -/
namespace Sys2Proof.Machine

/-- Keeper slots (R245). -/
def keeperSlot (i : Nat) : Bool := i < 16

/-- The slot a new key takes: the named one, or the lowest EMPTY from 16 up (R249). -/
def newSlot (c : Call) (s : State) : Except Nat Nat :=
  match (if c.pkt.expert then argN c 2 else none) with
  | some i =>
    if keeperSlot i then .error stDenied
    else if (vslot i s).ktype = 255 then .ok i else .error stNoSpace
  | none =>
    match ((List.range 256).drop 16).find? (fun i => (vslot i s).ktype == 255) with
    | some i => .ok i
    | none => .error stNoSpace

/-- USAGE of the basic form by KTYPE (R247). -/
def basicUsage (kt : Nat) : Nat :=
  if kt ≤ 1 then 27 else if kt = 2 then 4 else if kt = 6 || kt = 8 then 64 else 32

/-- Put a key into a slot (R245, R248, R258): SALT is drawn, NEXT is 0 and BASESET clear. -/
def putVkey (i kt usage nmode slimit : Nat) (key : Bytes) (s : State) : State :=
  let (salt, s) := drbgGenerate 4 s
  let s := eraseSlot i s
  let v : VSlot := {
    ktype := kt, usage := usage, nmode := nmode, slimit := slimit, salt := beNat (salt.getD []), wrapped := wrapKey key s }
  onVslot i (fun _ => v) s

/-- VKEY_GEN. -/
def vkeyGenBody (c : Call) (s : State) : State :=
  let kt := argD c 1 0
  let u := if c.pkt.expert then (argOf c 3).getD [] else []
  let usage := if u = [] then basicUsage kt else leNat (u.take 1)
  let nmode := leNat (slice u 1 1)
  let slimit := if u.length < 3 then 32 else leNat (slice u 2 1)
  if 9 < kt then badParam c 1 s
  else if 2 < nmode || slimit < 12 || 40 < slimit then badParam c 3 s
  else match newSlot c s with
  | .error st => refuse c st s
  | .ok i =>
    if s.nw.lost then refuse c stEntropyFail s
    else
      let (k, s) := drbgGenerate 32 (drbgReseed s)
      let raw := k.getD []
      let n := (keyLen kt).getD 32
      let key := if kt ≤ 2 then raw.take n else fit n (Config.makeKey kt (of256 raw))
      replyOk c [r16 1 i] (putVkey i kt usage nmode slimit key s)

/-- VKEY_IMPORT. -/
def vkeyImportBody (c : Call) (s : State) : State :=
  match authArg c 1 [0x13] s with
  | none => refuse c stDenied s
  | some o =>
    match openPackage c o s with
    | (.error st, s) => if st = stBadParam then badParam c 1 s else refuse c st s
    | (.ok p, s) =>
      match newSlot c s with
      | .error st => refuse c st s
      | .ok i => replyOk c [r16 1 i] (putVkey i p.ktype (basicUsage p.ktype) 0 32 p.key s)

/-- A vault slot named by a command: refused for the keeper's slots (R245). -/
def withSlot (c : Call) (f : Nat → State → State) (s : State) : State :=
  let i := argD c 1 0
  if keeperSlot i then refuse c stDenied s else f i s

def slotEmpty (i : Nat) (s : State) : Bool := (vslot i s).ktype = 255

/-- VKEY_DESTROY (R249): at once, or once the requests queued before it that name the slot have completed. -/
def vkeyDestroyBody (c : Call) (s : State) : State :=
  withSlot c (fun i s =>
    if slotEmpty i s then badParam c 1 s
    else finishDestroys (await c (.vkeyGone i (vcPlace s) (mePlace s)) s)) s

/-- VKEY_INFO: the record without WRAPPED, NEXT and SALT (log 48). -/
def vkeyInfoBody (c : Call) (s : State) : State :=
  withSlot c (fun i s =>
    let v := vslot i s
    if slotEmpty i s then badParam c 1 s
    else replyOk c [r8 1 v.ktype, rtlv 2 (natLE 1 v.usage ++ natLE 1 v.slimit),
      rtlv 3 (natLE 1 v.nmode ++ natLE 1 (b2n v.baseset))] s) s

/-- A command's request goes into the queue of the cipher engine, or of the modular engine, and runs in its turn. -/
def vcTake (c : Call) (s : State) : State := finishDestroys (vcGo 256 (vcPost c s))
def meTake (c : Call) (s : State) : State := finishDestroys (meGo 8 (mePost c s))

/-- VC_BLOCK (R284). -/
def vcBlockBody (c : Call) (s : State) : State :=
  withSlot c (fun _ s =>
    let r := blockReq c
    let data := (argOf c 3).getD []
    if !(r.op = 1 || r.op = 2 || r.op = 3 || (r.op = 5 && c.pkt.expert)) then badParam c 2 s
    else if r.op = 3 && (data.length ≠ 4 || 16320 < leNat data) then badParam c 3 s
    else if r.op = 5 && ((argOf c 5).getD []).length ≠ 12 then badParam c 5 s
    else vcTake c s) s

/-- VC_DECRYPT_VERIFY (R260, R284). -/
def vcDecryptVerifyBody (c : Call) (s : State) : State :=
  withSlot c (fun _ s =>
    if ((argOf c 2).getD []).length ≠ 12 then badParam c 2 s
    else if ((argOf c 5).getD []).length ≠ 16 then badParam c 5 s
    else if 16000 < ((argOf c 3).getD []).length + ((argOf c 4).getD []).length then badParam c 4 s
    else vcTake c s) s

/-- VC_HASH (R284). -/
def vcHashBody (c : Call) (s : State) : State :=
  let alg := argD c 1 0
  if 2 < alg then badParam c 1 s
  else
    match (if c.pkt.expert then argOf c 3 else none) with
    | some st =>
      if st.length ≠ (if alg = 0 then 32 else 64) then badParam c 3 s
      else if ((argOf c 2).getD []).length % (if alg = 0 then 64 else 128) ≠ 0 then badParam c 2 s
      else vcTake c s
    | none => vcTake c s

/-- MOD_OP (R284). -/
def modOpBody (c : Call) (s : State) : State :=
  let r := modReq c
  if !(c.pkt.expert || (0x10 ≤ r.op && r.op ≤ 0x14)) then badParam c 1 s
  else if !meFits r.op r.curve r.len then badParam c 2 s
  else if leNat (slice ((argOf c 3).getD []) 1 3) ≠ 0 || (modOperands c).length ≠ 8 * r.len * meArity r.op then badParam c 3 s
  else meTake c s

/-- VSIGN (R285): its hash takes a place at the cipher engine. -/
def vsignBody (c : Call) (s : State) : State :=
  withSlot c (fun i s =>
    let v := vslot i s
    if slotEmpty i s then badParam c 1 s
    else if !mayUse v useSign || sigLen v.ktype = 0 then refuse c stDenied s
    else if 16000 < ((argOf c 2).getD []).length then badParam c 2 s
    else if c.pkt.expert && 2 < argD c 3 0 then badParam c 3 s
    else if s.nw.lost then refuse c stEntropyFail s
    else vcTake c s) s

/-- VVERIFY (R285): its hash takes a place at the cipher engine. -/
def vverifyBody (c : Call) (s : State) : State :=
  if 16000 < ((argOf c 2).getD []).length then badParam c 2 s else vcTake c s

/-- Free bytes, n of them. -/
def drawBytes : Nat → State → Bytes × State
  | 0, s => ([], s)
  | n + 1, s =>
    let (v, s) := draw 8 s
    let (r, s) := drawBytes n s
    (natLE 1 v ++ r, s)

/-- RNG_GET (R279, R282, R284). -/
def rngGetBody (c : Call) (s : State) : State :=
  let n := argD c 1 0
  if n = 0 then badParam c 1 s
  else if s.nw.lost then refuse c stEntropyFail s
  else if c.pkt.expert && hasArg c 2 then
    let (b, s) := drawBytes ((n + 7) / 8) s
    replyOk c [rtlv 1 b] s
  else
    let (b, s) := drbgGenerate n (drbgReseed s)
    replyOk c [rtlv 1 (b.getD [])] s

def bankNo (b : BankState) : Nat :=
  match b with
  | .testing => 0
  | .inService => 1
  | .failed => 2

/-- NOISE_STATUS (R278, R284). -/
def noiseStatusBody (c : Call) (s : State) : State :=
  let est (i : Nat) : Bytes :=
    let e := smGet {} s.nw.ests i
    natLE 2 (ofSigned 2 e.bias) ++ (e.lags.map (fun x => natLE 2 (ofSigned 2 x))).flatten
  replyOk c ([rtlv 1 (natLE 1 (bankNo s.nw.bank0.st) ++ natLE 1 (bankNo s.nw.bank1.st)),
    rtlv 2 (natLE 4 s.nw.bank0.fails ++ natLE 4 s.nw.bank1.fails)] ++
    (if c.pkt.expert then [rtlv 3 ((List.range 8).map est).flatten] else [])) s

end Sys2Proof.Machine
end

