-- ==== Sys2Proof/Machine/Observe.lean ====
section
/-! DEFINITION. The counters of R524 and the commands that show or change events, the sump, the log region and the
device's identity (R85, R243, R346, R359, R514, R518, R520). -/
namespace Sys2Proof.Machine

/-! ## Counters (R524) -/

def cntPort (p : Nat) (s : State) : List Nat :=
  let x := portOf p s
  [x.fcsErr, x.runts, x.oversize, x.coding, x.admitted, x.starved, x.wrongLan]

def cntRxq (q : Nat) (s : State) : List Nat :=
  let x := rxqOf q s
  [x.delivered] ++ (List.range 8).map (fun i => smGet 0 x.dropCode i) ++
    (List.range 5).map (fun i => smGet 0 x.dropFlag i) ++ [x.overflow, x.late, x.corrected]

def cntTxq (q : Nat) (s : State) : List Nat :=
  let x := txqOf q s
  (List.range 9).map (fun i => smGet 0 x.status i) ++ [x.lateRel]

def cntGlobal (s : State) : List Nat :=
  [freeTickets s, ingressHeld s, egressHeld s, freeDelivery s, freeTransmit s, deliveryGone s, transmitGone s,
   s.tu.unchecked, (pairOf 0 s).fwdOvf, (pairOf 1 s).fwdOvf, s.cmd.spiOverrun]

def words32 (l : List Nat) : Bytes := (l.map (natLE 4)).flatten

/-- SNAPSHOT (R85): the counters of R524, in its order. -/
def snapshotBody (c : Call) (s : State) : State :=
  let all := ((List.range 4).map (fun p => cntPort p s)).flatten ++ ((List.range 64).map (fun q => cntRxq q s)).flatten ++
    ((List.range 64).map (fun q => cntTxq q s)).flatten ++ cntGlobal s
  replyOk c [rtlv 1 (words32 all)] s

/-! ## Identity -/

def protoMax : Nat := 0x0300

/-- Versions of the running firmware; 0 until it runs (R520). -/
def areaVersion (k : CoreId) (a : Area) : Nat :=
  match a with
  | .empty => 0
  | .factory => Config.factoryVersion (match k with | .control => false | .vault => true)
  | .loaded _ b => b.version

/-- IDENT (R9). -/
def identBody (c : Call) (s : State) : State :=
  replyOk c [r16 1 0x4016, r16 2 Config.stepCode, r64 3 Config.serial, r32 4 Config.romVersion, r32 5 s.fw.verC,
    r32 6 s.fw.verV, r8 7 2, r16 8 protoMax] s

/-- SESSION_INFO. -/
def sessionInfoBody (c : Call) (s : State) : State :=
  let e := sessOf c.via s
  replyOk c [r8 1 e.maj, r8 2 e.min, r64 3 e.feat, r8 4 (transportNo c.via), r16 5 (expertMask c.via s)] s

/-- ECHO. -/
def echoBody (c : Call) (s : State) : State := replyOk c [rtlv 1 ((argOf c 1).getD [])] s

/-- HELLO (R223). -/
def helloBody (c : Call) (s : State) : State :=
  let majMax := argD c 1 0
  let minMax := argD c 2 0
  let majMin := argD c 3 0
  let host := argD c 4 0
  if majMax < majMin then badParam c 3 (setSess c.via {} s)
  else if 3 < majMin || majMax < 2 then reply c stBadVersion [r16 4 protoMax] (setSess c.via {} s)
  else
    let maj := if 3 ≤ majMax then 3 else 2
    let min_ := if 3 ≤ majMax then 0 else min minMax 4
    let feat := Nat.land host (if 3 ≤ majMax then 0xFF else 0x71)
    let s := setSess c.via { negotiated := true, maj := maj, min := min_, feat := feat } s
    replyOk c [r8 1 maj, r8 2 min_, r64 3 feat, r16 4 protoMax] s

/-! ## Events (R514) -/

def setLvl (n v : Nat) (e : Ev) : Ev := { e with lvl := smSet (evLevel0 n) e.lvl n v }
def setMask (n : Nat) (m : Bool) (e : Ev) : Ev := { e with mask := if m then set256 e.mask n else clr256 e.mask n }

/-- EV_CFG. -/
def evCfgBody (c : Call) (s : State) : State :=
  let a := argD c 1 0
  let b := if c.pkt.expert then argD c 4 a else a
  if !evListed a then badParam c 1 s
  else if !evListed b || b < a || 255 < b then badParam c 4 s
  else
    let srcs := (List.range 256).filter (fun n => a ≤ n && n ≤ b && evListed n)
    let f (e : Ev) (n : Nat) : Ev :=
      let e := match argN c 2 with | some l => setLvl n l e | none => e
      match argN c 3 with | some m => setMask n (m = 1) e | none => e
    replyOk c [] (evChange (fun e => srcs.foldl f e) (inTurn turnEvCfg 0 1 s))

/-- EV_READ. -/
def evReadBody (c : Call) (s : State) : State :=
  replyOk c [r32 1 ((s.ev.pend >>> (32 * argD c 1 0)).toNat % 2 ^ 32)] s

/-! ## Sump (R515 to R518) -/

def logBytes (r : LogRec) : Bytes :=
  natLE 8 r.seq ++ natLE 8 r.rtc ++ timeBytes r.ptp ++ natLE 2 r.source ++ natLE 1 r.die ++ natLE 1 r.flags ++
    fit 32 (words32 r.detail)

/-- SUMP_READ (R518). -/
def sumpReadBody (c : Call) (s : State) : State :=
  let i := argD c 2 0
  match argD c 1 0 with
  | 0 => replyOk c [rtlv 1 (bytes256 s.ev.sumpP).reverse] s
  | 1 => replyOk c [rtlv 1 (bytes256 s.ev.sumpW).reverse] s
  | 2 =>
    let b := s.nv.bbram
    replyOk c [rtlv 1 (natLE 4 b.sticky.toNat ++ natLE 1 b.pending ++
      ((List.range 24).map (fun n => natLE 8 (smGet 0 b.times n))).flatten)] s
  | _ =>
    if 4096 ≤ i then badParam c 2 s
    else replyOk c [rtlv 1 (((List.range (min 128 (4096 - i))).map (fun j => logBytes (smGet {} s.nv.log (i + j)))).flatten),
      r32 2 s.nv.lostRecs] s

def mask256 (b : Bytes) : BitVec 256 := BitVec.ofNat 256 (leNat b)

/-- SUMP_CLEAR (R518). -/
def sumpClearBody (c : Call) (s : State) : State :=
  let bits := (argOf c 2).getD []
  match argD c 1 0 with
  | 0 => if bits = [] then reply c stBadParam (refuseTlvs (stBadParam, 0, rsMissing, 2)) s
    else replyOk c [] (onEv (fun e => { e with sumpP := e.sumpP &&& ~~~ mask256 bits }) s)
  | 1 => if bits = [] then reply c stBadParam (refuseTlvs (stBadParam, 0, rsMissing, 2)) s
    else replyOk c [] (tagMirror (onEv (fun e => { e with sumpW := e.sumpW &&& ~~~ mask256 bits }) s))
  | 2 => if bits = [] then reply c stBadParam (refuseTlvs (stBadParam, 0, rsMissing, 2)) s
    else replyOk c [] (tagMirror (onNv (fun n =>
      { n with bbram := { n.bbram with sticky := n.bbram.sticky &&& ~~~ (BitVec.ofNat 32 (leNat (bits.take 4))) } }) s))
  | _ =>
    let a := argD c 3 0
    let b := argD c 4 0
    if !hasArg c 3 then reply c stBadParam (refuseTlvs (stBadParam, 0, rsMissing, 3)) s
    else if !hasArg c 4 then reply c stBadParam (refuseTlvs (stBadParam, 0, rsMissing, 4)) s
    else if 4095 < a then badParam c 3 s
    else if 4095 < b || b < a then badParam c 4 s
    else
      let s := onNv (fun n => { n with log := n.log.filter (fun e => e.1 < a || b < e.1), lostRecs := 0 }) s
      replyOk c [] (onEv (fun e => { e with logFull := false }) s)

/-! ## The log region (R25, R346, R359) -/

def logByte (a : Nat) (s : State) : Byte :=
  if a < s.fw.stmt.length then s.fw.stmt.getD a 0 else smGet 0 s.fw.logMem a

/-- LOG_READ. The log DMA brings the bytes (R456, R465). -/
def logReadBody (c : Call) (s : State) : State :=
  let off := argD c tyOffset 0
  let n := argD c 1 0
  if 0x10000000 ≤ off then badParam c tyOffset s
  else if 16000 < n || 0x10000000 < off + n then badParam c 1 s
  else if !dmaGranted s.vtP 1 (0xA0000000 + off) n .read then refuse c stHwFault (dmaRefused s)
  else replyOk c [rtlv 1 ((List.range n).map (fun i => logByte (off + i) s))] s

/-- SELFTEST: pass or fail of a unit is a free value. -/
def selftestBody (c : Call) (s : State) : State :=
  let (v, s) := draw 1 s
  replyOk c [r8 1 v] s

end Sys2Proof.Machine
end

