-- ==== Sys2Proof/Machine/ConfigCmd.lean ====
section
/-! DEFINITION. Ports, pairs, queues and the default map (R54, R55, R82, R91, R243, R531). -/
namespace Sys2Proof.Machine

/-- PORT_CFG. -/
def portCfgBody (c : Call) (s : State) : State :=
  let p := argD c 1 0
  let x := portOf p s
  let mode := argD c 2 x.mode
  let s := onPort p (fun x => { x with
    mode := mode
    txeq := if c.pkt.expert then argD c 3 x.txeq else x.txeq
    rxadapt := if c.pkt.expert then argD c 4 x.rxadapt else x.rxadapt }) s
  let s := relink p s
  replyOk c [r8 1 mode, r8 2 (b2n (portOf p s).link)] s

def pairModeNo (m : PairMode) : Nat :=
  match m with
  | .independent => 0
  | .prp => 1
  | .hsr => 2

def pairModeOf (n : Nat) : PairMode := if n = 1 then .prp else if n = 2 then .hsr else .independent

/-- A change of a pair's mode takes its ports down and up again (R91, R92, R93). -/
def changePair (q : Nat) (m : PairMode) (s : State) : State :=
  [2 * q, 2 * q + 1].foldl (fun s p =>
    let s := dropIngress p (dropEgress p (dropUnsent q s))
    if (portOf p s).link then raise (32 + p) [p] s else s)
    (onPair q (fun x => { x with mode := m, seq := 0, marks := [], queueUp := [], queueDown := [] }) s)

/-- PAIR_CFG. -/
def pairCfgBody (c : Call) (s : State) : State :=
  let q := argD c 1 0
  let x := pairOf q s
  let mode := argD c 2 (pairModeNo x.mode)
  let s := match argOf c 3 with
    | some b => onPair q (fun x => { x with nodeMac := BitVec.ofNat 48 (beNat b) }) s
    | none => s
  let s := if mode ≠ pairModeNo x.mode then changePair q (pairModeOf mode) s else s
  replyOk c [r8 1 mode] s

/-- A ring size (R237, Receive and transmit rings). -/
def sizeOk (n : Nat) : Bool := n = 0 || (64 ≤ n && n ≤ 65536 && 2 ^ n.log2 = n)

/-- What is wrong with the ring settings of a queue whose current ones are given. -/
def ringRefuse (c : Call) (base size cbase csize : Nat) : Option Nat :=
  let nb := argD c 2 base
  let ns := argD c 3 size
  let nc := argD c 4 cbase
  let nz := argD c 5 csize
  if !sizeOk ns then some 3
  else if !sizeOk nz then some 5
  else if size ≠ 0 && ns ≠ 0 && ns ≠ size then some 3
  else if size ≠ 0 && nb ≠ base then some 2
  else if size ≠ 0 && nc ≠ cbase then some 4
  else if size ≠ 0 && ns ≠ 0 && nz ≠ csize then some 5
  else if ns ≠ 0 && nz = 0 then some 5
  else none

/-- RXQ_CFG (R55, R82, R531). An enabled queue starts with its pointers at 0 (log 49). A DROP with a reserved bit set is
BAD_PARAM (DESIGN CHOICE, log 119). Verdicts of the clock in which it takes effect use the old settings (R76, R83). -/
def rxqCfgBody (c : Call) (s : State) : State :=
  let q := argD c 1 0
  let x := rxqOf q s
  if argN c 7 = some 0 then badParam c 7 s
  else if 8192 ≤ argD c 8 0 then badParam c 8 s
  else match ringRefuse c x.base x.size x.cbase x.csize with
  | some ty => badParam c ty s
  | none =>
    let size := argD c 3 x.size
    let s := if x.size ≠ 0 && size = 0 then disableRxq q s else s
    let s := onRxq q (fun y => { y with
      base := argD c 2 y.base, size := size, cbase := argD c 4 y.cbase, csize := argD c 5 y.csize
      vector := argD c 6 y.vector, vfmt := argD c 7 y.vfmt, drop := argD c 8 y.drop
      coalNs := if c.pkt.expert then argD c 9 y.coalNs else y.coalNs
      coalN := if c.pkt.expert then argD c 10 y.coalN else y.coalN }) s
    let s := if x.size = 0 && size ≠ 0 then
        onRxq q (fun y => { y with dtail := 0, dhead := 0, chead := 0, ctail := 0, phase := true, bufs := [], bufUsed := 0 }) s
      else s
    replyOk c [] (advance 1 s)

/-- TXQ_CFG. A disabled queue forgets its descriptors (log 49). -/
def txqCfgBody (c : Call) (s : State) : State :=
  let q := argD c 1 0
  let x := txqOf q s
  match ringRefuse c x.base x.size x.cbase x.csize with
  | some ty => badParam c ty s
  | none =>
    let size := argD c 3 x.size
    let s := onTxq q (fun y => { y with
      base := argD c 2 y.base, size := size, cbase := argD c 4 y.cbase, csize := argD c 5 y.csize
      vector := argD c 6 y.vector
      coalNs := if c.pkt.expert then argD c 7 y.coalNs else y.coalNs
      coalN := if c.pkt.expert then argD c 8 y.coalN else y.coalN }) s
    let s := if x.size ≠ 0 && size = 0 then forgetTx q s else s
    let s := if x.size = 0 && size ≠ 0 then
        onTxq q (fun y => { y with dtail := 0, dhead := 0, chead := 0, ctail := 0, phase := true, descs := [], order := [], waiting := false }) s
      else s
    replyOk c [] s

/-- RXMAP_SET (R54): OUTCOME 0x2 UNKNOWN_STREAM, 0x5 MALFORMED, 0x7 UNPROTECTED. -/
def rxmapSetBody (c : Call) (s : State) : State :=
  let p := argD c 1 0
  let o := argD c 2 0
  if !hasArg c 2 then replyOk c [] s
  else if !(o = 2 || o = 5 || o = 7) then badParam c 2 s
  else
    match argN c 3 with
    | none => replyOk c [] s
    | some q =>
      replyOk c [] (onPort p (fun x =>
        if o = 2 then { x with mapUnknown := q } else if o = 5 then { x with mapMalformed := q } else { x with mapUnprot := q }) s)

/-- CFG_GET (R243): the settings of the one object named (log 50). -/
def cfgGetBody (c : Call) (s : State) : State :=
  match argN c 1, argN c 2, argN c 3 with
  | some p, none, none =>
    let x := portOf p s
    replyOk c [r8 1 x.mode, r8 2 (b2n x.link), r32 3 x.txeq, r32 4 x.rxadapt, r8 5 x.mapUnknown, r8 6 x.mapMalformed,
      r8 7 x.mapUnprot, r8 8 x.loopback] s
  | none, some p, none =>
    let x := pairOf p s
    replyOk c [r8 1 (pairModeNo x.mode), rtlv 2 (natBE 6 x.nodeMac.toNat)] s
  | none, none, some q =>
    let x := rxqOf q s
    let y := txqOf q s
    replyOk c [r64 1 x.base, r32 2 x.size, r64 3 x.cbase, r32 4 x.csize, r8 5 x.vector, r8 6 x.vfmt, r16 7 x.drop,
      r32 8 x.coalNs, r32 9 x.coalN, r64 11 y.base, r32 12 y.size, r64 13 y.cbase, r32 14 y.csize, r8 15 y.vector,
      r32 16 y.coalNs, r32 17 y.coalN] s
  | none, none, none => reply c stBadParam (refuseTlvs (stBadParam, 0, rsMissing, 1)) s
  | _, _, _ => badParam c 1 s

/-- LOOPBACK (R243): the setting is kept; what a mode does on the line is not described (log 51). -/
def loopbackBody (c : Call) (s : State) : State :=
  let p := argD c 1 0
  replyOk c [] (onPort p (fun x => { x with loopback := argD c 2 0 }) s)

end Sys2Proof.Machine
end

