-- ==== Sys2Proof/Machine/Contactless.lean ====
section
/-! DEFINITION. The contactless tag and reader (chapter 08): activation, the tag application, the tag-area commands and
badges. A tag command is one step; a field collapse during it is an operand (log 52). -/
namespace Sys2Proof.Machine

/-! ## Roles (R289) -/

/-- The role in force: the stored mode governs unpowered operation. -/
def clRole (s : State) : Nat := if s.plat.pwrOk then s.cl.role else storedMode s

/-- The tag engine answers the field. -/
def tagUp (s : State) : Bool := s.cl.field && clRole s == 1

/-- The vault core runs and can serve the field. -/
def vaultRuns (s : State) : Bool := s.plat.pwrOk && isReady s && !s.cpuV.stopped && !s.cpuV.halted

/-- The contactless session closes; a command already taken runs on, its reply discarded (R232, R298). -/
def closeField (s : State) : State :=
  let s := orphan .contactless s
  onCmd (fun c => { c with clSess := false, stuck := c.stuck.filter (fun e => e.1 ≠ .contactless) })
    (onCl (fun c => { c with execAt := none }) s)

/-- Ticks of 4 ns in a tick of the tag memory's lock, 16 carrier cycles, rounded up (R313). -/
def lockTicks : Nat := 295

/-- A reader frame addressed to the tag in active begins a field transaction of one tick of the lock (R290; log 52). -/
def hears (s : State) : State := onCl (fun c => { c with frameTo := s.clk.now + lockTicks }) s

/-- A reader frame addressed to an application: the exchange lasts the lock's tick, and so does the lock where the frame
works on the tag memory, which the tag engine reaches in its turn (R290, R313, R406; log 52). -/
def readerFrame (s : State) : State :=
  let to_ := s.clk.now + lockTicks
  onCl (fun c => { c with frameTo := to_, lockTo := if c.app = .tag then to_ else c.lockTo }) (if s.cl.app = .tag then mramTurn 0 mramTag s else s)

/-- A field transaction is in progress (R290): a reader frame, an EXEC, or what AUTH1 began. -/
def fieldBusy (s : State) : Bool :=
  s.cl.field && (s.cl.rndB.isSome || s.cl.execAt.isSome || s.clk.now < s.cl.frameTo)

/-- A host tag-area command takes the lock, or is DEFERRED while the field holds it (R236, R313). -/
def hostLock (c : Call) (f : State → State) (s : State) : State :=
  if s.clk.now < s.cl.lockTo then refuse c stDeferred s else f s

/-- The tag's own state at field-on, HLTA, S(DESELECT) and field loss (R291, R303). -/
def quietTag (iso : Iso) (s : State) : State :=
  closeField (onCl (fun c => { c with
    iso := iso, fromHalted := false, rats := false, dsi := 0, dri := 0, app := .none, sec := .closed, rndB := none, cc := 0 }) s)

/-- An error in ready or active (R291). -/
def tagError (s : State) : State := quietTag (if s.cl.fromHalted then .halted else .idle) s

def say (b : Bytes) (s : State) : State := emit (.field b) s

/-- CRC_A of ISO/IEC 14443-3 (PRESUMED, log 8): reflected polynomial 0x8408, initial value 0x6363. -/
def crcA (m : Bytes) : Bytes :=
  natLE 2 (m.foldl (fun (c : BitVec 16) b =>
    (List.range 8).foldl (fun c _ => if c.getLsbD 0 then (c >>> 1) ^^^ 0x8408#16 else c >>> 1) (c ^^^ b.setWidth 16)) 0x6363#16).toNat

def withCrc (m : Bytes) : Bytes := m ++ crcA m

/-! ## Activation (R291 to R294) -/

/-- K_RND, page 6; zero bytes before the first start-up has written it. -/
def kRnd (s : State) : Bytes := tagBytes 96 16 s

/-- The field reaches 1.5 A/m (R287, R292, R294). -/
def execFieldOn (s : State) : Res :=
  if s.cl.field then done s
  else
    let (v, s) := nextTctr s
    let b := aesEnc (kRnd s) (natBE 8 v ++ List.replicate 8 0xA5)
    let s := quietTag .idle s
    let s := onCl (fun c => { c with field := true, uid := BitVec.ofNat 32 (beNat (0x08#8 :: b.take 3)) }) s
    done (if running s then raise 151 [] s else s)

/-- The field is gone (R291). -/
def execFieldLoss (s : State) : Res :=
  done (if s.cl.field then quietTag .idle (onCl (fun c => { c with field := false }) s) else s)

/-- REQA (R291, R292). -/
def execReqa (s : State) : Res :=
  if !tagUp s then done s
  else match s.cl.iso with
  | .idle => done (say [0x04, 0x00] (onCl (fun c => { c with iso := .ready, fromHalted := false }) s))
  | .halted => done s
  | _ => done (tagError s)

/-- WUPA (R291). -/
def execWupa (s : State) : Res :=
  if !tagUp s then done s
  else match s.cl.iso with
  | .idle => done (say [0x04, 0x00] (onCl (fun c => { c with iso := .ready, fromHalted := false }) s))
  | .halted => done (say [0x04, 0x00] (onCl (fun c => { c with iso := .ready, fromHalted := true }) s))
  | _ => done (tagError s)

/-- Anticollision completed and SELECT (R291); recovery runs before the first command (R310). -/
def execSelectCard (uid : BitVec 32) (s : State) : Res :=
  if !tagUp s then done s
  else if s.cl.iso = .ready then
    done (if uid = s.cl.uid then tagRecover (say (withCrc [0x20]) (onCl (fun c => { c with iso := .active }) s))
      else tagError s)
  else if s.cl.iso = .active then done (tagError s)
  else done s

/-- HLTA (R291). -/
def execHlta (s : State) : Res :=
  if !tagUp s then done s
  else match s.cl.iso with
  | .active => done (quietTag .halted s)
  | .ready => done (tagError s)
  | _ => done s

/-- RATS: the ATS of R292. -/
def execRats (s : State) : Res :=
  if tagUp s && s.cl.iso == .active && !s.cl.rats then
    done (say (withCrc [0x05, 0x78, 0x33, 0x60, 0x02]) (onCl (fun c => { c with rats := true }) (hears s)))
  else done s

/-- PPS: 0, 1 or 2 for 106, 212, 424 kbit/s in each direction (R293). -/
def execPps (dsi dri : Nat) (s : State) : Res :=
  if tagUp s && s.cl.iso == .active && s.cl.rats && s.cl.app == .none && dsi ≤ 2 && dri ≤ 2 then
    done (say (withCrc [0xD0]) (onCl (fun c => { c with dsi := dsi, dri := dri }) (hears s)))
  else done s

/-- S(DESELECT) (R291). -/
def execSDeselect (s : State) : Res :=
  if tagUp s && s.cl.iso == .active && s.cl.rats then done (say (withCrc [0xC2]) (quietTag .halted (hears s))) else done s

/-- 80 % of the frame waiting time (R299), in ticks, rounded down. -/
def wtxTicks : Nat := 3866430

/-- S(WTX) while an EXEC runs (R299): WTXM covers work the model does not time, so it is a free value from 1 to 16. -/
def execSWtx (dt : Nat) (s : State) : Res :=
  let s := advance dt s
  match s.cl.execAt with
  | some t =>
    if t + wtxTicks ≤ s.clk.now && s.cmd.clSess then
      let (v, s) := draw 4 s
      done (say (withCrc [0xF2, BitVec.ofNat 8 (v + 1)]) (onCl (fun c => { c with execAt := some s.clk.now }) s))
    else done s
  | none => done s

/-! ## Applications (R295 to R298) -/

def sw (code : Nat) (s : State) : State := emit (.sw code []) s

def aidTag : Bytes := [0xF0, 0x45, 0x42, 0x5A, 0x54, 0x01]
def aidCommand : Bytes := [0xF0, 0x45, 0x42, 0x5A, 0x43, 0x01]

/-- APDUs are carried once RATS has been answered. -/
def apduReady (s : State) : Bool := tagUp s && s.cl.iso == .active && s.cl.rats

/-- SELECT by AID (R295, R303). -/
def execSelectApplication (aid : Bytes) (s : State) : Res :=
  if !apduReady s then done s
  else
    let s := onCl (fun c => { c with sec := .closed, rndB := none }) (hears s)
    if aid = aidTag then done (sw 0x9000 (onCl (fun c => { c with app := .tag }) s))
    else if aid = aidCommand then
      if !vaultRuns s then done (sw 0x6985 s)
      else done (sw 0x9000 (onCmd (fun c => { c with clSess := true }) (onCl (fun c => { c with app := .command }) s)))
    else done (sw 0x6A82 s)

/-- What a tag command answers: status word and response data. -/
abbrev SwAns := Nat × Bytes

def cbcIv (c : Cl) : Bytes := aesEnc (bytes128 c.skEnc) (natBE 2 c.cc ++ List.replicate 14 0)

def cbcEnc (key : Bytes) : Bytes → List Bytes → Bytes
  | _, [] => []
  | iv, b :: r =>
    let x := aesEnc key (xorBytes iv b)
    x ++ cbcEnc key x r

def cbcDec (key : Bytes) : Bytes → List Bytes → Bytes
  | _, [] => []
  | iv, b :: r => xorBytes iv (aesDec key b) ++ cbcDec key b r

/-- The MAC of a message in secured (R306). -/
def smMac (c : Cl) (m : Bytes) : Bytes := (cmac (bytes128 c.skMac) (natBE 2 c.cc ++ m)).take 8

/-- Send the answer of a command taken in secured: its MAC, and CC moved on, the state closed where CC would pass
0xFFFF (R306). -/
def answerSm (a : SwAns) (s : State) : State :=
  let mac := smMac s.cl (natBE 2 a.1 ++ a.2)
  let s := emit (.sw a.1 (a.2 ++ mac)) s
  onCl (fun c => if c.cc = 0xFFFF then { c with sec := .closed, cc := 0 } else { c with cc := c.cc + 1 }) s

/-- The field collapses during a command (R288, R291, R310): the reader sees no answer. -/
def fieldGone (s : State) : State := quietTag .idle (onCl (fun c => { c with field := false, fuel := none }) s)

/-- The words that still complete in a command: all of them on main power (R287, R288). -/
def tagFuel (a : Apdu7816) (s : State) : State :=
  onCl (fun c => { c with fuel := if s.plat.pwrOk then none else a.collapse }) s

/-- One command of the tag application (R296, R305, R306): its meaning works on plain data, pages being enciphered on
the way where `pages` says so. -/
def tagCmd (ins : Nat) (pages keepRnd : Bool) (a : Apdu7816) (f : Bytes → State → SwAns × State) (s : State) : Res :=
  if !apduReady s then done s
  else
    let s := readerFrame s
    let s1 := if keepRnd then s else onCl (fun c => { c with rndB := none }) s
    if s.cl.app ≠ .tag then done (sw 0x6D00 s1)
    else if s.cl.sec = .secured then
      let head := natBE 1 0x80 ++ natBE 1 ins ++ natBE 1 a.p1 ++ natBE 1 a.p2
      if a.mac ≠ smMac s.cl (head ++ a.data) then
        done (sw 0x6988 (onCl (fun c => { c with sec := .closed, cc := 0 }) s1))
      else
        let key := bytes128 s.cl.skEnc
        let data := if pages && a.data.length % 16 = 0 then cbcDec key (cbcIv s.cl) (blocksOf 16 a.data) else a.data
        let (r, s) := f data (tagFuel a s1)
        let out := if pages then cbcEnc key (cbcIv s.cl) (blocksOf 16 r.2) else r.2
        done (if a.collapse.isSome then fieldGone s else answerSm (r.1, out) s)
    else
      let (r, s) := f a.data (tagFuel a s1)
      done (if a.collapse.isSome then fieldGone s else emit (.sw r.1 r.2) s)

/-- A command that must read words of which one has an uncorrectable error is answered 6581 (R297, R404). -/
def tagNeeds (l : List (Nat × Nat)) (f : State → SwAns × State) (s : State) : SwAns × State :=
  if l.any (fun e => tagTorn e.1 e.2 s) then ((0x6581, []), tagReadError s) else f s

/-- Where the access map of a user page stands (R301). -/
def mapAt (page : Nat) : Nat × Nat := (16 * (8 + page / 16 / 32) + page / 16 % 32 / 2, 1)

def kT (s : State) : Bytes := tagBytes 80 16 s

/-- VERIFY_PWD (R304). -/
def execVerifyPwd (a : Apdu7816) (s : State) : Res :=
  tagCmd 0x20 false false a (fun d s =>
    if d.length ≠ 8 then ((0x6700, []), s)
    else tagNeeds [(64, 8), (120, 2)] (fun s =>
      if 16 ≤ pwdFails s then ((0x6983, []), s)
      else
        let s := setPwdFails (pwdFails s + 1) s
        if d = tagBytes 64 8 s then ((0x9000, []), onCl (fun c => { c with sec := .open_ }) (setPwdFails 0 s))
        else ((0x6982, []), s)) s) s

/-- AUTH1 (R294, R305). -/
def execAuth1 (a : Apdu7816) (s : State) : Res :=
  tagCmd 0x82 false false a (fun d s =>
    if d ≠ [] then ((0x6700, []), s)
    else tagNeeds [(80, 16), (96, 16), (112, 8)] (fun s =>
      let (v, s) := nextTctr s
      let r := aesEnc (kRnd s) (natBE 8 v ++ List.replicate 8 0x5A)
      ((0x9000, aesEnc (kT s) r), onCl (fun c => { c with rndB := some (of128 r) }) s)) s) s

def rotByte (b : Bytes) : Bytes := b.drop 1 ++ b.take 1

/-- AUTH2 (R303, R305, R306): from closed or open. -/
def execAuth2 (a : Apdu7816) (s : State) : Res :=
  tagCmd 0x84 false true a (fun d s =>
    let rb := s.cl.rndB
    let s := onCl (fun c => { c with rndB := none }) s
    if d.length ≠ 32 then ((0x6700, []), s)
    else match rb with
    | none => ((0x6982, []), s)
    | some rb => tagNeeds [(80, 16)] (fun s =>
      let rndB := bytes128 rb
      let c1 := d.take 16
      let c2 := d.drop 16
      let rndA := aesDec (kT s) c1
      if s.cl.sec = .secured || xorBytes (aesDec (kT s) c2) c1 ≠ rotByte rndB then ((0x6982, []), s)
      else
        let enc := aesEnc (kT s) (rndA.take 8 ++ rndB.take 8)
        let mac := aesEnc (kT s) (rndB.drop 8 ++ rndA.drop 8)
        let s := setPwdFails 0 s
        ((0x9000, aesEnc (kT s) (xorBytes (rotByte rndA) c2)),
          onCl (fun c => { c with sec := .secured, skEnc := of128 enc, skMac := of128 mac, cc := 0 }) s)) s) s

def firstPage (a : Apdu7816) : Nat := 256 * a.p1 + a.p2

/-- Pages the field can name in READ, in one of its three ranges (R297, R300). -/
def readRange (p n : Nat) : Bool := p + n ≤ 4 || (8 ≤ p && p + n ≤ 13) || (96 ≤ p && p + n ≤ 2048)

/-- The memory security state and the map let the field read a page (R301, R303). -/
def mayReadPage (sec : MemSec) (s : State) (p : Nat) : Bool :=
  if p ≤ 3 then true
  else if p ≤ 12 then sec == .secured
  else
    let e := pageEntry p s
    match sec with
    | .closed => false
    | .open_ => bitN e 0
    | .secured => bitN e 0 || bitN e 1

/-- READ (R296, R301). -/
def execTagApduRead (a : Apdu7816) (s : State) : Res :=
  tagCmd 0xB0 true false a (fun d s =>
    let p := firstPage a
    let n := a.le / 16
    if d ≠ [] || a.le % 16 ≠ 0 || n = 0 || 8 < n then ((0x6700, []), s)
    else if !readRange p n then ((0x6A86, []), s)
    else tagNeeds ((List.range n).map (fun i => mapAt (p + i))) (fun s =>
      if !(List.range n).all (fun i => mayReadPage s.cl.sec s (p + i)) then ((0x6982, []), s)
      else tagNeeds [(16 * p, 16 * n)] (fun s => ((0x9000, tagPages p n s), s)) s) s) s

/-- WRITE (R296, R301, R309, R311). -/
def execTagApduWrite (a : Apdu7816) (s : State) : Res :=
  tagCmd 0xD6 true false a (fun d s =>
    let p := firstPage a
    let n := d.length / 16
    if d.length % 16 ≠ 0 || n = 0 || 4 < n then ((0x6700, []), s)
    else if p < 96 || 2048 < p + n then ((0x6A86, []), s)
    else if s.cl.sec ≠ .secured then ((0x6982, []), s)
    else tagNeeds ((List.range n).map (fun i => mapAt (p + i))) (fun s =>
      if !(List.range n).all (fun i => bitN (pageEntry (p + i) s) 2) then ((0x6982, []), s)
      else tagNeeds [(1352, 8)] (fun s => ((0x9000, []), tagGroup p d s)) s) s) s

/-- CTR_READ (R296, R302, R308). -/
def execCtrRead (a : Apdu7816) (s : State) : Res :=
  tagCmd 0xA0 false false a (fun d s =>
    let c := firstPage a
    if d ≠ [] then ((0x6700, []), s)
    else if 63 < c then ((0x6A86, []), s)
    else if !(s.cl.sec == .secured || (s.cl.sec == .open_ && bitN (ctrEntry c s) 0)) then ((0x6982, []), s)
    else match ctrValue c s with
    | (none, s) => ((0x6981, []), s)
    | (some v, s) => ((0x9000, natLE 4 v), s)) s

/-- CTR_INC (R296, R302, R308). -/
def execCtrInc (a : Apdu7816) (s : State) : Res :=
  tagCmd 0xA2 false false a (fun d s =>
    let c := firstPage a
    if d.length ≠ 1 || leNat d = 0 then ((0x6700, []), s)
    else if 63 < c then ((0x6A86, []), s)
    else if !(s.cl.sec == .secured && bitN (ctrEntry c s) 1) then ((0x6982, []), s)
    else match ctrIncr c (leNat d) s with
    | (.lost, s) => ((0x6981, []), s)
    | (.wrap, s) => ((0x6A84, []), s)
    | (.value v, s) => ((0x9000, natLE 4 v), s)) s

/-- The vault core's update of page 1, once the lock is free (R300, R313). -/
def execMirrorUpdate (s : State) : Res :=
  done (if s.cl.mirror && vaultRuns s && s.cl.lockTo ≤ s.clk.now then writeMirror (onCl (fun c => { c with mirror := false }) s) else s)

/-! ## Host commands (R311, R312) -/

/-- TAG_READ. -/
def tagReadBody (c : Call) (s : State) : State :=
  let p := argD c 1 0
  let n := argD c 2 0
  if n = 0 then badParam c 2 s
  else if !readRange p n then badParam c 1 s
  else hostLock c (fun s =>
    let s := tagRecover s
    if tagTorn (16 * p) (16 * n) s then refuse c stHwFault (raise 146 [p] (tagReadError s))
    else replyOk c [rtlv 1 (tagPages p n s)] s) s

/-- TAG_WRITE. -/
def tagWriteBody (c : Call) (s : State) : State :=
  let p := argD c 1 0
  let d := (argOf c 2).getD []
  if d.length % 16 ≠ 0 then refuseTlv c stBadParam rsLength 2 s
  else if p < 96 || 2048 < p + d.length / 16 then badParam c 1 s
  else hostLock c (fun s => replyOk c [] (tagWrite 250 p d (tagRecover s))) s

/-- TAG_COUNTER. -/
def tagCounterBody (c : Call) (s : State) : State :=
  let n := argD c 1 0
  match argN c 2 with
  | some 0 => badParam c 2 s
  | none => hostLock c (fun s =>
    match ctrValue n (tagRecover s) with
    | (none, s) => refuse c stHwFault s
    | (some v, s) => replyOk c [r32 1 v] s) s
  | some i => hostLock c (fun s =>
    match ctrIncr n i (tagRecover s) with
    | (.lost, s) => refuse c stHwFault s
    | (.wrap, s) => refuse c stWrapRefused s
    | (.value v, s) => replyOk c [r32 1 v] s) s

/-- Reserved entries and bits of the access maps are 0 (R301, R312). -/
def mapsOk (b : Bytes) : Bool := (b.take 3).all (· == 0) && (b.take 64).all (fun x => x &&& 0x88 == 0)

/-- TAG_ACCESS. -/
def tagAccessBody (c : Call) (s : State) : State :=
  let pwd := (argOf c 1).getD []
  let maps := (argOf c 3).getD []
  match authArg c 2 [0x13] s with
  | none => refuse c stDenied s
  | some o =>
    if !mapsOk maps then badParam c 3 s
    else match openPackage c o s with
    | (.error st, s) => if st = stBadParam then badParam c 2 s else refuse c st s
    | (.ok p, s) =>
      if p.ktype ≠ 0 then badParam c 2 s
      else hostLock c (fun s =>
        let s := tagGroup 8 (maps.take 64) (tagRecover s)
        let s := tagGroup 12 (maps.drop 64) s
        let s := tagGroup 4 (pwd ++ List.replicate 8 0 ++ p.key) s
        replyOk c [] (tagGroup 7 (tagBytes 112 8 s ++ [0, 0] ++ tagBytes 122 6 s) s)) s

/-- A role is entered; leaving tag mode ends what the field had (R289). -/
def setRole (r : Nat) (s : State) : State :=
  let s := if r ≠ 1 then quietTag .idle s else s
  onCl (fun c => { c with role := r }) s

/-- The role of CL_MODE. A badge read keeps reader mode to its end and then goes to this role (R315; log 53). -/
def selectRole (m : Nat) (s : State) : State :=
  match s.cl.badge with
  | none => setRole m s
  | some b => onCl (fun x => { x with badge := some { b with saved := m } }) (if b.step = .waiting then setRole m s else s)

/-- CL_MODE (R286, R289, R290). -/
def clModeBody (c : Call) (s : State) : State :=
  let m := argD c 1 0
  if fieldBusy s then refuse c stDeferred s
  else
    let t : Option Int := if c.pkt.expert then (argOf c 2).map (fun b => toSigned b.length (leNat b)) else none
    let s := onCl (fun x => { x with tuning := t }) (selectRole m s)
    replyOk c [r8 1 m] (if m ≤ 1 then setStoredMode m s else s)

/-! ## Badges (R314, R315) -/

/-- BADGE_READ begins. -/
def badgeReadBody (c : Call) (s : State) : State :=
  let t := argD c 1 0
  if t < 100 || 30000 < t then badParam c 1 s
  else if s.nw.lost then refuse c stEntropyFail s
  else
    let b : BadgeRun := {
      call := c, step := .waiting, startedAt := s.clk.now, timeout := t, pollAt := s.clk.now, saved := s.cl.role,
      cert := [], challenge := [] }
    await c .badge (onCl (fun x => { x with badge := some b }) s)

/-- The read ends: the carrier off, the previous mode back, the reply (R315). -/
def badgeEnd (b : BadgeRun) (id : Bytes) (result : Nat) (s : State) : State :=
  let s := onCl (fun c => { c with badge := none, role := b.saved }) s
  let s := if result = 0 then onCl (fun c => { c with lastBadge := some (id, ptp16 s) }) s else s
  replyOk b.call [rtlv 1 (fit 16 id), r8 2 result] s

def setBadge (b : BadgeRun) (s : State) : State := onCl (fun c => { c with badge := some b }) s

/-- Reader mode and 5 ms of field sensing, then REQA every 20 ms (R315 steps 1 to 4). -/
def badgePoll (extField : Bool) (s : State) : State :=
  match s.cl.badge with
  | none => s
  | some b =>
    let now := s.clk.now
    match b.step with
    | .waiting => if fieldBusy s then s else setBadge { b with step := .sensing, pollAt := now } (setRole 2 s)
    | .sensing =>
      if now < b.pollAt + msTicks 5 then s
      else if extField || s.cl.field then badgeEnd b [] 6 s
      else emit (.reader [0x26]) (setBadge { b with step := .polling, pollAt := now } s)
    | .polling =>
      if b.pollAt + msTicks 20 ≤ now then emit (.reader [0x26]) (setBadge { b with pollAt := now } s) else s
    | _ => s

/-- Identifier and public key a badge certificate binds (R314); none when it is not accepted. -/
def badgeCert (b : Bytes) (s : State) : Option (Bytes × Bytes) :=
  match parseAuth b with
  | some o => if o.kind = 0x14 && accepted o s && o.body.length = 81 then some (o.body.take 16, o.body.drop 16) else none
  | none => none

/-- A badge frame (R315 steps 5 to 8). -/
def badgeResponse (r : BadgeFrame) (s : State) : State :=
  match s.cl.badge with
  | none => s
  | some b =>
    match b.step, r with
    | .polling, .answered true => badgeEnd b [] 2 s
    | .polling, .answered false =>
      emit (.reader ([0x00, 0xA4, 0x04, 0x00, 0x06] ++ [0xF0, 0x45, 0x42, 0x5A, 0x42, 0x01])) (setBadge { b with step := .selecting } s)
    | .selecting, .aid true => emit (.reader [0x80, 0xCA, 0x00, 0x00]) (setBadge { b with step := .reading } s)
    | .selecting, _ => badgeEnd b [] 3 s
    | .reading, .certificate o =>
      match drbgGenerate 32 s with
      | (none, s) => refuse b.call stEntropyFail (onCl (fun c => { c with badge := none, role := b.saved }) s)
      | (some ch, s) =>
        emit (.reader ([0x80, 0x88, 0x00, 0x00, 0x20] ++ ch)) (setBadge { b with step := .challenged, cert := o, challenge := ch } s)
    | .reading, _ => badgeEnd b [] 3 s
    | .challenged, .signature rs =>
      match badgeCert b.cert s with
      | none => badgeEnd b [] 4 s
      | some (id, pub) =>
        if Config.ecdsaVerify 3 pub (b.challenge ++ natLE 8 Config.serial) rs then badgeEnd b id 0 s else badgeEnd b [] 5 s
    | .challenged, _ => badgeEnd b [] 3 s
    | _, _ => s

/-- TIMEOUT (R315): no card by then; a card that has fallen silent ends the read 500 ms later (log 53). -/
def badgeTimeout (s : State) : State :=
  match s.cl.badge with
  | none => s
  | some b =>
    let fin := b.startedAt + msTicks b.timeout
    if b.step = .waiting || b.step = .sensing || b.step = .polling then (if fin ≤ s.clk.now then badgeEnd b [] 1 s else s)
    else if fin + msTicks 500 ≤ s.clk.now then badgeEnd b [] 3 s
    else s

end Sys2Proof.Machine
end

