-- ==== Sys2Proof/Machine/Memory.lean ====
section
/-! DEFINITION. Volatile memories (R373 to R381, R404): what an ECC finding does, the scrubbers, and the march tests. -/
namespace Sys2Proof.Machine

/-! ## The memories (R373) -/

/-- Number of a memory in the corrected-error counts. -/
def memNo (m : MemId) : Nat :=
  match m with
  | .controlRam => 0
  | .controlRom => 1
  | .controlBit => 2
  | .streamCache => 3
  | .pumpStore => 4
  | .delivery => 5
  | .transmit => 6
  | .vaultX => 7
  | .vaultY => 8
  | .vaultRom => 9
  | .mailbox => 10
  | .vaultBit => 11
  | .engineBuffers => 12
  | .mram => 13

/-- The memory lies on Wellhead. -/
def memWell (m : MemId) : Bool := 7 ≤ memNo m

/-- Words of 64 bits (R373, R399). -/
def memWords (m : MemId) : Nat :=
  match m with
  | .controlRam => 262144
  | .controlRom => 16384
  | .controlBit => 64
  | .streamCache => 1048576
  | .pumpStore => 262688
  | .delivery => 262144
  | .transmit => 262144
  | .vaultX => 32768
  | .vaultY => 32768
  | .vaultRom => 32768
  | .mailbox => 8192
  | .vaultBit => 64
  | .engineBuffers => 4096
  | .mram => 524288

/-- Blocks of 256 words (R377). -/
def memBlocks (m : MemId) : Nat := (memWords m + 255) / 256

/-- A corrected error is counted (R374). -/
def countCorrected (m : MemId) (s : State) : State :=
  onMe (fun x => { x with corrected := smMod 0 x.corrected (memNo m) (· + 1) }) s

/-- The word keeps a faulty value until it is next written (R374). -/
def markFaulty (m : MemId) (w : Nat) (s : State) : State :=
  onMe (fun x => { x with faulty := if x.faulty.contains (m, w) then x.faulty else x.faulty ++ [(m, w)] }) s

def clearFaulty (m : MemId) (w : Nat) (s : State) : State :=
  onMe (fun x => { x with faulty := x.faulty.filter (· ≠ (m, w)) }) s

/-- The event and record of an uncorrectable word of a core-side memory, or of the MRAM (R374, R404). -/
def uncorrectable (m : MemId) (s : State) : State :=
  raise (if m = .mram then 138 else if memWell m then 140 else 96) [] s

/-! ## Stream cache, delivery and transmit memory (R65, R68, R115) -/

/-- A way is withdrawn, at most 15 of them (R115). -/
def loseWay (w : Nat) (bad : Option Nat) (s : State) : State :=
  if s.se.wdWays.contains w || 15 ≤ s.se.wdWays.length then s else withdrawWay w bad s

/-- An uncorrectable error in the last way is counted and reported, and the way stays in use (R115). The line that holds
it is dropped, so that its entry is read again (DESIGN CHOICE, log 120). -/
def lastWayError (w : Nat) (line : Option CLineC) (s : State) : State :=
  let s := onSe (fun x => { x with corrWays := smMod 0 x.corrWays w (· + 1) }) s
  match line with
  | none => raise 67 [] s
  | some l =>
    let s := onCacheSet (l.idx % 4096) (fun ls => ls.filter (fun x => x.idx ≠ l.idx)) s
    if l.dirty then reloadLost l.idx s else raise 67 [l.idx] s

/-- The line that holds a word of the cache: set, way, and the index it holds. Word w lies in set w / 256 and in way
w % 256 / 16 (log 55). -/
def lineAt (w : Nat) (s : State) : Option CLineC :=
  (smGet [] s.se.cache (w / 256 % 4096)).find? (fun l => l.way == w % 256 / 16)

/-- An ECC finding in the cache. -/
def cacheError (w : Nat) (e : MemErr) (s : State) : State :=
  let way := w % 256 / 16
  match e with
  | .clean => s
  | .corrected =>
    let n := smGet 0 s.se.corrWays way + 1
    let s := onSe (fun x => { x with corrWays := smSet 0 x.corrWays way n }) (countCorrected .streamCache s)
    if 64 ≤ n then loseWay way none s else s
  | .uncorrectable =>
    if 15 ≤ s.se.wdWays.length && !s.se.wdWays.contains way then lastWayError way (lineAt w s) s
    else loseWay way ((lineAt w s).map (·.idx)) s

/-- What a scrubber finds in the cells of a record or of a frame without a verdict: a corrected error is counted with its
queue and shown by CORR; an uncorrectable one spoils it and takes the cell away (R64, R68). -/
def hitRec (e : MemErr) (r : Rec) : Rec :=
  match e with
  | .uncorrectable => { r with verdict := spoil r.verdict, cells := r.cells - 1 }
  | _ => { r with verdict := { r.verdict with corr := r.verdict.ver = 2 } }

def hitFrame (e : MemErr) (x : Ing) : Ing :=
  match e with
  | .uncorrectable => { x with memErr := true, cells := x.cells - 1 }
  | _ => { x with corrs := x.corrs + 1 }

/-- The record or frame whose cells hold the k-th held cell: queue records first, then frames without a verdict. -/
def hitRecs (e : MemErr) : Nat → List Rec → List Rec
  | _, [] => []
  | k, r :: l => if k < r.cells then hitRec e r :: l else r :: hitRecs e (k - r.cells) l

def hitFrames (e : MemErr) : Nat → List Ing → List Ing
  | _, [] => []
  | k, x :: l => if k < x.cells then hitFrame e x :: l else x :: hitFrames e (k - x.cells) l

/-- Records of one queue after another. -/
def hitQueues (e : MemErr) : Nat → List (Nat × RxQ) → List (Nat × RxQ)
  | _, [] => []
  | k, (q, x) :: l =>
    let n := (x.recs.map (·.cells)).sum
    if k < n then
      (q, { x with
        recs := hitRecs e k x.recs
        corrected := if e = .corrected then wrap1 x.corrected else x.corrected }) :: l
    else (q, x) :: hitQueues e (k - n) l

/-- A finding of the scrubber in a delivery cell: which frame holds the cell is a free value, for the spec does not say
which cells a frame takes (R68; log 56). -/
def deliveryHit (e : MemErr) (s : State) : State :=
  let (v, s) := draw 15 s
  let n := ((rxRecs s).map (·.cells)).sum
  onFp (fun f =>
    { f with rxq := if v < n then hitQueues e v f.rxq else f.rxq
             ing := if v < n then f.ing else hitFrames e (v - n) f.ing }) s

/-- An uncorrectable error in a delivery cell: what it holds is struck, and the cell is withdrawn (R65, R68). -/
def deliveryError (s : State) : State :=
  lowCells (raise 66 [] (onFp (fun f => { f with wdDelivery := min 32768 (f.wdDelivery + 1) }) (deliveryHit .uncorrectable s)))

def transmitError (s : State) : State :=
  raise 66 [] (onFp (fun f => { f with wdTransmit := min 32768 (f.wdTransmit + 1) }) s)

/-! ## Scrubbers (R374, R375, R404) -/

/-- SCRUB: one word of an SRAM or of the MRAM; ROM is not scrubbed, and the re-mask sweep serves the pump key store. -/
def execScrub (m : MemId) (word : Nat) (e : MemErr) (s : State) : Res :=
  done (if !running s || memWords m ≤ word then s
    else match m, e with
    | .controlRom, _ => s
    | .vaultRom, _ => s
    | .pumpStore, _ => s
    | _, .clean => s
    | .streamCache, e => cacheError word e s
    | .delivery, .corrected => countCorrected .delivery (deliveryHit .corrected s)
    | m, .corrected => countCorrected m s
    | .delivery, .uncorrectable => deliveryError s
    | .transmit, .uncorrectable => transmitError s
    | .mram, .uncorrectable =>
      uncorrectable .mram (onNv (fun n => { n with torn := if n.torn.contains word then n.torn else n.torn ++ [word] }) s)
    | m, .uncorrectable => uncorrectable m (markFaulty m word s))

/-! ## March tests (R376 to R379) -/

/-- Region of a MARCH_RUN. -/
def marchRegion (die region : Nat) : Option MemId :=
  match die, region with
  | 0, 0 => some .controlRam
  | 0, 1 => some .controlBit
  | 0, 2 => some .streamCache
  | 0, 3 => some .delivery
  | 0, 4 => some .transmit
  | 0, 5 => some .pumpStore
  | 1, 0 => some .vaultX
  | 1, 1 => some .vaultY
  | 1, 2 => some .mailbox
  | 1, 3 => some .vaultBit
  | 1, 4 => some .engineBuffers
  | _, _ => none

/-- The march-fail event, its record, and what is mapped out: at start-up the failing words of any region (R345), in service
lines and cells only (R65, R115, R379). `words` are offsets in the region. -/
def marchFail (boot : Bool) (m : MemId) (words : List Nat) (s : State) : State :=
  if words = [] then s
  else
    let s := raise (if memWell m then 141 else 97) [] s
    let mapped := boot || m == .streamCache || m == .delivery || m == .transmit
    let s := if !mapped then s else onMe (fun x => { x with withdrawn := x.withdrawn ++ (words.map (fun w => (m, w))).filter (fun e => !x.withdrawn.contains e) }) s
    let cells := ((words.map (· / 8)).dedup).length
    match m with
    | .streamCache => (words.map (fun w => w % 256 / 16)).foldl (fun s w => loseWay w none s) s
    | .delivery => lowCells (onFp (fun f => { f with wdDelivery := min 32768 (f.wdDelivery + cells) }) s)
    | .transmit => onFp (fun f => { f with wdTransmit := min 32768 (f.wdTransmit + cells) }) s
    | _ => s

/-- The owner gives a block up before its test: cached lines are written back (R378). -/
def marchEvict (m : MemId) (block : Nat) (s : State) : State :=
  if m = .streamCache then
    let ls := smGet [] s.se.cache block
    onCacheSet block (fun _ => []) (ls.foldl (fun s l => if l.dirty then setTable l.idx l.entry s else s) s)
  else s

/-- Cells lent while a run tests delivery or transmit memory: one block of 32 cells (R378, R532). -/
def lend (m : MemId) (n : Nat) (s : State) : State :=
  match m with
  | .delivery => lowCells (onFp (fun f => { f with lentDelivery := n }) s)
  | .transmit => onFp (fun f => { f with lentTransmit := n }) s
  | _ => s

def marchResult (count : Nat) (first : List Nat) : Bytes :=
  natLE 4 count ++ ((first ++ List.replicate 8 0).take 8).flatMap (fun w => natLE 4 w)

/-- 100 µs between blocks. -/
def marchTicks : Nat := 25000

/-- One block in preserving mode; `fails` are the failing words of the block. -/
def marchBlock (m : MemId) (block : Nat) (fails : List Nat) (s : State) : State :=
  let last := if memWell m then s.me.marchAtW else s.me.marchAtP
  if memBlocks m ≤ block || m = .pumpStore || m = .controlRom || m = .vaultRom || m = .mram then s
  else if last ≠ 0 && s.clk.now < last + marchTicks then s
  else
    let now := s.clk.now
    let s := onMe (fun x => if memWell m then { x with marchAtW := now } else { x with marchAtP := now }) s
    let words := ((fails.filter (fun f => f < 256 && block * 256 + f < memWords m)).dedup).map (block * 256 + ·)
    let s := marchFail false m words (marchEvict m block s)
    match s.cmd.owed.find? (fun o => match o.wait with
        | .march n b _ _ => n == m && b == block
        | _ => false) with
    | none => s
    | some o =>
      match o.wait with
      | .march _ _ count first =>
        let count := count + words.length
        let first := (first ++ words).take 8
        if block + 1 < memBlocks m then await o.call (.march m (block + 1) count first) s
        else replyOk o.call [rtlv 1 (marchResult count first)] (lend m 0 s)
      | _ => s

/-- Both engines are idle (R379). -/
def enginesIdle (s : State) : Bool := s.eng.vcTail = s.eng.vcHead && s.eng.meTail = s.eng.meHead

/-- A run on the engine buffers begins once both engines are idle. -/
def marchWake (s : State) : State :=
  if enginesIdle s then
    s.cmd.owed.foldl (fun s o => match o.wait with
      | .marchIdle => await o.call (.march .engineBuffers 0 0 []) s
      | _ => s) s
  else s

/-- A destructive run leaves the words it tests cleared (R377). -/
def marchClear (m : MemId) (s : State) : State :=
  (s.me.withdrawn.filter (fun e => e.1 == m)).foldl (fun s e =>
    let keep (base : Nat) (b : SMap Byte) : SMap Byte := b.filter (fun x => !(base + 8 * e.2 ≤ x.1 && x.1 < base + 8 * e.2 + 8))
    let bits (b : BitVec 4096) : BitVec 4096 := b &&& ~~~ ((BitVec.ofNat 4096 (2 ^ 64 - 1)) <<< (64 * e.2))
    let s := clearFaulty m e.2 s
    match m with
    | .controlRam => onMe (fun x => { x with ctrlRam := keep 0 x.ctrlRam }) s
    | .vaultX => onMe (fun x => { x with vaultRam := keep 0 x.vaultRam }) s
    | .vaultY => onMe (fun x => { x with vaultRam := keep 0x40000 x.vaultRam }) s
    | .mailbox => onMe (fun x => { x with mailbox := keep 0 x.mailbox }) s
    | .controlBit => onCpu .control (fun c => { c with bits := bits c.bits }) s
    | .vaultBit => onCpu .vault (fun c => { c with bits := bits c.bits }) s
    | _ => s) s

/-- MARCH_RUN. The expert form tests the withdrawn part of a region at once; its result is a free value (log 57). -/
def marchRunBody (c : Call) (s : State) : State :=
  match marchRegion (argD c 1 0) (argD c 2 0) with
  | none => badParam c 2 s
  | some m =>
    if c.pkt.expert then
      if !(s.me.withdrawn.any (fun e => e.1 == m)) then refuse c stDenied s
      else
        let (n, s) := draw 32 s
        let (w, s) := draw 256 s
        replyOk c [rtlv 1 (natLE 4 n ++ natLE 32 w)] (marchClear m s)
    else if m = .pumpStore then refuse c stDenied s
    else if m = .engineBuffers then marchWake (await c .marchIdle s)
    else lend m 32 (await c (.march m 0 0 []) s)

end Sys2Proof.Machine
end

