-- ==== Sys2Proof/Machine/Platform.lean ====
section
/-! DEFINITION. Power, clocks, resets and the TAP (chapter 14; R318, R339, R349, R484 to R489, R497, R499 to R503). -/
namespace Sys2Proof.Machine

/-! ## Resets (R486) -/

/-- The last 64 KiB of control RAM (R345). -/
def postMortem (m : SMap Byte) : SMap Byte := m.filter (fun e => 0x1F0000 ≤ e.1)

/-- The contactless part over a main reset: the tag domain goes on with its field (R287); what the vault core did for the
field or for a badge ends (R298), and the mode is the stored mode (R289). -/
def clReset (s : State) : Cl :=
  { s.cl with role := storedMode s, tuning := none, execAt := none, badge := none, lastBadge := none }

/-- A cold or warm reset (R345, R486): kept are the non-volatile memories, BBRAM and tamper logic, the clocks and pins,
over a warm reset also SUMP, the PCIe link and the post-mortem area. The model's own counter, outputs and queue stay. -/
def deviceReset (kind : ResetKind) (s : State) : State :=
  let s := match s.cl.execAt with
    | some _ => emit (.sw 0x6985 []) s
    | none => s
  let warm := kind = .warm
  { State.reset with
    clk := s.clk
    plat := { s.plat with
      resetKind := kind, resetAt := s.clk.now, stage := .reset, dpReleased := false, swap := none, readyAt := 0
      dualOn := true, overtemp := [] }
    ev := if warm then { State.reset.ev with sumpP := s.ev.sumpP, sumpW := s.ev.sumpW } else State.reset.ev
    cl := clReset s
    nv := s.nv
    bk := { s.bk with resetLevel := none }
    me := { State.reset.me with ctrlRam := if warm then postMortem s.me.ctrlRam else [] }
    tap := { s.tap with scope := 0, until_ := 0, ins := if scopeFits s.tap.ins 0 then s.tap.ins else .bypass }
    factoryPageOk := s.factoryPageOk
    free := s.free
    out := s.out
    pending := s.pending }

/-- The device is starting or in reset: WRST_N is ignored (R489). -/
def starting (s : State) : Bool :=
  match s.plat.stage with
  | .reset => true
  | .wellheadRom => true
  | .riser => true
  | .pumphouse => true
  | .tableInit => true
  | _ => false

/-- RESET_N (R485, R489). -/
def execResetN (dt : Nat) (s : State) : Res :=
  let s := advance dt s
  done (if s.plat.pwrOk then deviceReset .cold s else s)

/-- WRST_N (R485, R489). -/
def execWrstN (dt : Nat) (s : State) : Res :=
  let s := advance dt s
  done (if !s.plat.pwrOk || starting s || s.plat.testMode then s else deviceReset .warm s)

/-- TESTMODE holds the device in cold reset while it reads 1 (R470). -/
def execTestmode (level : Bool) (s : State) : Res :=
  let s := onPlat (fun p => { p with testMode := level }) s
  done (if level && s.plat.pwrOk then deviceReset .cold s else s)

/-! ## Power (R333, R473 to R478) -/

/-- The backup domain with neither supply (R333, R408, R478): the contents of BBRAM and of the tamper logic are gone, and
the RTC stands; what it will read is a free value (log 128). -/
def bbramLost (s : State) : State :=
  let (v, s) := draw 64 s
  onClk (fun c => { c with rtc := v, rtcRem := 0, rtcRuns := false }) <|
    onBk (fun b => { ({} : Bk) with caseLvl := b.caseLvl, cond := b.cond, sampleAt := b.sampleAt, lfsrAt := b.lfsrAt }) <|
    onNv (fun n => { n with bbram := { kek := none, lost := true } }) s

/-- Main power goes: cold reset, the backup domain to VBAT, backup monitoring (R475). -/
def execPwrOkFall (dt : Nat) (s : State) : Res :=
  let s := advance dt s
  if !s.plat.pwrOk then done s
  else
    let s := unmonitor (lfsrSync (deviceReset .cold s))
    let s := onPlat (fun p => { p with pwrOk := false }) s
    let s := onBk (fun b => { b with sampleAt := s.clk.now, loopMiss := 0 }) s
    done (if s.plat.vbat then s else bbramLost s)

/-- Main power returns: reset is released 2 ms later (R474, R476), the backup domain is supplied again (R478), and the
detectors judge the conditions that stand (R318, R536). -/
def execPwrOkRise (dt : Nat) (s : State) : Res :=
  let s := advance dt s
  if s.plat.pwrOk then done s
  else
    let s := onClk (fun c => { c with rtcRuns := s.plat.xtal32 }) (onPlat (fun p => { p with pwrOk := true, pwrOkAt := s.clk.now }) s)
    done (tamperFires s.bk.cond (onBk (fun b => { b with lfsrAt := s.clk.now }) s))

/-! ## PERST# (R232, R349, R486, R487) -/

/-- The rings are gone; the commands taken on them run on and their replies are discarded (R487). -/
def dropRingReplies (s : State) : State :=
  onCmd (fun c => { c with rings := [] }) (([0, 1, 2, 3] : List (Fin 4)).foldl (fun s r => orphan (.ring r) s) s)

/-- PERST# falls: the endpoint with its BAR registers, rings and queue settings is reset; counters and the default map
are kept (log 58). -/
def execPerst (dt : Nat) (s : State) : Res :=
  let s := advance dt s
  let s := onPlat (fun p => { p with pcieReset := true, pcieL0 := false }) s
  let s := s.fp.rxq.foldl (fun s e => disableRxq e.1 s) s
  let s := s.fp.txq.foldl (fun s e => forgetTx e.1 s) s
  let s := onFp (fun f => { f with
    rxq := (f.rxq.map (fun (n, x) => (n, { ({} : RxQ) with
      delivered := x.delivered, dropCode := x.dropCode, dropFlag := x.dropFlag, overflow := x.overflow
      late := x.late, corrected := x.corrected }))).filter (fun e => e.2 ≠ {})
    txq := (f.txq.map (fun (n, x) => (n, { ({} : TxQ) with status := x.status, lateRel := x.lateRel }))).filter (fun e => e.2 ≠ {}) }) s
  let s := onEv (fun e => { e with
    pend := 0, mask := BitVec.allOnes 256, lvl := [], alertLvl := 3, msixMask := BitVec.allOnes 64, msixPba := 0, msixTable := [] }) s
  done (dropRingReplies s)

/-- PERST# rises (R349). -/
def execPerstRelease (s : State) : Res :=
  done (relinkAll (onPlat (fun p => { p with pcieReset := false }) s))

/-! ## Clock inputs (R318, R484) -/

/-- REFCLK_LINE is lost: CLK_PH fires and every port loses link. -/
def execRefclkLineLost (dt : Nat) (s : State) : Res :=
  let s := pass dt s
  done (if !running s then onPlat (fun p => { p with refLine := false }) s
    else relinkAll (tamperFires (BitVec.twoPow 32 13) (onPlat (fun p => { p with refLine := false, lostAt := s.clk.now }) s)))

/-- REFCLK_LINE has been within tolerance for 1 ms: the PLLs return and the ports retrain. -/
def execRefclkLineReturn (dt : Nat) (s : State) : Res :=
  let s := advance dt s
  let s := onPlat (fun p => { p with refLine := true }) s
  done (relinkAll (goInactive 13 (onBk (fun b => { b with cond := clrBit32 b.cond 13 }) s)))

/-- The PCIe reference is lost: the link leaves L0. -/
def execPcieRefclkLost (dt : Nat) (s : State) : Res :=
  done (relinkAll (onPlat (fun p => { p with pcieRef := false }) (advance dt s)))

def execPcieRefclkReturn (dt : Nat) (s : State) : Res :=
  done (relinkAll (onPlat (fun p => { p with pcieRef := true }) (advance dt s)))

/-- The 25 MHz crystal is lost: CLK_WH fires, and Wellhead runs from its internal oscillator. -/
def execXtal25Lost (dt : Nat) (s : State) : Res :=
  done (tamperFires (BitVec.twoPow 32 12) (onPlat (fun p => { p with xtal25 := false }) (advance dt s)))

def execXtal25Return (dt : Nat) (s : State) : Res :=
  let s := onPlat (fun p => { p with xtal25 := true }) (advance dt s)
  done (goInactive 12 (onBk (fun b => { b with cond := clrBit32 b.cond 12 }) s))

/-- The 32.768 kHz crystal stops: the RTC stops; on backup power CLK_WH sees it at the next sample (R318, R330). -/
def execXtal32Stopped (dt : Nat) (s : State) : Res :=
  let s := advance dt s
  done (onClk (fun c => { c with rtcRuns := false }) (onPlat (fun p => { p with xtal32 := false }) s))

def execXtal32Restart (dt : Nat) (s : State) : Res :=
  let s := advance dt s
  done (onClk (fun c => { c with rtcRuns := s.plat.pwrOk || s.plat.vbat }) (onPlat (fun p => { p with xtal32 := true }) s))

/-! ## Temperature (R497, R507) -/

/-- A Pumphouse sensor's reading in tenths of a degree, with its offset: the event at the OVERTEMP threshold, once until the sensor reads
below it. -/
def execOvertemp (sensor : Fin 4) (tenthsC : Int) (s : State) : Res :=
  let n := sensor.val
  let hot := calEff 0x0800 s * 10 ≤ tenthsC + calEff (0x0600 + n) s
  done (if !running s then s
    else if !hot then onPlat (fun p => { p with overtemp := p.overtemp.filter (· ≠ n) }) s
    else if s.plat.overtemp.contains n then s
    else raise 46 [] (onPlat (fun p => { p with overtemp := p.overtemp ++ [n] }) s))

/-! ## The TAP (R339 to R341, R499 to R503) -/

/-- Load a TAP instruction: without its scope it acts as BYPASS and DBG_DENIED fires (R501). -/
def tapLoad (i : TapIns) (s : State) : State :=
  if scopeFits i s.tap.scope then relinkAll (onTap (fun t => { t with ins := i }) s)
  else
    let s := relinkAll (onTap (fun t => { t with ins := .bypass }) s)
    if s.plat.pwrOk then fireOne srcDebug s else s

def execBypass (s : State) : Res := done (tapLoad .bypass s)

/-- The identification code of the first stepping (R500; log 59). -/
def idcodeWord : Word := 0x14016B73

def execIdcode (s : State) : Res := done (emit (.tapData idcodeWord false) (tapLoad .idcode s))

/-- SAMPLE/PRELOAD captures the pins: their levels are free values, for the cell order is the BSDL's (R502). -/
def execSamplePreload (s : State) : Res :=
  let (v, s) := draw 64 (tapLoad .sample s)
  done (onTap (fun t => { t with bsr := BitVec.ofNat 64 v }) s)

def execExtest (s : State) : Res := done (tapLoad .extest s)
def execIntest (s : State) : Res := done (tapLoad .intest s)
def execClamp (s : State) : Res := done (tapLoad .clamp s)
def execHighz (s : State) : Res := done (tapLoad .highz s)
def execExtestPulse (s : State) : Res := done (tapLoad .extestPulse s)
def execExtestTrain (s : State) : Res := done (tapLoad .extestTrain s)
def execTapDebug (s : State) : Res := done (tapLoad .debug s)

/-- TRST_N: the TAP is reset and the scope ends (R339, R501; the instruction after it PRESUMED IDCODE, log 59). -/
def execTrstN (s : State) : Res :=
  done (onTap (fun t => { t with ins := .idcode, errorBit := false, data := 0 }) (endScope s))

/-- DURATION expires (R339). -/
def execDebugScopeExpiry (dt : Nat) (s : State) : Res :=
  let s := advance dt s
  done (if s.tap.scope ≠ 0 && s.tap.until_ ≤ s.clk.now then endScope s else s)

end Sys2Proof.Machine
end

