-- ==== Sys2Proof/Machine/Flash.lean ====
section
/-! DEFINITION. The flash controller and its ROM routines (R361, R382 to R398). Units that are erased are not listed;
a sector's contents while its erase flag is set are never read, so an erase clears them when it starts. -/
namespace Sys2Proof.Machine

/-! ## Geometry (R361, R382, R395) -/

abbrev sectorBytes : Nat := 8192
abbrev flashBytes : Nat := 2048 * 8192

/-- First sector and number of sectors of an image area (R361). -/
def areaFirst (a : Nat) : Nat :=
  if a < 2 then 1024 * a + 64
  else if a < 4 then 1024 * (a - 2)
  else if a < 12 then 320 + 32 * (a - 4)
  else 1344 + 32 * (a - 12)

def areaCount (a : Nat) : Nat := if a < 2 then 256 else if a < 4 then 64 else 32

/-- Flash offset of an area's code: 8 KiB after the authority object. -/
def areaCode (a : Nat) : Nat := areaFirst a * sectorBytes + 8192

/-- Code bytes at most (R361). -/
def areaLimit (a : Nat) : Nat := if a < 2 then 1536 * 1024 else if a < 4 then 448 * 1024 else 248 * 1024

def inArea (a sec : Nat) : Bool := areaFirst a ≤ sec && sec < areaFirst a + areaCount a

/-- Sectors of the factory calibration page (R505). -/
def calSector (sec : Nat) : Bool := sec == 576 || sec == 1600

/-- The refresh reserve (R397). -/
def reserveSector (sec : Nat) : Bool := 1016 ≤ sec % 1024

def recOf (k : CoreId) (s : State) : ImgRec :=
  match k with
  | .control => s.nv.recC
  | .vault => s.nv.recV

def setRec (k : CoreId) (r : ImgRec) (s : State) : State :=
  match k with
  | .control => onNv (fun n => { n with recC := r }) s
  | .vault => onNv (fun n => { n with recV := r }) s

/-- Sectors neither FL_PROGRAM nor FL_ERASE touches (R395). -/
def protectedSector (sec : Nat) (s : State) : Bool :=
  calSector sec || reserveSector sec || inArea (imgArea .control s.nv.recC.active) sec ||
    inArea (imgArea .vault s.nv.recV.active) sec

/-! ## Contents -/

def sectorOf (n : Nat) (s : State) : Sector := smGet {} s.nv.sectors n
def onSector (n : Nat) (f : Sector → Sector) (s : State) : State :=
  onNv (fun v => { v with sectors := smMod {} v.sectors n f }) s

/-- Where reads of a sector go (R397). -/
def redirect (sec : Nat) (s : State) : Nat :=
  match s.nv.refresh with
  | .copied a r => if a = sec then r else sec
  | _ => sec

/-- A unit is erased (R382); a unit whose verify failed is not. -/
def unitErased (u : Nat) (s : State) : Bool := (smFind s.nv.units u).isNone && !s.nv.flashTorn.contains u

/-- Data of a unit: as programmed; erased bits read one (log 60). A unit of an area that holds the image the part was
shipped with reads a free value of the part. -/
def unitData (u : Nat) (s : State) : Bytes :=
  match smFind s.nv.units u with
  | some b => b
  | none =>
    let sec := u / 256
    match (List.range 20).find? (fun a => inArea a sec) with
    | some a => if areaOf a s = .factory then (List.range 32).map (fun i => Config.flashByte (32 * u + i)) else List.replicate 32 0xFF
    | none => List.replicate 32 0xFF

/-- Program one unit. -/
def unitPut (u : Nat) (b : Bytes) (s : State) : State :=
  onNv (fun v => { v with units := smPut v.units u (b ++ List.replicate (32 - b.length) 0xFF) }) s

/-- Flash bytes at an offset, with the redirect. -/
def flashByte (a : Nat) (s : State) : Byte :=
  let sec := redirect (a / sectorBytes) s
  (unitData (sec * 256 + a % sectorBytes / 32) s).getD (a % 32) 0xFF

/-- Bytes of a range, unit by unit. -/
def flashRange (a n : Nat) (s : State) : Bytes :=
  let first := a / 32
  let units := (a + n + 31) / 32 - first
  let all := ((List.range units).map (fun i =>
    let u := first + i
    unitData (redirect (u / 256) s * 256 + u % 256) s)).flatten
  (all.drop (a % 32)).take n

/-- Program bytes at a 32-byte-aligned offset. -/
def flashPut (a : Nat) (b : Bytes) (s : State) : State :=
  (List.range ((b.length + 31) / 32)).foldl (fun s i => unitPut (a / 32 + i) (slice b (32 * i) 32) s) s

/-- The sectors a range of bytes touches. -/
def rangeSectors (a n : Nat) : List Nat :=
  (List.range ((a + n + sectorBytes - 1) / sectorBytes - a / sectorBytes)).map (a / sectorBytes + ·)

/-! ## Operations in progress (R387 to R391) -/

/-- A read of a sector meets the running erase: the same bank, or any bank in unified configuration. -/
def meetsErase (sec : Nat) (s : State) : Bool :=
  match s.me.erase with
  | some e => !e.suspended && (s.me.unified || e.sector / 1024 = redirect sec s / 1024)
  | none => false

/-- A read that meets a running erase requests a suspend; one that meets a suspended bank is served and keeps it so. -/
def readTouches (sec : Nat) (s : State) : State :=
  onMe (fun m => { m with erase := match m.erase with
    | some e =>
      if s.me.unified || e.sector / 1024 = redirect sec s / 1024 then
        if e.suspended then some { e with lastRead := s.clk.now }
        else some { e with requestedAt := some (e.requestedAt.getD s.clk.now) }
      else some e
    | none => none }) s

/-- The controller starts an erase: the flag first, then the count (R384, R391). -/
def startErase (sec : Nat) (s : State) : State :=
  let n := (sectorOf sec s).erases + 1
  let s := onSector sec (fun x => { x with flag := true, erases := n }) s
  let s := onNv (fun v => { v with
    units := v.units.filter (fun e => e.1 / 256 ≠ sec), flashTorn := v.flashTorn.filter (fun u => u / 256 ≠ sec) }) s
  let s := onMe (fun m => { m with erase := some {
    sector := sec, suspended := false, resumedAt := 0, everResumed := false, requestedAt := none, haltedAt := 0, lastRead := 0 } }) s
  if n = 100000 then raise 136 [sec] s else s

/-- An erase ends: its flag clears after the blank verify, or the sector is bad (R391, R392). -/
def endErase (e : Erase) (verifyOk : Bool) (s : State) : State :=
  let s := onMe (fun m => { m with
    erase := none, lastErase := if verifyOk then stOk else stHwFault, lastSector := e.sector }) s
  let s := onSector e.sector (fun x => if verifyOk then { x with flag := false } else { x with bad := true }) s
  raise 135 [] s

/-! ## The refresh (R397, R398) -/

/-- An erased reserve sector of the other bank. -/
def freeReserve (sec : Nat) (s : State) : Option Nat :=
  let first := if sec < 1024 then 2040 else 1016
  ((List.range 8).map (first + ·)).find? (fun r =>
    !(sectorOf r s).flag && !(sectorOf r s).bad && (List.range 256).all (fun i => unitErased (256 * r + i) s))

/-- Copy the programmed units of one sector to another. -/
def copySector (src dst : Nat) (s : State) : State :=
  (List.range 256).foldl (fun s i =>
    if unitErased (256 * src + i) s then s else unitPut (256 * dst + i) (unitData (256 * src + i) s) s) s

/-- A program of the refresh fails its verify. -/
def tearSector (sec : Nat) (s : State) : State :=
  onNv (fun v => { v with flashTorn := v.flashTorn ++ [256 * sec] }) s

/-- Queue a sector (R386, R397). -/
def queueRefresh (sec : Nat) (s : State) : State := onSector sec (fun x => { x with refreshQ := true }) s

/-- One stage of the refresh: status and state. Stage numbers are those of R397. -/
def refreshStep (doneOk : Bool) (s : State) : Nat × State :=
  match s.nv.refresh, s.nv.refreshStage with
  | .copied a _, 3 =>
    if s.me.erase.isSome then (stOk, s)
    else if (sectorOf a s).bad then (stHwFault, s)
    else (stOk, startErase a (onNv (fun v => { v with refreshStage := 4 }) s))
  | .copied a r, _ =>
    if s.me.erase.isSome then (stOk, s)
    else if (sectorOf a s).flag then (stHwFault, onNv (fun v => { v with refreshStage := 3 }) s)
    else if s.nv.refreshStage = 4 then
      if doneOk then (stOk, onNv (fun v => { v with refreshStage := 5 }) (copySector r a s))
      else (stHwFault, onNv (fun v => { v with refreshStage := 3 }) (tearSector a s))
    else (stOk, onNv (fun v => { v with refresh := .done a r, refreshStage := 6 }) s)
  | .done _ r, 6 =>
    if s.me.erase.isSome then (stOk, s)
    else if (sectorOf r s).bad then (stHwFault, onNv (fun v => { v with refresh := .none, refreshStage := 0 }) s)
    else (stOk, startErase r (onNv (fun v => { v with refreshStage := 7 }) s))
  | .done a r, _ =>
    if s.me.erase.isSome then (stOk, s)
    else if (sectorOf r s).flag then (stHwFault, onNv (fun v => { v with refreshStage := 6 }) s)
    else
      (stOk, onSector a (fun x => { x with refreshQ := false })
        (onNv (fun v => { v with refresh := .none, refreshStage := 0 }) s))
  | .none, _ =>
    match s.me.refreshSel with
    | some (a, r) =>
      (stOk, onMe (fun m => { m with refreshSel := none })
        (onNv (fun v => { v with refresh := .copied a r, refreshStage := 3 }) s))
    | none =>
      match s.nv.sectors.find? (fun e => e.2.refreshQ && !e.2.flag) with
      | none => (stOk, s)
      | some (a, _) =>
        match freeReserve a s with
        | none => (stHwFault, s)
        | some r =>
          if s.me.erase.isSome then (stOk, s)
          else if doneOk then (stOk, onMe (fun m => { m with refreshSel := some (a, r) }) (copySector a r s))
          else (stHwFault, tearSector r s)

/-- FL_REFRESH (R397): a stage of the refresh in progress or queued, else the margin read of the next sector. -/
def flRefresh (marginClean doneOk : Bool) (s : State) : Nat × State :=
  if s.nv.refresh ≠ .none || s.nv.sectors.any (fun e => e.2.refreshQ && !e.2.flag) then refreshStep doneOk s
  else
    let n := s.me.margin
    let s := onMe (fun m => { m with margin := (n + 1) % 2048 }) s
    (stOk, if marginClean || (sectorOf n s).flag then s else queueRefresh n s)

/-- What start-up makes of the refresh record (R398). -/
def refreshAtStart (s : State) : State :=
  onNv (fun v => { v with refreshStage := match v.refresh with
    | .copied _ _ => 3
    | .done _ _ => 6
    | .none => 0 }) s

/-! ## ROM routines (R394, R395) -/

def gReg (n : Fin 16) (s : State) : Nat := (s.cpuV.regs[n]).toNat

/-- A routine returns its status in g1 and its result in g2. -/
def flReturn (st : Nat) (result : Option Nat) (s : State) : State :=
  onCpu .vault (fun c =>
    let c := { c with regs := c.regs.set 1 (BitVec.ofNat 32 st) }
    match result with
    | some v => { c with regs := c.regs.set 2 (BitVec.ofNat 32 v) }
    | none => c) s

/-- A routine runs only on a running vault core; tenant code is answered DENIED. -/
def flRoutine (f : State → State) (s : State) : Res :=
  done (if !running s || s.cpuV.stopped || s.cpuV.halted then s
    else if !s.cpuV.priv then flReturn stDenied none s
    else f s)

/-- Retries of FL_READ (R386): units in order until one fails all of them. The units read, the failing unit if any, and
what the retries leave. -/
def readUnits (errs : List FlashErr) : List Nat → Bytes → State → Bytes × Option Nat × State
  | [], acc, s => (acc, none, s)
  | u :: r, acc, s =>
    match errs.find? (fun e => e.unit == u) with
    | none => readUnits errs r (acc ++ unitData (redirect (u / 256) s * 256 + u % 256) s) s
    | some e =>
      if e.firstRetry = 0 then (acc, some u, raise 137 [] s)
      else
        let sec := redirect (u / 256) s
        let s := onSector sec (fun x => { x with refreshQ := true, retries := x.retries + 1 }) s
        readUnits errs r (acc ++ unitData (sec * 256 + u % 256) s) s

/-- FL_READ. A read that meets a running erase requests a suspend and waits: the row then changes nothing else and is
issued again (log 61). -/
def flReadOp (errs : List FlashErr) (s : State) : State :=
  let off := gReg 1 s
  let dst := gReg 2 s
  let n := gReg 3 s
  if n = 0 || 65536 < n || flashBytes < off + n || !inVaultRam dst n then flReturn stBadParam none s
  else
    let secs := rangeSectors off n
    if secs.any (fun x => (sectorOf (redirect x s) s).flag) then flReturn stEraseInterrupted none s
    else if secs.any (fun x => meetsErase x s) then secs.foldl (fun s x => readTouches x s) s
    else
      let s := secs.foldl (fun s x => readTouches x s) s
      let first := off / 32
      let units := (List.range ((off + n + 31) / 32 - first)).map (first + ·)
      let torn := (units.filter (fun u => s.nv.flashTorn.contains (redirect (u / 256) s * 256 + u % 256))).map
        (fun u => ({ unit := u, firstRetry := 0 } : FlashErr))
      let (b, bad, s) := readUnits (errs ++ torn) units [] s
      let s := ramPut .vault dst ((b.drop (off % 32)).take n) s
      match bad with
      | none => flReturn stOk none s
      | some u => flReturn stHwFault (some (32 * u)) s

def execFlRead (errs : List FlashErr) (s : State) : Res := flRoutine (flReadOp errs) s

/-- Bytes a routine reads from: vault RAM, the mailbox or flash. -/
def flSource (a n : Nat) (s : State) : Option Bytes :=
  if inVaultRam a n then some (ramGet .vault a n s)
  else if 0x180000 ≤ a && a + n ≤ 0x190000 then some ((List.range n).map (fun i => smGet 0 s.me.mailbox (a - 0x180000 + i)))
  else if 0x1000000 ≤ a && a + n ≤ 0x2000000 then some (flashRange (a - 0x1000000) n s)
  else none

/-- An erase in progress is suspended for a program and resumed after it (R389). -/
def eraseAround (s : State) : State :=
  onMe (fun m => { m with erase := m.erase.map (fun e =>
    { e with suspended := false, everResumed := true, resumedAt := s.clk.now, requestedAt := none }) }) s

/-- FL_PROGRAM. `verifyOk` false: the last unit fails its verify. -/
def flProgramOp (verifyOk : Bool) (s : State) : State :=
  let off := gReg 1 s
  let n := gReg 3 s
  let sec := off / sectorBytes
  if off % 32 ≠ 0 || n = 0 || n % 32 ≠ 0 || flashBytes < off + n || (off + n - 1) / sectorBytes ≠ sec then flReturn stBadParam none s
  else match flSource (gReg 2 s) n s with
  | none => flReturn stBadParam none s
  | some b =>
    if protectedSector sec s then flReturn stDenied none s
    else if s.me.erase.any (fun e => e.sector = sec) then flReturn stBusy none s
    else if (sectorOf sec s).flag then flReturn stEraseInterrupted none s
    else if (List.range (n / 32)).any (fun i => !unitErased (off / 32 + i) s) then flReturn stNotErased none s
    else
      let s := eraseAround s
      if verifyOk then flReturn stOk none (flashPut off b s)
      else
        let s := flashPut off (b.take (n - 32)) s
        let u := (off + n) / 32 - 1
        flReturn stHwFault none (onNv (fun v => { v with flashTorn := v.flashTorn ++ [u] }) s)

def execFlProgram (verifyOk : Bool) (s : State) : Res := flRoutine (flProgramOp verifyOk) s

/-- FL_ERASE. -/
def flEraseOp (s : State) : State :=
  let sec := gReg 1 s
  if 2048 ≤ sec then flReturn stBadParam none s
  else if protectedSector sec s then flReturn stDenied none s
  else if s.me.erase.isSome then flReturn stBusy none s
  else if (sectorOf sec s).bad then flReturn stHwFault none s
  else flReturn stOk none (startErase sec s)

def execFlErase (s : State) : Res := flRoutine flEraseOp s

/-- FL_POLL. -/
def flPollOp (s : State) : State :=
  let v := match s.me.erase with
    | some e => (if e.suspended then 2 else 1) + 16 * e.sector
    | none => 16 * s.me.lastSector
  flReturn stOk (some (v + 65536 * s.me.lastErase)) s

def execFlPoll (s : State) : Res := flRoutine flPollOp s

/-- FL_BLANK: the offset of the first programmed unit. -/
def flBlankOp (s : State) : State :=
  let off := gReg 1 s
  let n := gReg 2 s
  if off % 32 ≠ 0 || n = 0 || n % 32 ≠ 0 || flashBytes < off + n then flReturn stBadParam none s
  else if (rangeSectors off n).any (fun x => (sectorOf x s).flag) then flReturn stEraseInterrupted none s
  else match (List.range (n / 32)).find? (fun i => !unitErased (off / 32 + i) s) with
  | some i => flReturn stNotErased (some (off + 32 * i)) s
  | none => flReturn stOk none s

def execFlBlank (s : State) : Res := flRoutine flBlankOp s

/-- FL_INFO. -/
def flInfoOp (s : State) : State :=
  let sec := gReg 1 s
  if 2048 ≤ sec then flReturn stBadParam none s
  else
    let x := sectorOf sec s
    flReturn stOk (some (b2n x.flag + 2 * b2n x.bad + 4 * b2n x.refreshQ + 256 * min 0xFFFFFF x.erases)) s

def execFlInfo (s : State) : Res := flRoutine flInfoOp s

/-- FL_CONFIG (R390). -/
def flConfigOp (s : State) : State :=
  let v := gReg 1 s
  if 1 < v then flReturn stBadParam none s
  else if s.me.erase.isSome then flReturn stBusy none s
  else flReturn stOk none (onMe (fun m => { m with unified := v = 1 }) s)

def execFlConfig (s : State) : Res := flRoutine flConfigOp s

def execFlRefresh (marginClean : Bool) (doneOk : Bool) (s : State) : Res :=
  flRoutine (fun s => let (st, s) := flRefresh marginClean doneOk s; flReturn st none s) s

/-! ## Suspend and resume (R387, R388) -/

/-- ERASE_SUSPEND_REQUEST: a read of a flash offset arrives. -/
def execEraseSuspendRequest (dt : Nat) (addr : Nat) (s : State) : Res :=
  let s := advance dt s
  done (if addr < flashBytes then readTouches (addr / sectorBytes) s else s)

/-- SUSPEND_ACCEPT: at once, or 500 µs after the last resume instant; the erase halts. -/
def execSuspendAccept (dt : Nat) (s : State) : Res :=
  let s := advance dt s
  done (match s.me.erase with
    | some e =>
      if e.suspended || e.requestedAt.isNone || (e.everResumed && s.clk.now < e.resumedAt + usTicks 500) then s
      else onMe (fun m => { m with erase := some { e with
        suspended := true, haltedAt := s.clk.now, lastRead := s.clk.now, requestedAt := none } }) s
    | none => s)

/-- ERASE_RESUME: after 2 µs without a read, or 2 ms after the suspend. -/
def execEraseResume (dt : Nat) (s : State) : Res :=
  let s := advance dt s
  done (match s.me.erase with
    | some e =>
      if e.suspended && (e.lastRead + usTicks 2 ≤ s.clk.now || e.haltedAt + msTicks 2 ≤ s.clk.now) then
        onMe (fun m => { m with erase := some { e with
          suspended := false, everResumed := true, resumedAt := s.clk.now, requestedAt := none } }) s
      else s
    | none => s)

end Sys2Proof.Machine
end

