-- ==== Sys2Proof/Machine/Fw.lean ====
section
/-! DEFINITION. Firmware images, loading, swaps, trials, applets, and a core that stops (R348, R352, R361 to R372, R448). -/
namespace Sys2Proof.Machine

/-! ## Images (R348, R361 to R363, R392) -/

/-- The body of a firmware or applet object (R362). -/
def fwBodyOf (b : Bytes) : FwBody :=
  { target := leNat (slice b 0 1), isa := leNat (slice b 1 1), abi := leNat (slice b 2 2), version := leNat (slice b 4 4),
    svn := leNat (slice b 8 4), size := leNat (slice b 12 4), hash := slice b 16 48, entry := leNat (slice b 64 4),
    applet := leNat (slice b 68 4), quota := leNat (slice b 72 4) }

/-- The bytes of an object as they stand in its area's first sector. -/
def objBytes (o : AuthObj) : Bytes := authSigned o ++ o.sigEc ++ o.sigPq

def isVault (k : CoreId) : Bool := k == .vault
def coreNo (k : CoreId) : Nat := match k with | .control => 0 | .vault => 1

/-- A sector whose flag marks an erase that no refresh redirects (R397, R398). -/
def eraseCut (n : Nat) (x : Sector) (s : State) : Bool :=
  x.flag && (match s.nv.refresh with
    | .copied a _ => a ≠ n
    | _ => true)

/-- An area with an erase flag set or a bad sector holds no image; a sector under refresh is read from its copy (R348, R392,
R397, R398). -/
def areaSound (a : Nat) (s : State) : Bool :=
  !(s.nv.sectors.any (fun e => inArea a e.1 && (eraseCut e.1 e.2 s || e.2.bad)))

/-- The image of a bank is valid: its object is accepted, its code has its hash (R362). -/
def imageValid (k : CoreId) (bank : Nat) (s : State) : Bool :=
  let a := imgArea k bank
  areaSound a s &&
  (match areaOf a s with
   | .empty => false
   | .factory => !rootRevoked (Config.factorySigner (isVault k) % 4) s
   | .loaded o b =>
     accepted o s && o.kind = coreNo k + 1 && b.target = coreNo k && sha384 (flashRange (areaCode a) b.size s) = b.hash)

def imageSvn (k : CoreId) (bank : Nat) (s : State) : Nat :=
  match areaOf (imgArea k bank) s with
  | .loaded _ b => b.svn
  | _ => Config.factorySvn (isVault k)

def imageVersion (k : CoreId) (bank : Nat) (s : State) : Nat :=
  match areaOf (imgArea k bank) s with
  | .loaded _ b => b.version
  | _ => Config.factoryVersion (isVault k)

/-- The choice of R363: the bank, and whether it is a fallback. -/
def chooseImage (k : CoreId) (s : State) : Option (Nat × Bool) :=
  let r := recOf k s
  let good (b : Nat) : Bool := imageValid k b s && r.floor ≤ imageSvn k b s
  if good r.active then some (r.active, false)
  else if good (1 - r.active) then some (1 - r.active, true)
  else none

def chosenOf (k : CoreId) (s : State) : Option Nat :=
  match k with
  | .control => s.fw.chosenC
  | .vault => s.fw.chosenV

/-! ## A core starts its firmware (R361, R369 step 4, R409, R443) -/

/-- The image's code into the image region of control RAM (R347 step 8, R369 step 4). -/
def loadControl (bank : Nat) (s : State) : State :=
  let a := imgArea .control bank
  let size := match areaOf a s with
    | .loaded _ b => b.size
    | .factory => Config.factorySize
    | .empty => 0
  let code := flashRange (areaCode a) (min size 0x180000) s
  let low : SMap Byte := code.zipIdx.filterMap (fun (x, i) => if x = 0 then none else some (i, x))
  onMe (fun m => { m with ctrlRam := low ++ m.ctrlRam.filter (fun e => 0x180000 ≤ e.1) }) s

/-- Where the firmware of a bank enters: its ENTRY in control RAM or in place in flash (R361, R362). -/
def entryAddr (k : CoreId) (bank : Nat) (s : State) : Nat :=
  let a := imgArea k bank
  let e := match areaOf a s with
    | .loaded _ b => b.entry
    | _ => Config.factoryEntry (isVault k)
  match k with
  | .control => 0x10000000 + e
  | .vault => 0x1000000 + areaCode a + e

/-- The registers of a core as its firmware starts: those of a reset, with VSEL 1 and the entry address (R409, R443;
log 65). Bit RAM and RESTARTS are kept. -/
def startCore (k : CoreId) (bank : Nat) (cause : Word) (s : State) : State :=
  let s := match k with
    | .control => loadControl bank s
    | .vault => s
  let pc := BitVec.ofNat 32 (entryAddr k bank s)
  let s := onCpu k (fun c => { ({} : Cpu) with
    pc := pc, vsel := true, ecause := cause, bits := c.bits, restarts := c.restarts, restartAt := c.restartAt
    cycleBase := c.cycleBase }) s
  let v := imageVersion k bank s
  onFw (fun f => match k with
    | .control => { f with chosenC := some bank, verC := v, trialAtC := s.clk.now }
    | .vault => { f with chosenV := some bank, verV := v, trialAtV := s.clk.now }) s

/-! ## FW_INFO (R243, R348, R363) -/

def recWord (r : ImgRec) : Nat := r.active % 2 + 2 * b2n r.trial + 4 * b2n r.prev + 65536 * (r.floor % 2 ^ 32)

/-- Version of what an area holds and ERASE_INTERRUPTED while one of its sectors' flags is set (log 62). -/
def areaInfo (a : Nat) (s : State) : Bytes :=
  let v := match areaOf a s with
    | .empty => 0
    | .factory => Config.factoryVersion (2 ≤ a)
    | .loaded _ b => b.version
  natLE 4 v ++ natLE 2 (if s.nv.sectors.any (fun e => inArea a e.1 && eraseCut e.1 e.2 s) then stEraseInterrupted else stOk)

def fwInfoBody (c : Call) (s : State) : State :=
  let core (k : CoreId) : Bytes :=
    natLE 8 (recWord (recOf k s)) ++ natLE 1 ((chosenOf k s).getD 255) ++ areaInfo (imgArea k 0) s ++ areaInfo (imgArea k 1) s
  let apps := s.cmd.applets.filter (fun e => e.2.installed)
  replyOk c [rtlv 1 (core .control), rtlv 1 (core .vault),
    rtlv 1 (apps.flatMap (fun e => natLE 4 e.1 ++ natLE 4 e.2.id ++ natLE 4 e.2.version))] s

/-! ## Loading (R364, R365) -/

def sessOfId (id : Nat) (s : State) : Option FwSess := s.fw.sessions.find? (fun x => x.id == id)
def onFwSess (id : Nat) (f : FwSess → FwSess) (s : State) : State :=
  onFw (fun w => { w with sessions := w.sessions.map (fun x => if x.id = id then f x else x) }) s

/-- The controller takes the next sector of the oldest session that has one to erase; a bad sector is left out. -/
def fwErase : Nat → State → State
  | 0, s => s
  | n + 1, s =>
    if s.me.erase.isSome then s
    else match s.fw.sessions.find? (fun x => x.toErase ≠ []) with
    | none => s
    | some x =>
      match x.toErase with
      | [] => s
      | sec :: rest =>
        if (sectorOf sec s).bad then fwErase n (onFwSess x.id (fun y => { y with toErase := rest }) s)
        else startErase sec s

/-- Answer the chunks that wait for a session, once their sectors are erased (R365). -/
def fwChunks (s : State) : State :=
  s.cmd.owed.foldl (fun s o =>
    match o.wait with
    | .chunk id off data =>
      match sessOfId id s with
      | none => badParam o.call 1 s
      | some x =>
        let a := areaCode x.area + off
        let secs := rangeSectors a data.length
        if secs.any (fun y => x.toErase.contains y) then s
        else if secs.any (fun y => (sectorOf y s).bad || (sectorOf y s).flag) then refuse o.call stHwFault s
        else if x.done.any (fun (p, n) => p < off + data.length && off < p + n) then refuse o.call stNotErased s
        else
          replyOk o.call [] (flashPut a data (onFwSess id (fun y => { y with done := y.done ++ [(off, data.length)] }) s))
    | _ => s) s

/-- Close the session of a core target, or the applet session (R364). -/
def closeFw (k : CoreId) (applet : Bool) (s : State) : State :=
  fwChunks (onFw (fun w => { w with
    sessions := w.sessions.filter (fun x => !(x.applet == applet && (applet || x.core == k))) }) s)

/-- Applet areas of a core, and the index of the applet an area holds: its TID is the area's number in the core plus one,
and its applet number counts the control core's first (log 64). -/
def appletAreas (k : CoreId) : List Nat := (List.range 8).map (fun i => (match k with | .control => 4 | .vault => 12) + i)
def areaTid (a : Nat) : Nat := if a < 12 then a - 3 else a - 11
def areaCore (a : Nat) : CoreId := if a < 12 then .control else .vault
def areaApplet (a : Nat) : Nat := appletKey (areaCore a) (areaTid a)

/-- Stop an applet: its waits go, and the replies it is owed still come to their buffers (R232, R366, R453). -/
def stopApplet (i : Nat) (s : State) : State :=
  onApplet i (fun a => { a with running := false, wait := .none, replies := [] }) s

/-- What an applet area held is gone, but for the buffers of replies it is owed (R232). -/
def uninstall (a : Nat) (s : State) : State :=
  onNv (fun n => { n with installed := n.installed.filter (· ≠ a) })
    (onApplet (areaApplet a) (fun x => { ({} : Applet) with bufs := x.bufs }) s)

/-- An applet is installed, stopped, from the body in its area (R366). -/
def install (a : Nat) (b : FwBody) (s : State) : State :=
  onApplet (areaApplet a) (fun x => { ({} : Applet) with
    bufs := x.bufs
    id := b.applet, tid := areaTid a, installed := true, quota := b.quota, version := b.version }) s

/-- The area a FW_BEGIN takes: the inactive bank, the area of the same APPLET, or a free one. -/
def beginArea (k : CoreId) (applet : Bool) (b : FwBody) (s : State) : Option Nat :=
  if applet then
    match (appletAreas k).find? (fun a => (appletOf (areaApplet a) s).installed && (appletOf (areaApplet a) s).id = b.applet) with
    | some a => some a
    | none => (appletAreas k).find? (fun a => !(appletOf (areaApplet a) s).installed)
  else some (imgArea k (1 - (recOf k s).active))

def fwBeginBody (c : Call) (s : State) : State :=
  let target := argD c 1 0
  let k : CoreId := if target % 2 = 0 then .control else .vault
  let applet := 2 ≤ target
  match (argOf c 3).bind parseAuth with
  | none => refuse c stDenied s
  | some o =>
    let b := fwBodyOf o.body
    if !accepted o s || o.kind ≠ (if applet then 3 else coreNo k + 1) then refuse c stDenied s
    else if o.body.length ≠ 76 || b.target ≠ coreNo k || b.isa = 0 || 2 < b.isa then badParam c 3 s
    else if !applet && b.svn < (recOf k s).floor then refuse c stDenied s
    else if argD c 2 0 ≠ b.size || areaLimit (imgArea k 0) < b.size && !applet || areaLimit 4 < b.size && applet then badParam c 2 s
    else match beginArea k applet b s with
    | none => refuse c stNoSpace s
    | some a =>
      let s := closeFw k applet s
      let s := if applet then uninstall a s
        else setRec k { recOf k s with prev := false } s
      let id := s.fw.nextSess
      let sess : FwSess := {
        id := id, core := k, applet := applet, area := a, obj := o, body := b, done := []
        toErase := (List.range (1 + (b.size + 8191) / 8192)).map (areaFirst a + ·) }
      let s := setArea a (.loaded o b) (onFw (fun w => { w with sessions := w.sessions ++ [sess], nextSess := id + 1 }) s)
      replyOk c [r32 1 id] (fwErase 300 s)

def fwChunkBody (c : Call) (s : State) : State :=
  let id := argD c 1 0
  let off := argD c tyOffset 0
  let data := (argOf c 2).getD []
  match sessOfId id s with
  | none => badParam c 1 s
  | some x =>
    if off % 32 ≠ 0 || x.body.size < off + data.length then badParam c tyOffset s
    else fwChunks (await c (.chunk id off data) s)

/-- FLASH_DONE: the erase in progress ends; a session's sector is ready, its object is written to the first, waiting
chunks are programmed, and the next sector follows. -/
def flashDone (verifyOk : Bool) (s : State) : State :=
  match s.me.erase with
  | none => s
  | some e =>
    if e.suspended then s
    else
      let s := endErase e verifyOk s
      let s := s.fw.sessions.foldl (fun s x =>
        if x.toErase.head? = some e.sector then
          let s := onFwSess x.id (fun y => { y with toErase := y.toErase.tail }) s
          if verifyOk && e.sector = areaFirst x.area then flashPut (areaFirst x.area * sectorBytes) (objBytes x.obj) s else s
        else s) s
      fwErase 300 (fwChunks s)

/-! ## Activation (R366, R369, R370, R372) -/

/-- Every byte of the code is programmed. -/
def fwComplete (x : FwSess) : Bool :=
  let rec go : Nat → Nat → Bool
    | 0, at_ => x.body.size ≤ at_
    | n + 1, at_ =>
      if x.body.size ≤ at_ then true
      else match x.done.find? (fun (p, k) => p ≤ at_ && at_ < p + k) with
      | some (p, k) => go n (p + k)
      | none => false
  go (x.done.length + 1) 0

/-- The checks of FW_ACTIVATE and APPLET_LOAD: the refusing status, if any. -/
def activateRefuse (x : FwSess) (s : State) : Option Nat :=
  if !fwComplete x then some stBadParam
  else if sha384 (flashRange (areaCode x.area) x.body.size s) ≠ x.body.hash then some stTagMismatch
  else none

/-- Time from the start of a swap to its swap point, its commit point and its end, at the spec's maxima (R369, R370;
log 54). -/
def pointTicks (k : CoreId) : Nat := match k with | .control => usTicks 8000 | .vault => usTicks 3000
def commitTicks (k : CoreId) : Nat := match k with | .control => usTicks 21100 | .vault => usTicks 20100
def swapTicks (k : CoreId) : Nat := match k with | .control => usTicks 47100 | .vault => usTicks 62100

/-- A swap begins with the check of the code's hash; until its swap point nothing else changes. -/
def startSwap (k : CoreId) (sess : Option Nat) (s : State) : State :=
  onPlat (fun p => { p with swap := some {
    core := k, sess := sess, cause := (cpu k s).ecause, pointAt := s.clk.now + pointTicks k
    commitAt := s.clk.now + commitTicks k, endsAt := s.clk.now + swapTicks k } }) s

/-- The swap point: the hold of R235 and BOOT_STAGE SWAP; LOCK is cleared and the ROM sets VSEL to 0 (R443). -/
def swapPoint (w : Swap) (s : State) : State :=
  onCpu w.core (fun c => { c with lock := false, vsel := false }) (onPlat (fun p => { p with
    stage := match w.core with | .control => .swapC | .vault => .swapV
    swap := some { w with pointed := true } }) s)

/-- Swaps never overlap: a second waits for the first's last step (R372). -/
def askSwap (c : Call) (k : CoreId) (sess : Option Nat) (s : State) : State :=
  let s := await c (.swap k sess) s
  if s.plat.swap.isSome then s else startSwap k sess s

/-- The commit point: one MRAM write; a session's image goes on trial, a rollback's does not (R367, R368). -/
def commitRec (k : CoreId) (trial : Bool) (s : State) : State :=
  let r := recOf k s
  setRec k { r with active := 1 - r.active, trial := trial, prev := true } s

def dropSess (id : Nat) (s : State) : State :=
  onFw (fun w => { w with sessions := w.sessions.filter (fun x => x.id ≠ id) }) s

/-- FW_ACTIVATE. In RECOVERY a successful one performs a warm start (R352). -/
def fwActivateBody (c : Call) (s : State) : State :=
  match sessOfId (argD c 1 0) s with
  | none => badParam c 1 s
  | some x =>
    let at_ := if c.pkt.expert then (argOf c 2).map bytesTime else none
    if x.applet then badParam c 1 s
    else if c.pkt.expert && badTime c 2 then badParam c 2 s
    else if at_.any (fun t => ptp16 s + secs16 86400 < t) then badParam c 2 s
    else match activateRefuse x s with
    | some st => if st = stBadParam then badParam c 1 s else refuse c st s
    | none =>
      if s.plat.stage = .recovery then
        deviceReset .warm (replyOk c [] (dropSess x.id (commitRec x.core true s)))
      else match at_ with
      | some t => if ptp16 s < t then await c (.armedSwap x.id t) s else askSwap c x.core (some x.id) s
      | none => askSwap c x.core (some x.id) s

/-- FW_ACTIVATE_INSTANT: armed swaps whose instant has come. -/
def armedSwaps (s : State) : State :=
  s.cmd.owed.foldl (fun s o =>
    match o.wait with
    | .armedSwap id t =>
      if ptp16 s < t then s
      else match sessOfId id s with
      | some x => askSwap o.call x.core (some id) s
      | none => badParam o.call 1 s
    | _ => s) s

/-- FW_ROLLBACK (R368), judged against the record from before an end of trial in the same clock (R372). -/
def rollbackOk (k : CoreId) (s : State) : Bool :=
  let r := match s.fw.trialWas with
    | some (j, t, r) => if j = k && t = s.clk.now then r else recOf k s
    | none => recOf k s
  r.prev && imageValid k (1 - r.active) s && r.floor ≤ imageSvn k (1 - r.active) s

def fwRollbackBody (c : Call) (s : State) : State :=
  let k : CoreId := if argD c 1 0 = 0 then .control else .vault
  if rollbackOk k s then askSwap c k none s else refuse c stDenied s

/-- The next swap that waits. -/
def nextSwap (s : State) : State :=
  match s.cmd.owed.find? (fun o => match o.wait with
      | .swap _ _ => true
      | _ => false) with
  | some o =>
    match o.wait with
    | .swap k none => if rollbackOk k s then startSwap k none s else refuse o.call stDenied s
    | .swap k (some id) => if (sessOfId id s).isSome then startSwap k (some id) s else badParam o.call 1 s
    | _ => s
  | none => s

/-- The running applets of a core. -/
def runningApplets (k : CoreId) (s : State) : List Nat :=
  ((appletAreas k).map areaApplet).filter (fun i => (appletOf i s).running)

/-- Applets that a swap has stopped run again (R371). -/
def resumeApplets (l : List Nat) (s : State) : State :=
  l.foldl (fun s i => onApplet i (fun a => { a with running := a.installed }) s) s

/-- The code of a control-core swap comes over the riser into control RAM, past the valve table, and the commit point of
either is an MRAM write of a vault that is reached (R369, R465). -/
def swapReaches (w : Swap) (s : State) : Bool :=
  w.core == .vault || (vaultReached s && dmaGranted s.vtP 2 0x10000000 0x180000 .write)

/-- A swap that cannot reach its commit point is abandoned: the old image restarts, or a rolled-back core stays stopped,
and the command is answered HW_FAULT (R372; log 54). -/
def abandonSwap (w : Swap) (s : State) : State :=
  let s := onPlat (fun p => { p with swap := none, stage := .ready }) s
  let s := match s.cmd.owed.find? (fun o => o.wait == .swap w.core w.sess) with
    | some o => refuse o.call stHwFault s
    | none => s
  nextSwap (if w.cause = 0x800 then onCpu w.core (fun c => { c with stopped := true }) s
    else resumeApplets w.apps (startCore w.core ((chosenOf w.core s).getD (recOf w.core s).active) w.cause s))

/-- The commit point, with the core's applets stopped at the step before it. -/
def swapCommit (w : Swap) (s : State) : State :=
  let apps := runningApplets w.core s
  let s := apps.foldl (fun s i => stopApplet i s) s
  let s := commitRec w.core w.sess.isSome s
  let s := match w.sess with | some id => dropSess id s | none => s
  onPlat (fun p => { p with swap := some { w with committed := true, apps := apps } }) s

/-- The last step: the new firmware starts, its applets run again, and the command is answered. -/
def swapEnd (w : Swap) (s : State) : State :=
  let s := startCore w.core (recOf w.core s).active w.cause s
  let s := resumeApplets w.apps (onPlat (fun p => { p with swap := none, stage := .ready }) s)
  nextSwap (match s.cmd.owed.find? (fun o => o.wait == .swap w.core w.sess) with
    | some o => replyOk o.call [] s
    | none => s)

/-- One part of a running swap whose instant has come: the swap point, the commit point or the end (R366, R369, R370).
While the riser retrains, a control-core swap waits before its commit point (R22). -/
def swapPart (s : State) : State :=
  match s.plat.swap with
  | none => s
  | some w =>
    if !w.pointed then (if w.pointAt ≤ s.clk.now then swapPoint w s else s)
    else if !w.committed then
      if s.clk.now < w.commitAt || (w.core == .control && s.ri.st == .retraining) then s
      else if swapReaches w s then swapCommit w s
      else abandonSwap w (if vaultReached s then dmaRefused s else s)
    else if w.endsAt ≤ s.clk.now then swapEnd w s
    else s

/-- A running swap goes on to what its time has reached. -/
def swapTick (s : State) : State := swapPart (swapPart (swapPart s))

/-! ## A core that stops (R35, R232 to R234, R368, R372, R448) -/

/-- The commands that end with a stopped core. -/
def stopAnswers (k : CoreId) (s : State) : State :=
  match k with
  | .control =>
    s.cmd.owed.foldl (fun s o =>
      deliver (mkReply o.call o.opcode stHwFault [] (2, 0)) (onCmd (fun c => { c with owed := dropOwed o.call c.owed }) s)) s
  | .vault =>
    let s := match s.cl.execAt with
      | some _ => closeField (emit (.sw 0x6985 []) s)
      | none => s
    s.cmd.owed.foldl (fun s o =>
      if vaultServed o.opcode o.call && o.wait ≠ .held then refuse o.call stHwFault s else s) s

/-- The automatic rollback of a core on trial: its ROM takes over at once and performs the steps of a swap from the swap
point on (R368; log 54). -/
def autoRollback (k : CoreId) (s : State) : State :=
  let auto := match k with
    | .control => s.pol.autorevC
    | .vault => s.pol.autorevV
  if (recOf k s).trial && auto && rollbackOk k s then
    let s := raise 149 [] s
    let s := onCpu k (fun c => { ({} : Cpu) with
      ecause := 0x800, bits := c.bits, restarts := c.restarts, restartAt := c.restartAt, cycleBase := c.cycleBase }) s
    swapPoint {
      core := k, sess := none, cause := 0x800, pointAt := s.clk.now
      commitAt := s.clk.now + (commitTicks k - pointTicks k), endsAt := s.clk.now + (swapTicks k - pointTicks k) } s
  else s

/-- A core stops: its event and record, the answers of R232 to R234, then a trial's rollback, or the end of its swap
(R372). -/
def coreStop (k : CoreId) (s : State) : State :=
  let s := onCpu k (fun c => { c with stopped := true }) s
  let x := cpu k s
  let s := stopAnswers k (raise (match k with | .control => 98 | .vault => 143)
    [x.escPc.toNat, x.escCause.toNat, x.epc.toNat, x.ecause.toNat] s)
  match s.plat.swap with
  | some w =>
    if w.core = k && !w.committed then abandonSwap w s
    else if w.core = k then autoRollback k (onPlat (fun p => { p with swap := none, stage := .ready }) s)
    else s
  | none => autoRollback k s

/-! ## Trial (R367) -/

/-- TRIAL_END. -/
def execTrialEnd (dt : Nat) (k : CoreId) (s : State) : Res :=
  let s := advance dt s
  let r := recOf k s
  let at_ := match k with
    | .control => s.fw.trialAtC
    | .vault => s.fw.trialAtV
  done (if running s && r.trial && chosenOf k s = some r.active && !(cpu k s).stopped && at_ + secTicks s.pol.trial ≤ s.clk.now then
      setRec k { r with trial := false, floor := max r.floor (imageSvn k r.active s) }
        (onFw (fun f => { f with trialWas := some (k, s.clk.now, r) }) s)
    else s)

/-! ## Applets (R366, R412) -/

/-- Applet numbers of APPLET_LOAD and APPLET_CTL: 0 to 7 the control core's areas, 8 to 15 the vault core's (log 64). -/
def appletArea (n : Nat) : Nat := 4 + n

def appletLoadBody (c : Call) (s : State) : State :=
  match sessOfId (argD c 1 0) s with
  | none => badParam c 1 s
  | some x =>
    if !x.applet || x.body.abi ≠ 1 then badParam c 1 s
    else match activateRefuse x s with
    | some st => if st = stBadParam then badParam c 1 s else refuse c st s
    | none =>
      let s := onNv (fun n => { n with installed := n.installed ++ [x.area] }) (install x.area x.body s)
      replyOk c [r32 1 (x.area - 4)] (dropSess x.id s)

/-- APPLET_CTL: 0 starts, 1 stops, 2 removes; a start begins an unnegotiated session (R222, R366). -/
def appletCtlBody (c : Call) (s : State) : State :=
  let n := argD c 1 0
  let i := areaApplet (appletArea n)
  if 16 ≤ n || !(appletOf i s).installed then badParam c 1 s
  else
    let s := match (if c.pkt.expert then argN c 3 else none) with
      | some q => onApplet i (fun a => { a with quota := q }) s
      | none => s
    match argD c 2 0 with
    | 0 => replyOk c [] (if (appletOf i s).running then s
        else onApplet i (fun a => { a with running := true, sess := {}, wait := .none, replies := [] }) s)
    | 1 => replyOk c [] (stopApplet i s)
    | _ => replyOk c [] (setArea (appletArea n) .empty (uninstall (appletArea n) s))

end Sys2Proof.Machine
end

