-- ==== Sys2Proof/Machine/Boot.lean ====
section
/-! DEFINITION. Start-up (R332, R333, R344 to R352, R355, R359, R363, R393, R398): one event from reset release to READY
or RECOVERY. -/
namespace Sys2Proof.Machine

/-! ## Conditions (R470, R474, R483, R485) -/

/-- Reset may be released: power, clocks, TESTMODE, 2 ms after PWR_OK and 10 µs after the reset input. -/
def mayRelease (s : State) : Bool :=
  s.plat.stage == .reset && s.plat.pwrOk && !s.plat.testMode && s.plat.refLine && s.plat.pcieRef && s.plat.xtal25 &&
    s.plat.pwrOkAt + msTicks 2 ≤ s.clk.now && s.plat.resetAt + usTicks 10 ≤ s.clk.now

/-! ## The steps of R347 -/

/-- March failures of one die (R345). -/
def bootMarch (well : Bool) (env : BootEnv) (s : State) : State :=
  (env.marchFails.filter (fun e => memWell e.1 == well && e.2 < memWords e.1)).foldl (fun s e => marchFail true e.1 [e.2] s) s

/-- Steps 1 and 3: the noise banks' start-up tests, then the DRBG (R277, R279, R282), the seeds of the tamper
loops and, once in the life of the part, K_RND (R294, R321). -/
def bootNoise (env : BootEnv) (s : State) : State :=
  let s := if env.bank0Ok then onBank 0 (fun b => { b with st := .inService }) s else bankFails 0 s
  let s := if env.bank1Ok then onBank 1 (fun b => { b with st := .inService }) s else bankFails 1 s
  let s := seedLoops (if s.nw.lost then s else drbgStart s)
  if s.nv.kRnd.isSome || s.nw.lost then s
  else
    let (v, s) := takePool s
    tagStore 96 (bytes128 (v.setWidth 128)) (onNv (fun n => { n with kRnd := some (v.setWidth 128) }) s)

/-- A lost key-encryption key (R333): slots EMPTY, SEALED with ZEROISED, the record of a backup loss. -/
def bootKek (s : State) : State :=
  if s.nv.bbram.kek.isSome then s
  else
    let owned := s.nv.life = .owned || s.nv.life = .operational
    let s := onNv (fun n => { n with
      slots := [], life := if owned then .sealed else n.life, zeroised := n.zeroised || owned }) s
    if s.nv.bbram.lost then onNv (fun n => { n with bbram := { n.bbram with lost := false } }) (logRecord 0x0100 1 0 [] s) else s

/-- The backup sump (R332, R516): the pending level, and the records of what fired on backup power. A start-up without a
pending level keeps of the applied level only what fired since its reset began (R327, R489). -/
def bootSump (s : State) : State :=
  let later := s.bk.raiseLater
  let p := s.nv.bbram.pending
  let s := if 2 ≤ p && p ≤ 4 then applyLevel p s
    else onBk (fun b => { b with applied := if p = 1 then some (max 1 (b.applied.getD 1)) else b.resetLevel }) s
  let s := ((List.range 24).filter (fun n => later.getLsbD n)).foldl (fun s n =>
    logRecordAt (smGet 0 s.nv.bbram.times n) n 1 1 [] (sumpSet n s)) s
  onNv (fun n => { n with bbram := { n.bbram with pending := 255, times := [] } }) s

/-- The tamper events of the sources that fired on backup power, once the event path is ready (R332). -/
def bootEvents (s : State) : State :=
  let later := s.bk.raiseLater
  let s := ((List.range 24).filter (fun n => later.getLsbD n && 1 ≤ tampLevel n s)).foldl (fun s n => evRaise n s) s
  onBk (fun b => { b with raiseLater := 0 }) s

/-- Step 4: the refresh record and the erase flags (R393, R398). -/
def bootFlash (s : State) : State :=
  let s := refreshAtStart s
  let moving (n : Nat) : Bool := match s.nv.refresh with
    | .copied a _ => a = n
    | .done _ r => r = n
    | .none => false
  (s.nv.sectors.filter (fun e => e.2.flag && !moving e.1)).foldl (fun s e => logRecord 0x0101 1 0 [e.1] s) s

/-- Step 5 (R355). -/
def bootPolicy (s : State) : State :=
  match chosenPolicy s with
  | some p => applyPolicy p s
  | none => raise 147 [] (applyPolicy {} s)

/-- The choice of an image (R363). -/
def bootImage (k : CoreId) (s : State) : Option Nat × State :=
  match chooseImage k s with
  | some (b, fallback) => (some b, if fallback then raise 148 [] s else s)
  | none => (none, s)

/-- The ROM writes and locks the entries of the secret regions (R341, R407, R458, R527; log 66). -/
def lockedEntry (base limit : Nat) (rights : Bool) : Valve :=
  { valid := true, base := BitVec.ofNat 24 (base / 256), limit := BitVec.ofNat 24 (limit / 256), mset := 1
    kr := rights, kw := rights, lock := true }

/-- An entry for the DMA masters of a die, which the default map does not serve: without one neither the engines nor an
image write would ever be granted (R347, R459, R462; log 122). -/
def dmaEntry (base limit : Nat) (masters : BitVec 16) : Valve :=
  { valid := true, base := BitVec.ofNat 24 (base / 256), limit := BitVec.ofNat 24 (limit / 256), mset := masters, kr := true, kw := true }

def bootValves (s : State) : State :=
  { s with
    vtW := [(0, lockedEntry 0x03000000 0x030000FF false), (1, lockedEntry 0x03000100 0x030011FF true),
            (2, lockedEntry 0x02010000 0x02017FFF true), (3, lockedEntry 0x40008000 0x4000CFFF true),
            (255, dmaEntry 0x00100000 0x0017FFFF 6)]
    vtP := [(0, lockedEntry 0x40006000 0x4000AFFF true),
            (254, dmaEntry 0xA0000000 0xDFFFFFFF 2), (255, dmaEntry 0x10000000 0x101FFFFF 6)] }

/-- Keys of the table and of the cistern, drawn in this order (R99, R100, R116, R283): identifier hash, position hash,
entry, and the controller's data, tweak, tag and hash keys. The table is empty, so no line is bound to an entry (R99,
R124). -/
def bootKeys (s : State) : State :=
  let (a, s) := ruleKey 2 s
  let (b, s) := ruleKey 3 s
  let (c, s) := ruleKey 4 s
  let (d, s) := ruleKey 5 s
  let (e, s) := ruleKey 6 s
  let (f, s) := ruleKey 7 s
  let (g, s) := ruleKey 8 s
  let epoch := (monoRead 4 s).map (· % 2 ^ 32)
  let s := if epoch.isNone then raise 139 [4] s else s
  let s := onNv (fun n => { n with lines := n.lines.map (fun (i, l) => (i, { l with entry := none })) }) s
  onSe (fun x => { x with
    idKey := a.setWidth 128, posKey := b.setWidth 128, entryKey := c.setWidth 128, dataKey := d.setWidth 128
    tweakKey := e.setWidth 128, tagKey := f.setWidth 128, hashKey := g.setWidth 128
    epoch := epoch.getD 0, epochPrev := epoch.getD 0, epochAt := 0, epochOk := epoch.isSome }) s

/-- Pump states: reseeded, paired at S = 0, tested once (R146, R171, R175). -/
def bootPumps (env : BootEnv) (s : State) : State :=
  let s := pumpNos.foldl (fun s p =>
    if s.nw.lost then onPump p (fun x => { x with reseedAt := s.clk.now }) s
    else
      let (v, s) := takePool s
      onPump p (fun x => { x with gen := v, reseedAt := s.clk.now }) s) s
  let s := onPu (fun x => { x with rot := 0, rotAt := s.clk.now + msTicks 100, sweepAt := s.clk.now }) s
  pumpNos.foldl (fun s p => katRound p env.katOk (onPump p (fun x => { x with katAt := s.clk.now + msTicks 1 }) s)) s

/-- Installed applets are found again, stopped (log 64). -/
def bootApplets (s : State) : State :=
  s.nv.installed.foldl (fun s a => match areaOf a s with
    | .loaded _ b => if areaSound a s then install a b s else s
    | _ => s) s

/-- The post-mortem area goes to offset 0x0001_0000 of the log region after a warm start (R346). -/
def bootPostMortem (s : State) : State :=
  if s.plat.resetKind = .warm then
    onFw (fun f => { f with logMem := s.me.ctrlRam.filterMap (fun (a, b) =>
      if 0x1F0000 ≤ a then some (a - 0x1F0000 + 0x10000, b) else none) }) s
  else s

/-- RESET_RELEASE. -/
def execResetRelease (dt : Nat) (env : BootEnv) (s : State) : Res :=
  let s := advance dt s
  if !mayRelease s then done s
  else
    let kind := s.plat.resetKind
    let s := onPlat (fun p => { p with stage := .wellheadRom }) (onRi (fun r => { r with at_ := s.clk.now }) s)
    let s := { s with factoryPageOk := env.factoryPageOk }
    let s := calUserBad env.badUserCal (if env.factoryPageOk then s else raise 150 [] s)
    let (_, s) := monoNext 1 s
    let s := bootNoise env (bootSump (bootKek s))
    let s := bootPolicy (bootMarch true env (bootFlash s))
    let (v, s) := bootImage .vault s
    let s := onMe (fun m => { m with unified := v.isNone }) (bootValves s)
    let cause : Word := if kind = .warm then 0x200 else 0x100
    let now := s.clk.now
    let s := onCpu .control (fun c => { c with cycleBase := now }) (onCpu .vault (fun c => { c with cycleBase := now }) s)
    let s := match v with
      | some b => startCore .vault b cause s
      | none => s
    let s := newRiserKey s
    let (c, s) := bootImage .control s
    let s := match c with
      | some b => startCore .control b cause s
      | none => s
    let s := bootMarch false env s
    let s := bootPumps env (bootKeys s)
    let s := tagRecover (bootApplets (bootPostMortem (placeStatement s)))
    let s := onCl (fun x => { x with role := storedMode s }) s
    let s := onPlat (fun p => { p with
      stage := if v.isSome && c.isSome then .ready else .recovery, dpReleased := true, readyAt := s.clk.now
      pcieL0 := p.pcieRef && !p.pcieReset }) s
    done (tagMirror (bootEvents s))

end Sys2Proof.Machine
end

