-- ==== Sys2Proof/Machine/FrameRows.lean ====
section
/-! DEFINITION. The rows of the frame path: arrival, verdicts, spill and delivery, transmission, entry reads, counter blocks
and the doorbells of the queues (chapters 02 and 03). -/
namespace Sys2Proof.Machine

/-! ## Ingress -/

/-- FRAME_RECEIVE: the last bit of a frame crosses the port's receive balls, `sof` being the capture of its start (R44,
R183), in 2^-16 ns. -/
def execFrameReceive (dt : Nat) (port : Fin 4) (sof : Nat) (f : Frame) (s : State) : Res :=
  let s := pass dt s
  done (
    if !portUp port s || !s.plat.dpReleased || !s.plat.pwrOk then s
    else match macError f (portOf port s) with
      | some p => onPort port (fun _ => p) s
      | none =>
        let mode := (portOf port s).mode
        let ts := ((sof : Int) - rxLat port mode s).toNat
        let sofTick := s.clk.now - byteTicks mode f.len
        if (pairOf (port / 2) s).mode = .hsr then
          let s1 := match hsrSeq f with
            | some q => if hsrForwards port f s then forward port ts f q s else s
            | none => s
          if hsrLocal port f s then enterPort port ts sofTick f s1 else s1
        else enterPort port ts sofTick f s)

/-- INGRESS_STEP_6: the lanes' work on a frame is complete (R79, R80, R119 to R122, R149, R150, R155, R160). -/
def execIngressStep6 (dt ticket : Nat) (errA errB : LaneFault) (s : State) : Res :=
  let s := pass dt s
  done (match ingOf ticket s with
    | none => s
    | some x =>
      match x.bank, x.frame.apdu with
      | some b, some a =>
        if x.stage ≠ .working || x.lanes = [] then s
        else dispatchWaiting (finishIng x b a errA errB s)
      | _, _ => s)

/-- An evaluator finishes the oldest waiting request (R205). -/
def execConsistencyEvaluation (dt : Nat) (s : State) : Res :=
  let s := pass dt s
  done (match s.co.queue with
    | [] => s
    | q :: r => evaluate q.group q.n (onCo (fun u => { u with queue := r }) s))

/-- VERDICT_RELEASE: work done by the release instant. -/
def execVerdictRelease (dt ticket : Nat) (s : State) : Res :=
  let s := pass dt s
  done (match ingOf ticket s with
    | none => s
    | some x =>
      if x.stage = .done && x.lastBit + relFirst ≤ s.clk.now && onTime x then writeVerdict x false s.clk.now s else s)

/-- LATE_VERDICT: work that completed after the release instant (R74). -/
def execLateVerdict (dt ticket : Nat) (s : State) : Res :=
  let s := pass dt s
  done (match ingOf ticket s with
    | none => s
    | some x => if x.stage = .done && !onTime x then writeVerdict x true s.clk.now s else s)

/-! ## Delivery and spill -/

/-- RECORD_DELIVERY: the queue's head record leaves delivery memory; `e` is what ECC finds in its cells. -/
def execRecordDelivery (q : Fin 64) (e : MemErr) (s : State) : Res :=
  let x := rxqOf q s
  done (match x.recs with
    | [] => s
    | r :: rest =>
      if x.staged ≠ [] || nextQueue s ≠ some q.val then s
      else
        let s := returning (onRxq q (fun x => { x with recs := rest })) s
        match e with
        | .clean => moveRec q r none s
        | .corrected =>
          let s := onRxq q (fun x => { x with corrected := wrap1 x.corrected }) s
          moveRec q { r with verdict := { r.verdict with corr := r.verdict.ver = 2 } } none s
        | .uncorrectable =>
          let v := spoil r.verdict
          let (g, s) := draw 64 s
          let s := moveRec q { r with frame := garble g r.frame } (some v) s
          lowCells (raise 66 [q] (onFp (fun f => { f with wdDelivery := min 32768 (f.wdDelivery + 1) }) s)))

/-- SPILL_START: the oldest record has waited 2 µs for ring space (R69). -/
def execSpillStart (dt : Nat) (q : Fin 64) (s : State) : Res :=
  let s := pass dt s
  let x := rxqOf q s
  done (match x.recs with
    | r :: _ =>
      if r.at_ + usTicks 2 ≤ s.clk.now && !ringSpace x (recSize r.flen) then
        beginSpill q (cisternServe reqSpill 0 (cisternAsk reqSpill s))
      else s
    | [] => s)

/-- STAGING_DRAW: ring space has returned and the oldest staged record is delivered (R70, R71); `tagOk` is its block
tag's check. -/
def execStagingDraw (q : Fin 64) (tagOk : Bool) (s : State) : Res :=
  let x := rxqOf q s
  done (match x.staged with
    | [] => s
    | r :: rest =>
      if nextQueue s ≠ some q.val then s
      else
        let s := cisternServe reqDraw ((recSize r.flen + 31) / 32) s
        let s := onRxq q (fun x => { x with
          staged := rest, stagedBytes := x.stagedBytes - recSize r.flen, spilling := decide (rest ≠ [])
          ovfRaised := x.ovfRaised && decide (rest ≠ []) }) s
        if tagOk then moveRec q r none s
        else
          let (g, s) := draw 64 s
          moveRec q { r with verdict := spoil r.verdict, frame := garble g r.frame } none (raise 66 [q] s))

/-! ## Egress -/

/-- TX_DESCRIPTOR_FETCH: not while an earlier descriptor of the queue waits for its ticket or its cells. -/
def execTxDescriptorFetch (q : Fin 64) (s : State) : Res :=
  let s := inTurn turnTicket 0 (4 + q) s
  done (if (txqOf q s).waiting || s.fp.egr.any (fun x => x.q = q && x.cells = 0) then s else fetchDesc q s)

/-- TICKET_RETRY. -/
def execTicketRetry (q : Fin 64) (s : State) : Res :=
  let s := inTurn turnTicket 0 (4 + q) s
  done (if (txqOf q s).waiting then fetchDesc q s else s)

/-- TX_DATA_COMPLETE: the last byte is in transmit memory, and the signing begins unless the frame's lookup is still out
(R87, R532); the other operands are what faulty lanes do to its job. -/
def execTxDataComplete (dt ticket : Nat) (errA errB : BitVec 128) (guardA guardB : Bool) (s : State) : Res :=
  let s := pass dt s
  done (match egrOf ticket s with
    | none => s
    | some x =>
      let need := (x.d.len + 63) / 64
      if x.lastByte.isSome || (x.cells = 0 && freeTransmit s < need) then s
      else
        let s := cdcPass cdcFromPcie ((x.d.len + 15) / 16) s
        signWhenReady ticket (onEgr ticket (fun y => { y with
          cells := need, lastByte := some s.clk.now, fault := ⟨errA, errB, guardA, guardB⟩ }) s))

/-- EGRESS_RELEASE; of the frames released to a port in one clock the lower queue's goes first (R90). -/
def execEgressRelease (dt ticket : Nat) (s : State) : Res :=
  let s := pass dt s
  done (match egrOf ticket s with
    | none => s
    | some x =>
      match x.lastByte with
      | none => s
      | some l => if x.stage = .signed && l + egrFirst ≤ s.clk.now && egrOnTime x then releaseEgr x false s.clk.now s else s)

/-- LATE_RELEASE: work that completed after the release instant. -/
def execLateRelease (dt ticket : Nat) (s : State) : Res :=
  let s := pass dt s
  done (match egrOf ticket s with
    | none => s
    | some x => if x.stage = .signed && !egrOnTime x then releaseEgr x true s.clk.now s else s)

/-- TRANSMIT_COMPLETE: the last bit leaves the port; `stamp` is the capture of its first bit (R183), in 2^-16 ns. Frames
of one port leave in order of release (R90). -/
def execTransmitComplete (dt ticket : Nat) (port : Fin 4) (stamp : Nat) (s : State) : Res :=
  let s := pass dt s
  done (match egrOf ticket s, (portOf port s).line with
    | some x, i :: rest =>
      if i.item ≠ .mine ticket then s
      else
        let ts := ((stamp : Int) + txLat port (portOf port s).mode s).toNat
        let f := match x.out with
          | some f => forPort port (if x.d.oneStep then oneStepPtp ts f else f)
          | none => x.d.frame
        let s := onPort port (fun p => { p with line := rest, freeAt := s.clk.now }) s
        let s := emit (.wire port false f) (cdcPass (cdcToLine + port) ((f.len + 7) / 8) s)
        drainPort port (giveUp { x with sent := x.sent ++ [(port.val, ts)] } port s)
    | _, _ => s)

/-! ## Entry reads (R103, R104, R112 to R118) -/

/-- ENTRY_READ_COMPLETE, with the bits of the entry and of its block tags that no longer hold what was written: the line
is installed, checked, and every lookup that waits goes on: the ports' in order, then
egress (R142). -/
def execEntryReadComplete (dt idx : Nat) (flips : BitVec 1024) (tagFlips : BitVec 128) (s : State) : Res :=
  let s := pass dt s
  done (
    if !s.se.reads.contains idx then s
    else
      let s := cisternServe reqMiss 4 s
      let s := onSe (fun e => { e with reads := e.reads.filter (· ≠ idx) }) s
      let ok := readsBack idx flips tagFlips s
      let s := if (cacheLine idx s).isSome then s else installLine idx (entryOfTable idx s) s
      let s := if ok then s else integrityFail idx s
      let onIdx (st : IngStage) (cands : List Nat) : Option Nat :=
        match st with
        | .reading r => if cands[r]? = some idx then some r else none
        | .waitRead r => some r
        | _ => none
      let ing := ([0, 1, 2, 3] : List Nat).flatMap (fun p => s.fp.ing.filter (fun x => x.port.val == p))
      let s := ing.foldl (fun s x => match onIdx x.stage x.cands with
        | some r => lookupIng x.ticket r s
        | none => s) s
      s.fp.egr.foldl (fun s x => match x.stage with
        | .reading r => if x.cands[r]? = some idx then lookupEgr x.ticket r s else s
        | .waitRead r => lookupEgr x.ticket r s
        | _ => s) s)

/-! ## Counter blocks (R125, R126) -/

/-- COUNTER_BLOCK_REQUEST: the vault core takes a request from the KEY channel, writes the line, then sends the grant.
It needs the riser and a running vault core. -/
def execCounterBlockRequest (s : State) : Res :=
  done (match s.se.blockReqs with
    | [] => s
    | i :: r =>
      if !riserUp s || vaultDown s then s
      else
        let s := mramTurn 1 mramCore (onSe (fun e => { e with blockReqs := r }) s)
        let (v, s) := reserve i s
        onSe (fun e => { e with grants := e.grants ++ [(i, v)] }) s)

/-- BLOCK_GRANT: RESEND of the line's entry is raised and REQ cleared; a draw of the same clock goes before it (R127). -/
def execBlockGrant (s : State) : Res :=
  done (match s.se.grants with
    | [] => s
    | (i, v) :: r =>
      if !riserUp s then s
      else
        let s := onSe (fun e => { e with grants := r }) s
        match (ctrLine i s).entry with
        | some n => dataEntry n (fun e => { e with resend := v, req := false }) (inTurn turnCounter n 64 s)
        | none => s)

/-! ## Doorbells (R237, R240, R523) -/

/-- A receive descriptor as read: ADDR and SIZE (R237). -/
def rxDesc (b : Bytes) : Nat × Nat := (leNat (slice b 0 8), leNat (slice b 8 4))

/-- A transmit descriptor as read, with the frame at its address (R240). -/
def txDesc (b : Bytes) (f : Frame) : TxDesc :=
  let bits := leNat (slice b 10 1)
  { addr := leNat (slice b 0 8), len := leNat (slice b 8 2), port := Fin.ofNat 4 bits, pair := bitN bits 2, bypass := bitN bits 3
    oneStep := bitN bits 4, stream := leNat (slice b 12 3), frame := f }

/-- The new tail, and how many descriptors it adds (R523). -/
def newTail (tail dtail size : Nat) : Nat × Nat :=
  let t := tail % 65536 % size
  (t, (t + size - dtail % size) % size)

/-- DTAIL: the host posts descriptors up to a new tail, taken modulo the ring size. On a disabled queue, which has no ring
to take it modulo, the write is ignored (DESIGN CHOICE, log 118). -/
def execDtail (q : QueueId) (tail : Nat) (descs : List Desc) (s : State) : Res :=
  done (if pcieDown s then s else match q with
    | .rx n =>
      if (rxqOf n s).size = 0 then s
      else askDraws (onRxq n (fun x =>
        let t := newTail tail x.dtail x.size
        { x with
          dtail := t.1
          bufs := x.bufs ++ (descs.take t.2).filterMap (fun d => match d with | .rx b => some (rxDesc b) | .tx _ _ => none) })
        (cdcPass cdcFromPcie (newTail tail (rxqOf n s).dtail (rxqOf n s).size).2 s))
    | .tx n =>
      if (txqOf n s).size = 0 then s
      else onTxq n (fun x =>
        let t := newTail tail x.dtail x.size
        { x with
          dtail := t.1
          descs := x.descs ++ (descs.take t.2).filterMap (fun d => match d with | .tx b f => some (txDesc b f) | .rx _ => none) }) s)

/-- CHEAD: completion entries return to the device; ignored on a disabled queue (DESIGN CHOICE, log 118). -/
def execChead (q : QueueId) (v : Nat) (s : State) : Res :=
  done (if pcieDown s then s else match q with
    | .rx n =>
      if (rxqOf n s).csize = 0 then s else askDraws (onRxq n (fun x => { x with chead := v % 65536 % x.csize }) s)
    | .tx n =>
      if (txqOf n s).csize = 0 then s
      else
        let s := onTxq n (fun x => { x with chead := v % 65536 % x.csize }) s
        flushTx n (txqOf n s).order.length s)

end Sys2Proof.Machine
end

