-- ==== Sys2Proof/Machine/Bus.lean ====
section
/-! DEFINITION. The core-side address maps, the valve tables' check, and the bytes of every memory a core can address
(R380, R385, R401, R407, R408, R443, R456 to R465, R525, R526). -/
namespace Sys2Proof.Machine

/-! ## Address maps (R525, R526) -/

/-- The register blocks of the core-side maps. -/
inductive Blk | local_ | intc | valve | time | event | sump | cipher | modular | noise | flashCtl | vendor
  deriving DecidableEq, Repr

/-- What stands at an address, with the offset inside it. -/
inductive Place
  | unpopulated
  | rom (off : Nat)
  | ctrlRam (off : Nat)
  | vaultRam (off : Nat)
  | mailbox (off : Nat)
  | bitWindow (off : Nat)
  | flash (off : Nat)
  | mram (off : Nat)
  | otp (off : Nat)
  | bbram (off : Nat)
  | cistern (off : Nat)
  | reg (b : Blk) (off : Nat)
  deriving DecidableEq, Repr

/-- Register blocks from 0x4000_0000, 4 KiB each; the flash controller is the first of the vault's vendor blocks, in
the order R526 lists them. -/
def blockAt (k : CoreId) (n : Nat) : Option Blk :=
  match k, n with
  | _, 0 => some .local_
  | _, 1 => some .intc
  | _, 2 => some .valve
  | .control, 3 => some .time
  | .control, 4 => some .event
  | .control, 5 => some .sump
  | .vault, 3 => some .event
  | .vault, 4 => some .sump
  | .vault, 5 => some .cipher
  | .vault, 6 => some .modular
  | .vault, 7 => some .noise
  | .vault, 8 => some .flashCtl
  | .control, n => if n ≤ 10 then some .vendor else none
  | .vault, n => if n ≤ 12 then some .vendor else none

/-- The map of R525 and R526. -/
def placeOf (k : CoreId) (a : Nat) : Place :=
  let within (base size : Nat) : Bool := base ≤ a && a < base + size
  let blocks : Place :=
    if within 0x40000000 0x10000 then
      match blockAt k ((a - 0x40000000) / 4096) with
      | some b => .reg b (a % 4096)
      | none => .unpopulated
    else .unpopulated
  match k with
  | .control =>
    if a < 0x20000 then .rom a
    else if within 0x10000000 0x200000 then .ctrlRam (a - 0x10000000)
    else if within 0x11000000 0x10000 then .bitWindow (a - 0x11000000)
    else if within 0xA0000000 0x40000000 then .cistern (a - 0xA0000000)
    else blocks
  | .vault =>
    if a < 0x40000 then .rom a
    else if within 0x100000 0x80000 then .vaultRam (a - 0x100000)
    else if within 0x180000 0x10000 then .mailbox (a - 0x180000)
    else if within 0x190000 0x10000 then .bitWindow (a - 0x190000)
    else if within 0x1000000 0x1000000 then .flash (a - 0x1000000)
    else if within 0x2000000 0x400000 then .mram (a - 0x2000000)
    else if within 0x3000000 0x400 then .otp (a - 0x3000000)
    else if within 0x3001000 0x200 then .bbram (a - 0x3001000)
    else blocks

/-- Reads of the vector window while VSEL is 1 come from the first 512 bytes of the active image's code (R443). -/
def readPlace (k : CoreId) (a : Nat) (s : State) : Place :=
  if 0x200 ≤ a && a < 0x400 && (cpu k s).vsel then
    match k with
    | .control => .ctrlRam (a - 0x200)
    | .vault => .flash (areaCode (imgArea .vault (s.fw.chosenV.getD s.nv.recV.active)) + (a - 0x200))
  else placeOf k a

/-! ## Bytes of the memories -/

/-- OTP (R407); reserved bytes are unprogrammed. -/
def otpByte (a : Nat) (s : State) : Byte :=
  if a < 192 then (natBE 48 (Config.rootHash (a / 48)).toNat).getD (a % 48) 0
  else if a < 194 then
    BitVec.ofNat 8 (smGet 0 s.nv.revoked (2 * (a - 192)) % 16 + 16 * (smGet 0 s.nv.revoked (2 * (a - 192) + 1) % 16))
  else if 200 ≤ a && a < 208 then (natLE 8 Config.serial).getD (a - 200) 0
  else if 208 ≤ a && a < 240 then (bytes256 Config.derivationSecret).getD (a - 208) 0
  else if 240 ≤ a && a < 256 then Config.otpManufacture (a - 240)
  else 0

def kekCheck (k : BitVec 256) : Bytes := aesEnc (bytes256 k) (List.replicate 16 0)

/-- BBRAM (R408). -/
def bbramBytes (b : Bbram) : Bytes :=
  (match b.kek with
    | some k => bytes256 k ++ kekCheck k
    | none => fit 48 b.odd) ++
  natLE 4 b.sticky.toNat ++ natLE 4 b.pending ++ ((List.range 24).map (fun n => natLE 8 (smGet 0 b.times n))).flatten ++
  List.replicate 264 0

def patch (old : Bytes) (off : Nat) (b : Bytes) : Bytes := old.take off ++ b ++ old.drop (off + b.length)

def bbramOf (x : Bytes) (b : Bbram) : Bbram :=
  let k := of256 (x.take 32)
  let good := slice x 32 16 == kekCheck k
  { b with
    kek := if good then some k else none
    odd := if good then [] else x.take 48
    sticky := BitVec.ofNat 32 (leNat (slice x 48 4))
    pending := leNat (slice x 52 1)
    times := (List.range 24).foldl (fun t n => smSet 0 t n (leNat (slice x (56 + 8 * n) 8))) [] }

/-- A transmit counter line (R123). -/
def lineBytes (l : CtrLine) : Bytes :=
  natLE 8 l.khash.toNat ++ natLE 8 l.resend ++ natLE 4 l.salt ++ natLE 2 l.pair ++ natLE 1 l.state ++ List.replicate 9 0

def lineOf (x : Bytes) (l : CtrLine) : CtrLine :=
  { l with
    khash := BitVec.ofNat 64 (leNat (slice x 0 8))
    resend := leNat (slice x 8 8)
    salt := leNat (slice x 16 4)
    pair := leNat (slice x 20 2) % 16384
    state := leNat (slice x 22 1) }

/-- A sump log entry (R517), zero words at the end of DETAIL dropped. -/
def recOfBytes (x : Bytes) : LogRec :=
  let words := (List.range 8).map (fun i => leNat (slice x (32 + 4 * i) 4))
  if leNat (slice x 0 8) = 0 then {}
  else
    { seq := leNat (slice x 0 8), rtc := leNat (slice x 8 8), ptp := bytesTime (slice x 16 12), source := leNat (slice x 28 2)
      die := leNat (slice x 30 1), flags := leNat (slice x 31 1)
      detail := (words.reverse.dropWhile (· == 0)).reverse }

/-- MRAM by its regions (R401): the tag area, the counter lines and the sump log in their layouts; every region whose
layout the spec does not give holds what a core writes there, and a free value of the part before. -/
def mramByte (a : Nat) (s : State) : Byte :=
  if a < 0x8000 then tagByte a s
  else if 0x100000 ≤ a && a < 0x200000 then
    (lineBytes (smGet {} s.nv.lines ((a - 0x100000) / 32))).getD (a % 32) 0
  else if 0x200000 ≤ a && a < 0x240000 then
    (logBytes (smGet {} s.nv.log ((a - 0x200000) / 64))).getD (a % 64) 0
  else (smFind s.nv.mram a).getD (Config.mramByte a)

/-- Writing what an unlisted byte reads as removes the entry. -/
def mramPutByte (a : Nat) (b : Byte) (m : SMap Byte) : SMap Byte :=
  if b = Config.mramByte a then smDel m a else smPut m a b

/-- A store of up to one word: read, modified and written as its word (R399). -/
def mramPut (a : Nat) (b : Bytes) (s : State) : State :=
  let s := onNv (fun n => { n with torn := n.torn.filter (· ≠ a / 8) }) s
  if a < 0x8000 then tagPut (a / 8 * 8) (patch (tagBytes (a / 8 * 8) 8 s) (a % 8) b) s
  else if 0x100000 ≤ a && a < 0x200000 then
    let i := (a - 0x100000) / 32
    let l := smGet {} s.nv.lines i
    onNv (fun n => { n with lines := smSet {} n.lines i (lineOf (patch (lineBytes l) (a % 32) b) l) }) s
  else if 0x200000 ≤ a && a < 0x240000 then
    let i := (a - 0x200000) / 64
    onNv (fun n => { n with log := smSet {} n.log i (recOfBytes (patch (logBytes (smGet {} n.log i)) (a % 64) b)) }) s
  else onNv (fun n => { n with mram := b.zipIdx.foldl (fun m (x, i) => mramPutByte (a + i) x m) n.mram }) s

/-- The 112 reserved bytes of each mailbox control block read 0 (R380). -/
def mailboxHole (a : Nat) : Bool := 16 ≤ a % 0x8000 && a % 0x8000 < 128

/-- The log region, then the firmware working areas (R25). -/
def cisternByte (a : Nat) (s : State) : Byte :=
  if a < 0x10000000 then logByte a s else smGet 0 s.me.workArea (a - 0x10000000)

def cisternPutByte (a : Nat) (b : Byte) (s : State) : State :=
  if a < 0x10000000 then
    onFw (fun f => if a < f.stmt.length then { f with stmt := f.stmt.set a b } else { f with logMem := smSet 0 f.logMem a b }) s
  else onMe (fun m => { m with workArea := smSet 0 m.workArea (a - 0x10000000) b }) s

/-- One byte at a place. Registers and the bit window hold no bytes. -/
def placeByte (k : CoreId) (p : Place) (i : Nat) (s : State) : Byte :=
  match p with
  | .rom off => Config.romByte (k == .vault) (off + i)
  | .ctrlRam off => smGet 0 s.me.ctrlRam (off + i)
  | .vaultRam off => smGet 0 s.me.vaultRam (off + i)
  | .mailbox off => if mailboxHole (off + i) then 0 else smGet 0 s.me.mailbox (off + i)
  | .flash off => flashByte (off + i) s
  | .mram off => mramByte (off + i) s
  | .otp off => otpByte (off + i) s
  | .bbram off => (bbramBytes s.nv.bbram).getD (off + i) 0
  | .cistern off => cisternByte (off + i) s
  | .unpopulated => 0
  | .bitWindow _ => 0
  | .reg _ _ => 0

def placeValue (k : CoreId) (p : Place) (n : Nat) (s : State) : Nat :=
  leNat ((List.range n).map (fun i => placeByte k p i s))

/-- The ECC word of a place (R373, R374). -/
def wordOf (k : CoreId) (p : Place) : Option (MemId × Nat) :=
  match p with
  | .rom off => some ((match k with | .control => .controlRom | .vault => .vaultRom), off / 8)
  | .ctrlRam off => some (.controlRam, off / 8)
  | .vaultRam off => some (if off < 0x40000 then .vaultX else .vaultY, off % 0x40000 / 8)
  | .mailbox off => some (.mailbox, off / 8)
  | _ => none

/-- A write to a place that takes writes; the word is good again (R374). -/
def placePut (k : CoreId) (p : Place) (b : Bytes) (s : State) : State :=
  let s := match wordOf k p with
    | some (m, w) => clearFaulty m w s
    | none => s
  match p with
  | .ctrlRam off => onMe (fun m => { m with ctrlRam := putBytes m.ctrlRam off b }) s
  | .vaultRam off => onMe (fun m => { m with vaultRam := putBytes m.vaultRam off b }) s
  | .mailbox off => if mailboxHole off then s else mailboxWrite false off b s
  | .mram off => mramPut off b s
  | .bbram off => onNv (fun n => { n with bbram := bbramOf (patch (bbramBytes n.bbram) off b) n.bbram }) s
  | .cistern off => b.zipIdx.foldl (fun s (x, i) => cisternPutByte (off + i) x s) s
  | _ => s

/-- The memories are in canonical form: addresses rising, no byte listed that reads what an unlisted one reads. -/
def Memory.wf (m : Me) : Bool := smWf 0 m.ctrlRam && smWf 0 m.vaultRam && smWf 0 m.mailbox && smWf 0 m.workArea

/-- Places that take writes. -/
def writable (p : Place) : Bool :=
  match p with
  | .ctrlRam _ => true
  | .vaultRam _ => true
  | .mailbox _ => true
  | .mram _ => true
  | .bbram _ => true
  | .cistern _ => true
  | _ => false

end Sys2Proof.Machine
end

