-- ==== Sys2Proof/Machine/RegBlocks.lean ====
section
/-! DEFINITION. The register blocks the cores address: reads, and writes under the access codes of R12 (R12 to R14, R187,
R440, R446, R450, R458, R464, R528, R529). -/
namespace Sys2Proof.Machine

/-! ## Interrupt controller (R446, R528) -/

def intcPending (k : CoreId) (s : State) : BitVec 256 :=
  match k with
  | .control => s.ev.intcPendC
  | .vault => s.ev.intcPendV

def intcLevel (k : CoreId) (n : Nat) (s : State) : Nat :=
  match k with
  | .control => smGet 0 s.ev.intcLvlC n
  | .vault => smGet 0 s.ev.intcLvlV n

def setIntcLevel (k : CoreId) (n v : Nat) (s : State) : State :=
  onEv (fun e => match k with
    | .control => { e with intcLvlC := smSet 0 e.intcLvlC n v }
    | .vault => { e with intcLvlV := smSet 0 e.intcLvlV n v }) s

/-- 1 bits of a bank clear the pending bits of one core's view (R510). -/
def clearIntc (k : CoreId) (bits : BitVec 256) (s : State) : State :=
  onEv (fun e => match k with
    | .control => { e with intcPendC := e.intcPendC &&& ~~~ bits }
    | .vault => { e with intcPendV := e.intcPendV &&& ~~~ bits }) s

/-- A register's word placed at its bank of a 256-bit view. -/
def bankBits (bank : Nat) (v : Word) : BitVec 256 := (v.setWidth 256) <<< (32 * bank)
def bankWord (x : BitVec 256) (bank : Nat) : Nat := (x >>> (32 * bank)).toNat % 2 ^ 32

/-- The interrupt of the highest level above a mask, and of the lowest source number of that level (R446): level and
source. -/
def topInterrupt (k : CoreId) (mask : Nat) (s : State) : Option (Nat × Nat) :=
  ([7, 6, 5, 4, 3, 2, 1].filter (mask < ·)).findSome? (fun l =>
    ((List.range 256).find? (fun n => bit256 (intcPending k s) n && intcLevel k n s == l)).map (fun n => (l, n)))

def readIntc (k : CoreId) (off : Nat) (s : State) : Nat :=
  if off < 0x80 then ((List.range 8).map (fun i => intcLevel k (off / 4 * 8 + i) s * 16 ^ i)).sum
  else if 0x100 ≤ off && off < 0x120 then bankWord (intcPending k s) ((off - 0x100) / 4)
  else if off = 0x120 then
    match topInterrupt k 0 s with
    | some (l, n) => n + 256 * l + 2 ^ 31
    | none => 0
  else 0

def writeIntc (k : CoreId) (off : Nat) (v : Word) (s : State) : State :=
  if off < 0x80 then
    (List.range 8).foldl (fun s i => setIntcLevel k (off / 4 * 8 + i) (v.toNat / 16 ^ i % 8) s) s
  else if 0x100 ≤ off && off < 0x120 then clearIntc k (bankBits ((off - 0x100) / 4) v) s
  else s

/-! ## Event and SUMP blocks (R515, R528) -/

/-- A firmware event of a core's own range (R528). -/
def raiseByCore (k : CoreId) (v : Word) (s : State) : State :=
  let n := v.toNat % 256
  let own := match k with
    | .control => 192 ≤ n && n ≤ 223
    | .vault => 224 ≤ n
  if own then raise n [] s else s

/-- The SUMP registers of a core's own die. -/
def sumpOf (k : CoreId) (s : State) : BitVec 256 :=
  match k with
  | .control => s.ev.sumpP
  | .vault => s.ev.sumpW

def clearSump (k : CoreId) (bits : BitVec 256) (s : State) : State :=
  match k with
  | .control => onEv (fun e => { e with sumpP := e.sumpP &&& ~~~ bits }) s
  | .vault => tagMirror (onEv (fun e => { e with sumpW := e.sumpW &&& ~~~ bits }) s)

/-! ## Valve-table block (R458, R464) -/

def valveAt (k : CoreId) (i : Nat) (s : State) : Valve := smGet {} (valves k s) i

def valveWord (e : Valve) (w : Nat) : Nat :=
  match w with
  | 0 => b2n e.valid + 256 * e.base.toNat
  | 1 => 256 * e.limit.toNat
  | 2 =>
    e.mset.toNat + 2 ^ 16 * e.tid.toNat + 2 ^ 20 * b2n e.kr + 2 ^ 21 * b2n e.kw + 2 ^ 22 * b2n e.kx + 2 ^ 23 * b2n e.tr +
      2 ^ 24 * b2n e.tw + 2 ^ 25 * b2n e.tx + 2 ^ 26 * b2n e.sealed + 2 ^ 27 * e.cache.toNat + 2 ^ 29 * e.order.toNat +
      2 ^ 31 * b2n e.lock
  | _ => 0

/-- Word 2 taken into an entry; ORDER 3 is refused and reads back 0. -/
def valveRights (v : Word) (e : Valve) : Valve :=
  { e with
    mset := v.extractLsb' 0 16, tid := v.extractLsb' 16 4, kr := v.getLsbD 20, kw := v.getLsbD 21, kx := v.getLsbD 22
    tr := v.getLsbD 23, tw := v.getLsbD 24, tx := v.getLsbD 25, sealed := v.getLsbD 26, cache := v.extractLsb' 27 2
    order := if v.extractLsb' 29 2 = 3 then 0 else v.extractLsb' 29 2, lock := v.getLsbD 31 }

/-- The commit: words 0, 1 and 2 in one clock. -/
def valveCommit (v : Word) (e : Valve) : Valve :=
  if e.lock then e
  else
    let e := match e.stage1 with
      | some w => { e with limit := w.extractLsb' 8 24, stage1 := none }
      | none => e
    let e := match e.stage2 with
      | some w => valveRights w { e with stage2 := none }
      | none => e
    { e with valid := v.getLsbD 0, base := v.extractLsb' 8 24 }

def valveStage (w : Nat) (v : Word) (e : Valve) : Valve :=
  if e.lock then e
  else if w = 1 then { e with stage1 := some v }
  else if w = 2 then { e with stage2 := some v }
  else e

def onValve (k : CoreId) (i : Nat) (f : Valve → Valve) (s : State) : State := onValves k (fun t => smMod {} t i f) s

def writeValve (k : CoreId) (off : Nat) (v : Word) (s : State) : State :=
  if off % 16 = 0 then onValve k (off / 16) (valveCommit v) s else onValve k (off / 16) (valveStage (off % 16 / 4) v) s

/-! ## Core local block (R450) -/

def readLocal (k : CoreId) (off : Nat) (s : State) : Nat :=
  let c := cpu k s
  match off with
  | 0x0 => c.excAddr.toNat
  | 0x4 => c.escPc.toNat
  | 0x8 => c.escCause.toNat
  | 0xC => b2n c.vsel + 4 * b2n c.lock + 256 * c.restarts
  | _ => 0

/-- CORE_CTL without ESCREQ: VSEL while LOCK is 0; LOCK is never cleared by writing. -/
def writeLocal (k : CoreId) (off : Nat) (v : Word) (s : State) : State :=
  if off = 0xC then
    onCpu k (fun c => { c with vsel := if c.lock then c.vsel else v.getLsbD 0, lock := c.lock || v.getLsbD 2 }) s
  else s

/-! ## The Wellhead engines and the noise well (R250, R265, R273, R529) -/

def bankCode (b : NBank) : Nat :=
  match b.st with
  | .testing => 0
  | .inService => 1
  | .failed => 2

def readEngine (b : Blk) (off : Nat) (s : State) : Nat :=
  match b, off with
  | .cipher, 0x0 => s.eng.vcQBase
  | .cipher, 0x4 => s.eng.vcCBase
  | .cipher, 0x8 => s.eng.vcTail
  | .cipher, 0xC => s.eng.vcHead
  | .modular, 0x0 => s.eng.meQBase
  | .modular, 0x4 => s.eng.meTail
  | .modular, 0x8 => s.eng.meHead
  | .noise, 0x4 => bankCode s.nw.bank0 + 4 * bankCode s.nw.bank1
  | _, _ => 0

/-- Bases are aligned and are not written while their engine holds a descriptor. -/
def writeEngine (b : Blk) (off : Nat) (v : Word) (s : State) : State :=
  let vcIdle := s.eng.vcHead = s.eng.vcTail
  let meIdle := s.eng.meHead = s.eng.meTail
  match b, off with
  | .cipher, 0x0 => if vcIdle then onEng (fun e => { e with vcQBase := v.toNat / 8192 * 8192 }) s else s
  | .cipher, 0x4 => if vcIdle then onEng (fun e => { e with vcCBase := v.toNat / 4096 * 4096 }) s else s
  | .cipher, 0x8 => writeVcTail v.toNat s
  | .modular, 0x0 => if meIdle then onEng (fun e => { e with meQBase := v.toNat / 128 * 128 }) s else s
  | .modular, 0x4 => writeMeTail v.toNat s
  | .modular, 0xC => writeMeCtl v.toNat s
  | _, _ => s

/-! ## One register -/

/-- A read of a register by its block and offset; WO registers and reserved addresses read 0 (R12, R14). NW_RAND has its
own operation. -/
def readReg (k : CoreId) (b : Blk) (off : Nat) (s : State) : Nat :=
  match b with
  | .local_ => readLocal k off s
  | .intc => readIntc k off s
  | .valve => valveWord (valveAt k (off / 16) s) (off % 16 / 4)
  | .time => (readTu off s).toNat
  | .event => 0
  | .sump => if off < 0x20 then bankWord (sumpOf k s) (off / 4) else 0
  | .cipher => readEngine .cipher off s
  | .modular => readEngine .modular off s
  | .noise => readEngine .noise off s
  | .flashCtl => 0
  | .vendor => 0

/-- A write of a register, all but ESCREQ. -/
def writeReg (k : CoreId) (b : Blk) (off : Nat) (v : Word) (s : State) : State :=
  match b with
  | .local_ => writeLocal k off v s
  | .intc => writeIntc k off v s
  | .valve => writeValve k off v s
  | .time => writeTu off v s
  | .event => if off = 0 then raiseByCore k v s else s
  | .sump => if 0x20 ≤ off && off < 0x40 then clearSump k (bankBits ((off - 0x20) / 4) v) s else s
  | .cipher => writeEngine .cipher off v s
  | .modular => writeEngine .modular off v s
  | .noise => s
  | .flashCtl => s
  | .vendor => s

end Sys2Proof.Machine
end

