-- ==== Sys2Proof/Machine/Operands.lean ====
section
/-! DEFINITION. Operands of the Eblith instructions: general registers, immediates, the words of system instructions, and
the special registers (R409 to R411, R416, R440, R441). The cores have no condition flags (R420). -/
namespace Sys2Proof.Machine

/-- g0 reads as 0 (R409). -/
def Cpu.get (c : Cpu) (r : Reg) : Word := if r = 0 then 0 else c.regs[r]

/-- Writes to g0 are discarded (R409). -/
def Cpu.set (c : Cpu) (r : Reg) (v : Word) : Cpu := if r = 0 then c else { c with regs := c.regs.set r v }

/-- One register of a core. -/
def gpr (k : CoreId) (r : Reg) (s : State) : Word := (cpu k s).get r
def setGpr (k : CoreId) (r : Reg) (v : Word) (s : State) : State := onCpu k (fun c => c.set r v) s

/-- imm18 and off18, signed; off26, signed (R416). -/
def sext18 (i : BitVec 18) : Word := i.signExtend 32
def sext26 (i : BitVec 26) : Word := i.signExtend 32
def zext18 (i : BitVec 18) : Word := i.setWidth 32

/-- The target of a branch or jump at p: offsets count words from the instruction itself (R416, R420). -/
def target (p : Word) (off : Word) : Word := p + 4 * off

/-- An unsigned comparison of addresses: LS to LE (R426). -/
def inLoop (c : Cpu) (t : Word) : Bool := c.ls.toNat ≤ t.toNat && t.toNat ≤ c.le.toNat

/-- The word of a system instruction in format S (R416, R434). -/
def sysWord (rd rs : Reg) (n : BitVec 8) (func : Nat) : Word :=
  BitVec.ofNat 32 (0x20 * 2 ^ 26 + rd.val * 2 ^ 22 + rs.val * 2 ^ 18 + n.toNat * 2 ^ 10 + func)

/-! ## Special registers (R410, R411, R440) -/

/-- Numbers of the table of R410. -/
def specialListed (n : BitVec 8) : Bool :=
  n.toNat ∈ [0x00, 0x01, 0x02, 0x03, 0x08, 0x09, 0x0A, 0x0B, 0x0C, 0x0D, 0x0E, 0x0F, 0x10, 0x11, 0x12, 0x14, 0x15, 0x16,
    0x18, 0x19, 0x1F]

/-- Registers a tenant may not read (column Tenant access: None). -/
def specialHidden (n : BitVec 8) : Bool := 0x01 ≤ n.toNat && n.toNat ≤ 0x0F

/-- Registers a tenant may write. -/
def specialTenantWrites (n : BitVec 8) : Bool := n.toNat ∈ [0x10, 0x11, 0x12, 0x14, 0x15, 0x16]

/-- STATUS, with the class of the page the reading instruction stands in (R440). -/
def statusWord (c : Cpu) (sealed : Bool) : Word :=
  BitVec.ofNat 32 (c.mask.toNat + 8 * b2n c.priv + 16 * b2n sealed + 32 * b2n c.sc + 64 * b2n c.esc + 128 * b2n c.psc +
    256 * c.pmask.toNat + 2048 * b2n c.ppriv + 65536 * c.tid.toNat)

/-- A keeper write of STATUS (R441). -/
def setStatus (v : Word) (c : Cpu) : Cpu :=
  { c with mask := v.extractLsb' 0 3, psc := v.getLsbD 7, pmask := v.extractLsb' 8 3, ppriv := v.getLsbD 11
           tid := v.extractLsb' 16 4 }

/-- Clocks of a core since its reset (R410, R437). -/
def cycles (k : CoreId) (s : State) : Nat :=
  let t := s.clk.now - (cpu k s).cycleBase
  match k with
  | .control => 2 * t
  | .vault => 4 * t / 5

/-- ISAID (R411). -/
def isaId (k : CoreId) : Word :=
  match k with
  | .control => 0x02
  | .vault => 0x12

/-- The value an MFS reads. -/
def readSpecial (k : CoreId) (n : BitVec 8) (sealed : Bool) (s : State) : Word :=
  let c := cpu k s
  match n.toNat with
  | 0x00 => statusWord c sealed
  | 0x01 => c.epc
  | 0x02 => c.ecause
  | 0x03 => c.einsn
  | 0x08 => c.sentry[0]
  | 0x09 => c.sentry[1]
  | 0x0A => c.sentry[2]
  | 0x0B => c.sentry[3]
  | 0x0C => c.sentry[4]
  | 0x0D => c.sentry[5]
  | 0x0E => c.sentry[6]
  | 0x0F => c.sentry[7]
  | 0x10 => c.lc
  | 0x11 => c.ls
  | 0x12 => c.le
  | 0x14 => c.px
  | 0x15 => c.py
  | 0x16 => c.stride
  | 0x18 => BitVec.ofNat 32 (cycles k s)
  | 0x19 => c.cycleHi
  | 0x1F => isaId k
  | _ => 0

/-- What else the read does: CYCLE_LO latches CYCLE_HI. -/
def latchCycle (k : CoreId) (n : BitVec 8) (s : State) : State :=
  if n.toNat = 0x18 then
    let hi := BitVec.ofNat 32 (cycles k s / 2 ^ 32)
    onCpu k (fun c => { c with cycleHi := hi }) s
  else s

/-- A permitted MTS; RO registers do not change (R12). SENTRY keeps [31:4] and EN (R452); STRIDE its low half (R411). -/
def writeSpecial (n : BitVec 8) (v : Word) (c : Cpu) : Cpu :=
  let entry := v &&& 0xFFFFFFF1
  match n.toNat with
  | 0x00 => setStatus v c
  | 0x01 => { c with epc := v }
  | 0x08 => { c with sentry := c.sentry.set 0 entry }
  | 0x09 => { c with sentry := c.sentry.set 1 entry }
  | 0x0A => { c with sentry := c.sentry.set 2 entry }
  | 0x0B => { c with sentry := c.sentry.set 3 entry }
  | 0x0C => { c with sentry := c.sentry.set 4 entry }
  | 0x0D => { c with sentry := c.sentry.set 5 entry }
  | 0x0E => { c with sentry := c.sentry.set 6 entry }
  | 0x0F => { c with sentry := c.sentry.set 7 entry }
  | 0x10 => { c with lc := v }
  | 0x11 => { c with ls := v }
  | 0x12 => { c with le := v }
  | 0x14 => { c with px := v }
  | 0x15 => { c with py := v }
  | 0x16 => { c with stride := v &&& 0xFFFF }
  | _ => c

end Sys2Proof.Machine
end

