-- ==== Sys2Proof/Machine/Except.lean ====
section
/-! DEFINITION. Exception entry and return, escalation, core stop and restart (R439 to R449, R452 to R455). -/
namespace Sys2Proof.Machine

/-! ## Entry and return (R442, R444, R445, R447) -/

/-- Fault levels by vector (R442). -/
def faultLevel (vec : Nat) : Nat := if vec = 2 || vec = 3 || vec = 8 then 7 else 6

/-- ECAUSE: vector and DETAIL (R449). -/
def causeWord (vec detail : Nat) : Word := BitVec.ofNat 32 (vec + 256 * detail)

def vectorAddr (vec : Nat) : Word := BitVec.ofNat 32 (0x200 + 16 * vec)

/-- Escalation (R447); a fault while ESC is 1 stops the core (R448). -/
def escalate (k : CoreId) (p cause : Word) (s : State) : State :=
  let again := (cpu k s).esc
  let s := onCpu k (fun c => { c with escPc := p, escCause := cause }) s
  if again then coreStop k s
  else onCpu k (fun c => { c with esc := true, priv := true, mask := 7, pc := vectorAddr 1 }) s

/-- The entry of a fault that does not escalate, EPC naming `ret`. Of a tenant's fault the keeper holds what it would
report (R451). -/
def enter (ret cause : Word) (vec : Nat) (c : Cpu) : Cpu :=
  { c with fault := if c.priv then c.fault else some ⟨c.tid, ret, cause, c.einsn, c.excAddr⟩
           epc := ret, psc := c.sc, pmask := c.mask, ppriv := c.priv
           sc := false, priv := true, mask := 7, ecause := cause, pc := vectorAddr vec }

/-- A fault of the instruction at p (R445); `ret` is what EPC names. -/
def takeFault (k : CoreId) (p ret : Word) (vec detail : Nat) (s : State) : State :=
  let c := cpu k s
  if c.esc || faultLevel vec ≤ c.mask.toNat then escalate k p (causeWord vec detail) s
  else onCpu k (enter ret (causeWord vec detail) vec) s

/-- An interrupt of a level from a source at the boundary before the instruction at the pc (R445, R446); it ends WFI. -/
def takeInterrupt (level source : Nat) (c : Cpu) : Cpu :=
  { c with epc := c.pc, psc := c.sc, pmask := c.mask, ppriv := c.priv
           sc := false, priv := true, mask := BitVec.ofNat 3 level
           ecause := BitVec.ofNat 32 (source * 2 ^ 16 + (16 + level)), pc := vectorAddr (16 + level), waiting := false }

/-- ERET at the keeper; with ESC at 1 it also clears ESC (R445). -/
def leave (c : Cpu) : Cpu := { c with esc := false, priv := c.ppriv, mask := c.pmask, sc := c.psc, pc := c.epc }

/-- Entry of SCALL n (R452). -/
def callEntry (p entry : Word) (c : Cpu) : Cpu :=
  { c with epc := p + 4, pmask := c.mask, ppriv := c.priv, sc := true, priv := true, mask := 7, pc := entry &&& 0xFFFFFFF0 }

/-- SRET with SC at 1 (R452). -/
def callReturn (c : Cpu) : Cpu := { c with priv := c.ppriv, mask := c.pmask, sc := false, pc := c.epc }

/-! ## A tenant's fault that the keeper does not resolve (R451; log 121) -/

/-- The keeper stops the applet, raises the applet-fault event and writes the record. -/
def reportFault (k : CoreId) (f : TenantFault) (s : State) : State :=
  let src := match k with
    | .control => 99
    | .vault => 144
  let s := stopApplet (appletKey k f.tid.toNat) s
  recordOf src [f.tid.toNat, f.epc.toNat, f.ecause.toNat, f.einsn.toNat, f.excAddr.toNat] (raise src [] s)

/-- The keeper has left a tenant's fault behind: it is resolved where the same tenant runs on, and reported otherwise. -/
def leaveFault (k : CoreId) (s : State) : State :=
  match (cpu k s).fault with
  | none => s
  | some f =>
    let back := !(cpu k s).priv && (cpu k s).tid = f.tid
    let s := onCpu k (fun c => { c with fault := none }) s
    if back then s else reportFault k f s

/-- ERET at the keeper. A return within the keeper leaves a tenant's fault open. -/
def keeperReturn (k : CoreId) (s : State) : State :=
  let s := onCpu k leave s
  if (cpu k s).priv then s else leaveFault k s

/-! ## Completion of an instruction (R425, R426) -/

/-- The instruction at the pc completes and would go on at `next`: the loop update, then the pc. -/
def Cpu.retire (c : Cpu) (next : Word) : Cpu :=
  if c.lc ≠ 0 && c.pc = c.le then
    { c with lc := c.lc - 1, pc := if c.lc - 1 = 0 then c.le + 4 else c.ls }
  else { c with pc := next }

def stepPc (k : CoreId) (s : State) : State := onCpu k (fun c => c.retire (c.pc + 4)) s

/-- A fault of the instruction at the pc. At LE of an active loop, a fault taken at the instruction comes after its loop
update and EPC names the instruction that would have followed (R426; log 67); discipline faults and emulation traps
name the instruction itself wherever it stands (R422, R435). -/
def trap (k : CoreId) (vec detail : Nat) (s : State) : State :=
  let c := cpu k s
  if (vec = 6 || vec = 7) || c.lc = 0 || c.pc ≠ c.le then takeFault k c.pc c.pc vec detail s
  else
    let s := stepPc k s
    takeFault k c.pc (cpu k s).pc vec detail s

/-- EXC_ADDR of a BUS_ERROR or ACCESS fault (R450). -/
def setExcAddr (k : CoreId) (a : Nat) (s : State) : State := onCpu k (fun c => { c with excAddr := BitVec.ofNat 32 a }) s

/-! ## Running one instruction -/

/-- The core executes instructions: powered and released, not stopped, not halted, and not waiting in WFI. -/
def coreRuns (k : CoreId) (s : State) : Bool :=
  running s && !(cpu k s).stopped && !(cpu k s).halted && !(cpu k s).waiting

/-- What a fetch answers: the class of the granting entry, a fault, or a wait for flash. -/
inductive Fetch
  | ok (sealed : Bool)
  | fault (vec detail : Nat) (s : State)
  | stall (s : State)

/-- The ECC of a fetched word, and flash that is being erased, flagged or torn (R374, R386, R387, R391). -/
def fetchMem (k : CoreId) (p : Place) (sealed : Bool) (s : State) : Fetch :=
  match p with
  | .flash off =>
    let sec := redirect (off / sectorBytes) s
    if (sectorOf sec s).flag then .fault 2 1 s
    else if meetsErase (off / sectorBytes) s then .stall (readTouches (off / sectorBytes) s)
    else if s.nv.flashTorn.contains (sec * 256 + off % sectorBytes / 32) then .fault 2 1 (raise 137 [] s)
    else .ok sealed
  | .reg _ _ => .fault 2 8 s
  | .bitWindow _ => .fault 2 8 s
  | .mram off => if s.nv.torn.contains (off / 8) then .fault 2 1 (uncorrectable .mram s) else .ok sealed
  | p =>
    match wordOf k p with
    | some (m, w) => if s.me.faulty.contains (m, w) then .fault 2 1 (uncorrectable m s) else .ok sealed
    | none => .ok sealed

/-- The fetch of the instruction at the pc (R412, R420, R442, R459, R462, R465). -/
def fetch (k : CoreId) (s : State) : Fetch :=
  let a := (cpu k s).pc.toNat
  if a % 4 ≠ 0 then .fault 4 0 s
  else if placeOf k a = .unpopulated then .fault 2 4 (setExcAddr k a s)
  else
    match coreCheck k a .exec s with
    | .deny noMatch => .fault 3 (4 + 8 * b2n noMatch) (setExcAddr k a s)
    | .grant sealed _ _ =>
      match fetchMem k (readPlace k a s) sealed s with
      | .fault v d s => .fault v d (setExcAddr k a s)
      | x => x

/-- One instruction of a core: nothing on a core that does not run; a fetch fault names the pc; a fetch that waits
changes nothing else; otherwise the instruction's own effect, given the class of its page (R421; log 71). -/
def instr (k : CoreId) (f : Bool → State → Res) (s : State) : Res :=
  if !coreRuns k s then done s
  else
    match fetch k s with
    | .fault v d s => done (takeFault k (cpu k s).pc (cpu k s).pc v d s)
    | .stall s => done s
    | .ok sealed => f sealed s

/-! ## Lockstep (R454, R455) -/

/-- Time within which a core restart ends (R455; log 54). -/
def restartTicks (k : CoreId) : Nat :=
  match k with
  | .control => msTicks 60
  | .vault => msTicks 80

/-- The core and its shadow are reset together; bit RAM and the count of restarts stay (R409, R443, R455). -/
def resetCore (k : CoreId) (s : State) : State :=
  let now := s.clk.now
  onCpu k (fun c => { ({} : Cpu) with
    ecause := 0x400, bits := c.bits, restarts := min 255 (c.restarts + 1), restartAt := c.restartAt
    restarting := some (now + restartTicks k), cycleBase := now }) s

/-- A mismatch restarts the core, or stops it within 1 s after a restart. -/
def mismatch (k : CoreId) (s : State) : State :=
  let c := cpu k s
  let soon := c.restartAt.any (fun t => s.clk.now ≤ t + secTicks 1)
  let s := fireOne (match k with | .control => srcLockC | .vault => srcLockV) s
  if c.restarting.isSome || soon then coreStop k (onCpu k (fun c => { c with restarting := none }) s)
  else stopAnswers k (resetCore k s)

/-- Restarts that have ended: the firmware runs again, and a trial counts on (R367, R455). -/
def restartEnds (k : CoreId) (s : State) : State :=
  match (cpu k s).restarting with
  | none => s
  | some t =>
    if t ≤ s.clk.now then
      let s := onCpu k (fun c => { c with restarting := none, restartAt := some t }) s
      let f := s.fw
      match chosenOf k s with
      | some b => onFw (fun x => { x with trialAtC := f.trialAtC, trialAtV := f.trialAtV }) (startCore k b 0x400 s)
      | none => s
    else s

def restartTick (s : State) : State := restartEnds .vault (restartEnds .control s)

end Sys2Proof.Machine
end

