-- ==== Sys2Proof/Machine/IsaAlu.lean ====
section
/-! DEFINITION. The register ALU, immediates, LUI, and conditions to registers (R417, R418, R424). No instruction here
traps or records overflow. -/
namespace Sys2Proof.Machine

/-! ## Results (R418, R424) -/

/-- Low five bits of a shift operand. -/
def shamt (v : Word) : Nat := v.toNat % 32

def mulHigh (a b : Word) : Word := BitVec.ofInt 32 (a.toInt * b.toInt / 2 ^ 32)
def mulHighU (a b : Word) : Word := BitVec.ofNat 32 (a.toNat * b.toNat / 2 ^ 32)

/-- Signed quotient, truncated toward zero; a division by zero gives all ones (R418). -/
def divS (a b : Word) : Word := if b = 0 then BitVec.allOnes 32 else BitVec.ofInt 32 (a.toInt.tdiv b.toInt)
def divU (a b : Word) : Word := if b = 0 then BitVec.allOnes 32 else BitVec.ofNat 32 (a.toNat / b.toNat)

/-- Signed remainder with the sign of the dividend; a division by zero gives the dividend (R418). -/
def remS (a b : Word) : Word := if b = 0 then a else BitVec.ofInt 32 (a.toInt.tmod b.toInt)
def remU (a b : Word) : Word := if b = 0 then a else BitVec.ofNat 32 (a.toNat % b.toNat)

def leadingZeros (a : Word) : Word := BitVec.ofNat 32 (((List.range 32).find? (fun i => a.getLsbD (31 - i))).getD 32)
def trailingZeros (a : Word) : Word := BitVec.ofNat 32 (((List.range 32).find? (fun i => a.getLsbD i)).getD 32)
def popCount (a : Word) : Word := BitVec.ofNat 32 ((List.range 32).filter (fun i => a.getLsbD i)).length

/-- The four bytes reversed. -/
def byteReverse (a : Word) : Word :=
  a.extractLsb' 0 8 ++ a.extractLsb' 8 8 ++ a.extractLsb' 16 8 ++ a.extractLsb' 24 8

def flag (b : Bool) : Word := if b then 1 else 0

/-- 0 - (rs & 1) (R424). -/
def maskOf (a : Word) : Word := 0 - (a &&& 1)

/-! ## Shapes -/

/-- rd takes a value formed from the core's registers, and the pc moves on. -/
def writesReg (k : CoreId) (rd : Reg) (v : Cpu → Word) (s : State) : Res :=
  instr k (fun _ s => done (onCpu k (fun c => (c.set rd (v c)).retire (c.pc + 4)) s)) s

def aluR (k : CoreId) (rd rs rt : Reg) (f : Word → Word → Word) (s : State) : Res :=
  writesReg k rd (fun c => f (c.get rs) (c.get rt)) s

def aluI (k : CoreId) (rd rs : Reg) (f : Word → Word) (s : State) : Res := writesReg k rd (fun c => f (c.get rs)) s

/-! ## Meanings -/

def execAdd (k : CoreId) (rd rs rt : Reg) (s : State) : Res := aluR k rd rs rt (fun a b => a + b) s
def execSub (k : CoreId) (rd rs rt : Reg) (s : State) : Res := aluR k rd rs rt (fun a b => a - b) s
def execAnd (k : CoreId) (rd rs rt : Reg) (s : State) : Res := aluR k rd rs rt (fun a b => a &&& b) s
def execOr (k : CoreId) (rd rs rt : Reg) (s : State) : Res := aluR k rd rs rt (fun a b => a ||| b) s
def execXor (k : CoreId) (rd rs rt : Reg) (s : State) : Res := aluR k rd rs rt (fun a b => a ^^^ b) s
def execNor (k : CoreId) (rd rs rt : Reg) (s : State) : Res := aluR k rd rs rt (fun a b => ~~~(a ||| b)) s
def execSll (k : CoreId) (rd rs rt : Reg) (s : State) : Res := aluR k rd rs rt (fun a b => a <<< shamt b) s
def execSrl (k : CoreId) (rd rs rt : Reg) (s : State) : Res := aluR k rd rs rt (fun a b => a >>> shamt b) s
def execSra (k : CoreId) (rd rs rt : Reg) (s : State) : Res := aluR k rd rs rt (fun a b => a.sshiftRight (shamt b)) s
def execRor (k : CoreId) (rd rs rt : Reg) (s : State) : Res := aluR k rd rs rt (fun a b => a.rotateRight (shamt b)) s
def execMul (k : CoreId) (rd rs rt : Reg) (s : State) : Res := aluR k rd rs rt (fun a b => a * b) s
def execMulh (k : CoreId) (rd rs rt : Reg) (s : State) : Res := aluR k rd rs rt (fun a b => mulHigh a b) s
def execMulhu (k : CoreId) (rd rs rt : Reg) (s : State) : Res := aluR k rd rs rt (fun a b => mulHighU a b) s
def execDiv (k : CoreId) (rd rs rt : Reg) (s : State) : Res := aluR k rd rs rt (fun a b => divS a b) s
def execDivu (k : CoreId) (rd rs rt : Reg) (s : State) : Res := aluR k rd rs rt (fun a b => divU a b) s
def execRem (k : CoreId) (rd rs rt : Reg) (s : State) : Res := aluR k rd rs rt (fun a b => remS a b) s
def execRemu (k : CoreId) (rd rs rt : Reg) (s : State) : Res := aluR k rd rs rt (fun a b => remU a b) s
def execSeq (k : CoreId) (rd rs rt : Reg) (s : State) : Res := aluR k rd rs rt (fun a b => flag (a == b)) s
def execSne (k : CoreId) (rd rs rt : Reg) (s : State) : Res := aluR k rd rs rt (fun a b => flag (a != b)) s
def execSlt (k : CoreId) (rd rs rt : Reg) (s : State) : Res := aluR k rd rs rt (fun a b => flag (a.slt b)) s
def execSltu (k : CoreId) (rd rs rt : Reg) (s : State) : Res := aluR k rd rs rt (fun a b => flag (a.ult b)) s

def execClz (k : CoreId) (rd rs : Reg) (s : State) : Res := aluI k rd rs leadingZeros s
def execCtz (k : CoreId) (rd rs : Reg) (s : State) : Res := aluI k rd rs trailingZeros s
def execPopc (k : CoreId) (rd rs : Reg) (s : State) : Res := aluI k rd rs popCount s
def execBrev (k : CoreId) (rd rs : Reg) (s : State) : Res := aluI k rd rs byteReverse s
def execMaskBit (k : CoreId) (rd rs : Reg) (s : State) : Res := aluI k rd rs maskOf s

def execAddi (k : CoreId) (rd rs : Reg) (imm : BitVec 18) (s : State) : Res := aluI k rd rs (fun a => a + sext18 imm) s
def execAndi (k : CoreId) (rd rs : Reg) (imm : BitVec 18) (s : State) : Res := aluI k rd rs (fun a => a &&& zext18 imm) s
def execOri (k : CoreId) (rd rs : Reg) (imm : BitVec 18) (s : State) : Res := aluI k rd rs (fun a => a ||| zext18 imm) s
def execXori (k : CoreId) (rd rs : Reg) (imm : BitVec 18) (s : State) : Res := aluI k rd rs (fun a => a ^^^ zext18 imm) s

def execSlli (k : CoreId) (rd rs : Reg) (sh : BitVec 5) (s : State) : Res := aluI k rd rs (fun a => a <<< sh.toNat) s
def execSrli (k : CoreId) (rd rs : Reg) (sh : BitVec 5) (s : State) : Res := aluI k rd rs (fun a => a >>> sh.toNat) s
def execSrai (k : CoreId) (rd rs : Reg) (sh : BitVec 5) (s : State) : Res := aluI k rd rs (fun a => a.sshiftRight sh.toNat) s
def execRori (k : CoreId) (rd rs : Reg) (sh : BitVec 5) (s : State) : Res := aluI k rd rs (fun a => a.rotateRight sh.toNat) s

def execLui (k : CoreId) (rd : Reg) (imm : BitVec 22) (s : State) : Res :=
  writesReg k rd (fun _ => (imm.setWidth 32) <<< 10) s

/-- SEL: (rt & m) | (ru & ~m) with m from rs (R424). -/
def execSel (k : CoreId) (rd rs rt ru : Reg) (s : State) : Res :=
  writesReg k rd (fun c => (c.get rt &&& maskOf (c.get rs)) ||| (c.get ru &&& ~~~maskOf (c.get rs))) s

end Sys2Proof.Machine
end

