-- ==== Sys2Proof/Machine/IsaControl.lean ====
section
/-! DEFINITION. Control transfer, hardware loops, system instructions, reserved encodings, and what takes a core at an
instruction boundary (R416 to R426, R433 to R436, R445 to R449, R452, R455). -/
namespace Sys2Proof.Machine

/-! ## Branches and jumps (R420, R422, R426) -/

/-- The instruction stands at LE of an active loop. -/
def atLoopEnd (k : CoreId) (s : State) : Bool := (cpu k s).lc ≠ 0 && (cpu k s).pc = (cpu k s).le

/-- Continue at a target; one outside LS to LE ends an active loop (R426). -/
def Cpu.goTo (c : Cpu) (t : Word) : Cpu := { c with pc := t, lc := if inLoop c t then c.lc else 0 }

/-- A transfer: the discipline fault of sealed code where the class forbids it, then that of LE, then its effect. -/
def transfer (k : CoreId) (forbidden : Option Nat) (f : State → State) (s : State) : Res :=
  instr k (fun sealed s =>
    match forbidden, sealed with
    | some d, true => done (trap k 6 d s)
    | _, _ => if atLoopEnd k s then done (trap k 6 5 s) else done (f s)) s

def branch (k : CoreId) (rs rt : Reg) (off : BitVec 18) (cond : Word → Word → Bool) (s : State) : Res :=
  transfer k (some 1) (onCpu k (fun c =>
    if cond (c.get rs) (c.get rt) then c.goTo (target c.pc (sext18 off)) else { c with pc := c.pc + 4 })) s

def execCbeq (k : CoreId) (rs rt : Reg) (off : BitVec 18) (s : State) : Res := branch k rs rt off (fun a b => a == b) s
def execCbne (k : CoreId) (rs rt : Reg) (off : BitVec 18) (s : State) : Res := branch k rs rt off (fun a b => a != b) s
def execCblt (k : CoreId) (rs rt : Reg) (off : BitVec 18) (s : State) : Res := branch k rs rt off (fun a b => a.slt b) s
def execCbge (k : CoreId) (rs rt : Reg) (off : BitVec 18) (s : State) : Res := branch k rs rt off (fun a b => !a.slt b) s
def execCbltu (k : CoreId) (rs rt : Reg) (off : BitVec 18) (s : State) : Res := branch k rs rt off (fun a b => a.ult b) s
def execCbgeu (k : CoreId) (rs rt : Reg) (off : BitVec 18) (s : State) : Res := branch k rs rt off (fun a b => !a.ult b) s

def execJump (k : CoreId) (off : BitVec 26) (s : State) : Res :=
  transfer k none (onCpu k (fun c => c.goTo (target c.pc (sext26 off)))) s

def execJal (k : CoreId) (off : BitVec 26) (s : State) : Res :=
  transfer k none (onCpu k (fun c => (c.goTo (target c.pc (sext26 off))).set 15 (c.pc + 4))) s

def execJr (k : CoreId) (rs : Reg) (s : State) : Res :=
  transfer k (if rs = 15 then none else some 3) (onCpu k (fun c => c.goTo (c.get rs))) s

/-- The target is the value from before the write of rd. -/
def execJalr (k : CoreId) (rd rs : Reg) (s : State) : Res :=
  transfer k (some 2) (onCpu k (fun c => (c.goTo (c.get rs)).set rd (c.pc + 4))) s

/-! ## Reserved encodings (R419, R435) -/

/-- The emulation trap of the instruction at the pc. -/
def emulationTrap (k : CoreId) (w : Word) (s : State) : State := trap k 7 0 (onCpu k (fun c => { c with einsn := w }) s)

def aluFuncs : List Nat :=
  [0x000, 0x001, 0x002, 0x003, 0x004, 0x005, 0x008, 0x009, 0x00A, 0x00B, 0x010, 0x011, 0x012, 0x014, 0x015, 0x016, 0x017,
   0x020, 0x021, 0x022, 0x023]

/-- A word that R416 to R434 leave reserved. -/
def wordReserved (w : Word) : Bool :=
  let f (hi lo : Nat) : Nat := bitsN w.toNat hi lo
  let rd := f 25 22
  let rs := f 21 18
  let rt := f 17 14
  let ru := f 13 10
  let func := f 9 0
  match f 31 26 with
  | 0x01 => ru ≠ 0 || !aluFuncs.contains func || (0x020 ≤ func && rt ≠ 0)
  | 0x06 => f 17 7 ≠ 0
  | 0x18 => 1 < func
  | 0x19 => 5 < func || (ru ≠ 0 && func ≠ 4) || (rt ≠ 0 && func = 5)
  | 0x1B => f 17 16 ≠ 0
  | 0x1C => f 21 12 ≠ 0 || f 11 0 = 0
  | 0x1D => rd ≠ 0 || f 11 0 = 0
  | 0x1E =>
    let part := f 15 14
    let sh := f 13 8
    f 7 4 ≠ 0 || (match f 3 0 with
      | 0 => rd ≠ 0 || rs ≠ 0 || part ≠ 0 || sh ≠ 0
      | 1 => rd ≠ 0 || rs ≠ 0 || part ≠ 0 || sh ≠ 0
      | 2 => rd ≠ 0 || rs ≠ 0 || part ≠ 0 || sh ≠ 0
      | 3 => part ≠ 0 || sh ≠ 0
      | 4 => rs ≠ 0 || sh ≠ 0 || part = 3
      | 5 => rd ≠ 0 || sh ≠ 0 || part = 3
      | 6 => rd ≠ 0 || rs ≠ 0 || part ≠ 0 || sh ≠ 0
      | 7 => rd ≠ 0 || rs ≠ 0 || part ≠ 0
      | _ => true)
  | 0x1F => ru ≠ 0 || 4 < func
  | 0x20 =>
    let n := f 17 10
    (match func with
      | 0 => rd ≠ 0 || rs ≠ 0 || 7 < n
      | 3 => rs ≠ 0 || !specialListed (BitVec.ofNat 8 n)
      | 4 => rd ≠ 0 || !specialListed (BitVec.ofNat 8 n)
      | func => 8 < func || rd ≠ 0 || rs ≠ 0 || n ≠ 0)
  | m => m = 0 || 0x21 ≤ m

/-- EMULATION: a reserved word at the pc (R435); a word that is not reserved does not raise the trap. -/
def execEmulation (k : CoreId) (w : Word) (s : State) : Res :=
  instr k (fun _ s => done (if wordReserved w then emulationTrap k w s else s)) s

/-! ## Hardware loops (R425, R426) -/

/-- LOOP and LOOPI with their count; END 0 is a reserved encoding, LC not 0 a discipline fault. -/
def loopStart (k : CoreId) (w : Word) (fin : BitVec 12) (count : Cpu → Nat) (s : State) : Res :=
  instr k (fun _ s =>
    if fin = 0 then done (emulationTrap k w s)
    else if (cpu k s).lc ≠ 0 then done (trap k 6 4 s)
    else done (onCpu k (fun c =>
      { c with lc := BitVec.ofNat 32 (count c), ls := c.pc + 4, le := c.pc + 4 * fin.setWidth 32, pc := c.pc + 4 }) s)) s

/-- rs[15:0], 0 meaning 65,536. -/
def loopCount (v : Word) : Nat := if v.toNat % 65536 = 0 then 65536 else v.toNat % 65536

def execLoop (k : CoreId) (rs : Reg) (fin : BitVec 12) (s : State) : Res :=
  loopStart k (BitVec.ofNat 32 (0x1C * 2 ^ 26 + rs.val * 2 ^ 22 + fin.toNat)) fin (fun c => loopCount (c.get rs)) s

/-- The 10-bit count, 0 meaning 1,024. -/
def execLoopi (k : CoreId) (count : BitVec 10) (fin : BitVec 12) (s : State) : Res :=
  loopStart k (BitVec.ofNat 32 (0x1D * 2 ^ 26 + count.toNat * 2 ^ 12 + fin.toNat)) fin
    (fun _ => if count = 0 then 1024 else count.toNat) s

/-! ## System calls and returns (R434, R445, R452) -/

def execScall (k : CoreId) (n : Fin 8) (s : State) : Res :=
  transfer k none (fun s =>
    let c := cpu k s
    let e := c.sentry[n]
    if c.sc then trap k 5 4 s
    else if !e.getLsbD 0 then trap k 5 5 s
    else onCpu k (fun c => callEntry c.pc e c) s) s

def execSret (k : CoreId) (s : State) : Res :=
  transfer k none (fun s => if (cpu k s).sc then onCpu k callReturn s else trap k 5 3 s) s

def execEret (k : CoreId) (s : State) : Res :=
  transfer k none (fun s => if (cpu k s).priv then keeperReturn k s else trap k 5 2 s) s

/-! ## Special registers (R410, R434, R441) -/

/-- MFS: a reserved number traps to emulation, a hidden register of a tenant to the privilege fault. -/
def readsSpecial (k : CoreId) (rd : Reg) (n : BitVec 8) (s : State) : Res :=
  instr k (fun sealed s =>
    if !specialListed n then done (emulationTrap k (sysWord rd 0 n 3) s)
    else if !(cpu k s).priv && specialHidden n then done (trap k 5 1 s)
    else
      let v := readSpecial k n sealed s
      done (onCpu k (fun c => (c.set rd v).retire (c.pc + 4)) (latchCycle k n s))) s

def execMfs (k : CoreId) (rd : Reg) (n : BitVec 8) (s : State) : Res := readsSpecial k rd n s

/-- The row CYCLE_LO: an MFS of CYCLE_LO. -/
def execCycleLo (k : CoreId) (rd : Reg) (s : State) : Res := readsSpecial k rd 0x18 s

/-- MTS: a write of LC, LS or LE takes effect from the next instruction, after this one's loop update (R426). -/
def execMts (k : CoreId) (rs : Reg) (n : BitVec 8) (s : State) : Res :=
  instr k (fun _ s =>
    if !specialListed n then done (emulationTrap k (sysWord 0 rs n 4) s)
    else if !(cpu k s).priv && !specialTenantWrites n then done (trap k 5 1 s)
    else done (onCpu k (fun c => writeSpecial n (c.get rs) (c.retire (c.pc + 4))) s)) s

/-! ## Ordering, waiting, breaking (R433, R434) -/

/-- FENCE: in this model every earlier access has been accepted when the instruction starts. -/
def execFence (k : CoreId) (s : State) : Res := instr k (fun _ s => done (stepPc k s)) s

/-- IFENCE: no instruction is fetched ahead in this model. -/
def execIfence (k : CoreId) (s : State) : Res := instr k (fun _ s => done (stepPc k s)) s

/-- WFI waits unless an interrupt can be taken. A keeper that waits has done with a tenant's fault (R451; log 121). -/
def execWfi (k : CoreId) (s : State) : Res :=
  instr k (fun _ s =>
    let s := stepPc k (if (cpu k s).priv then leaveFault k s else s)
    done (if (topInterrupt k (cpu k s).mask.toNat s).isSome then s else onCpu k (fun c => { c with waiting := true }) s)) s

/-- A debug scope covers the running code of a core (R340). -/
def scopeCovers (k : CoreId) (s : State) : Bool :=
  (match k with
    | .control => s.tap.scope.getLsbD 1
    | .vault => s.tap.scope.getLsbD 2) && (!s.tap.scope.getLsbD 3 || !(cpu k s).priv)

/-- BREAK (R434): the core halts for debug, which ends commands as a stop does (R342; log 70), or the word is reserved. -/
def execBreak (k : CoreId) (s : State) : Res :=
  instr k (fun _ s =>
    if scopeCovers k s then done (stopAnswers k (onCpu k (fun c => { c with halted := true }) (stepPc k s)))
    else done (emulationTrap k (sysWord 0 0 0 8) s)) s

/-! ## At an instruction boundary -/

/-- INTERRUPT_ENTRY (R446): the top interrupt above MASK, if any. -/
def execInterruptEntry (k : CoreId) (s : State) : Res :=
  let c := cpu k s
  if running s && !c.stopped && !c.halted then
    match topInterrupt k c.mask.toNat s with
    | some (l, n) => done (onCpu k (takeInterrupt l n) s)
    | none => done s
  else done s

/-- The core's stores to an address are posted (R463). -/
def postedStore (k : CoreId) (a : Nat) (s : State) : Bool :=
  match coreCheck k a .write s with
  | .grant _ _ order => order ≠ 0
  | .deny _ => false

/-- IMPRECISE_BUS_ERROR (R449): never from a region of ORDER 0 (R463). EPC names the instruction at the boundary. -/
def execImpreciseBusError (k : CoreId) (addr : Word) (s : State) : Res :=
  let c := cpu k s
  if running s && !c.stopped && !c.halted && postedStore k addr.toNat s then
    done (takeFault k c.pc c.pc 2 16 (setExcAddr k addr.toNat (onCpu k (fun c => { c with waiting := false }) s)))
  else done s

/-- LOCKSTEP_MISMATCH (R454, R455); a halted core's shadow halts with it (R342). -/
def execLockstepMismatch (dt : Nat) (k : CoreId) (s : State) : Res :=
  let s := advance dt s
  if running s && !(cpu k s).stopped && !(cpu k s).halted then done (mismatch k s) else done s

end Sys2Proof.Machine
end

