-- ==== Sys2Proof/Machine/IsaMem.lean ====
section
/-! DEFINITION. Loads, stores, atomics, bit instructions and the debug access port (R322, R341, R374, R386, R412 to R415,
R431, R432, R449, R459 to R463, R465). -/
namespace Sys2Proof.Machine

/-! ## One bus transfer -/

/-- What a transfer answers its master: a value, a bus error with its DETAIL bits, a wait for flash, the random-source
fault, an escalation the core asked for, or a vendor block (R527). -/
inductive BusAns
  | value (v : Nat)
  | error (detail : Nat)
  | stall
  | noRandom
  | escreq
  | vendor
  deriving DecidableEq, Repr

/-- BIC_PH or BIC_WH fires (R322). -/
def codeMismatch (k : CoreId) (s : State) : State :=
  fireOne (match k with | .control => srcBicPh | .vault => srcBicWh) s

/-- A read of an ECC word: corrected errors are counted, an uncorrectable word is a bus error (R374). -/
def eccRead (m : MemId) (w : Nat) (e : BusEvt) (v : Nat) (s : State) : BusAns × State :=
  if s.me.faulty.contains (m, w) || e = .ecc .uncorrectable then (.error 1, uncorrectable m (markFaulty m w s))
  else (.value v, if e = .ecc .corrected then countCorrected m s else s)

/-- A read through the flash window (R386, R387, R391; log 61). -/
def flashRead (off : Nat) (e : BusEvt) (v : Nat) (s : State) : BusAns × State :=
  let sec := off / sectorBytes
  let real := redirect sec s
  if (sectorOf real s).flag then (.error 1, s)
  else if meetsErase sec s then (.stall, readTouches sec s)
  else
    let s := readTouches sec s
    if s.nv.flashTorn.contains (real * 256 + off % sectorBytes / 32) || e = .flashRetry 0 then (.error 1, raise 137 [] s)
    else
      match e with
      | .flashRetry _ => (.value v, onSector real (fun x => { x with refreshQ := true, retries := x.retries + 1 }) s)
      | _ => (.value v, s)

/-- A read of an MRAM word (R404). -/
def mramRead (off : Nat) (e : BusEvt) (v : Nat) (s : State) : BusAns × State :=
  if s.nv.torn.contains (off / 8) then (.error 1, uncorrectable .mram s)
  else if e = .ecc .uncorrectable then
    (.error 1, uncorrectable .mram (onNv (fun n => { n with torn := n.torn ++ [off / 8] }) s))
  else (.value v, if e = .ecc .corrected then countCorrected .mram s else s)

/-- NW_RAND (R281): four DRBG bytes; a wait while a bank may still serve; a fault when both have failed. -/
def readRandom (s : State) : BusAns × State :=
  match drbgGenerate 4 s with
  | (some b, s) => (.value (leNat b), s)
  | (none, s') => if s.nw.lost then (.noRandom, s) else (.stall, s')

/-- Blocks only the keeper reaches (R450, R464). -/
def keeperBlock (b : Blk) : Bool := b == .local_ || b == .valve

/-- The flash controller answers only code fetched from vault ROM (R385). -/
def fromRom (s : State) : Bool :=
  match readPlace .vault s.cpuV.pc.toNat s with
  | .rom _ => true
  | _ => false

/-- A register read of n bytes: whole words only (log 68). -/
def regRead (k : CoreId) (keeper rom : Bool) (b : Blk) (off n : Nat) (s : State) : BusAns × State :=
  if n ≠ 4 || (keeperBlock b && !keeper) then (.error 8, s)
  else
    match b with
    | .vendor => (.vendor, s)
    | .flashCtl => if rom then (.vendor, s) else (.value 0, s)
    | .noise => if off = 0 then readRandom s else (.value (readReg k .noise off s), s)
    | b => (.value (readReg k b off s), s)

/-- The slave performs a read of n aligned bytes. -/
def slaveRead (k : CoreId) (keeper rom : Bool) (a n : Nat) (e : BusEvt) (s : State) : BusAns × State :=
  let p := readPlace k a s
  let v := placeValue k p n s
  match p with
  | .reg b off => regRead k keeper rom b off n s
  | .bitWindow _ => (.error 8, s)
  | .unpopulated => (.error 4, s)
  | .flash off => flashRead off e v s
  | .mram off => mramRead off e v s
  | p =>
    match wordOf k p with
    | some (m, w) => eccRead m w e v s
    | none => (.value v, s)

/-- A read with the codes of R322: a wrong request code is performed by nobody, and of a wrong response code the data
are discarded. -/
def busRead (k : CoreId) (keeper rom : Bool) (a n : Nat) (e : BusEvt) (s : State) : BusAns × State :=
  match e with
  | .badRequestCode => (.error 2, codeMismatch k s)
  | .badResponseCode => (.error 2, codeMismatch k (slaveRead k keeper rom a n .clean s).2)
  | e => slaveRead k keeper rom a n e s

/-- The slave performs a write of n aligned bytes. -/
def slaveWrite (k : CoreId) (keeper rom : Bool) (a n : Nat) (v : Word) (s : State) : BusAns × State :=
  match placeOf k a with
  | .unpopulated => (.error 4, s)
  | .reg b off =>
    if n ≠ 4 || (keeperBlock b && !keeper) then (.error 8, s)
    else if b = .vendor || (b = .flashCtl && rom) then (.vendor, s)
    else if b = .local_ && off = 0xC && v.getLsbD 1 then (.escreq, writeReg k b off v s)
    else (.value 0, writeReg k b off v s)
  | p => if writable p then (.value 0, placePut k p (natLE n v.toNat) s) else (.error 8, s)

def busWrite (k : CoreId) (keeper rom : Bool) (a n : Nat) (v : Word) (e : BusEvt) (s : State) : BusAns × State :=
  match e with
  | .badRequestCode => (.error 2, codeMismatch k s)
  | .badResponseCode => (.error 2, codeMismatch k (slaveWrite k keeper rom a n v s).2)
  | _ => slaveWrite k keeper rom a n v s

/-! ## A core's accesses -/

/-- What a core's access comes to. -/
inductive Acc
  | value (v : Nat) (s : State)
  | fault (vec detail : Nat) (s : State)
  | stall (s : State)
  | escreq (s : State)
  | vendor

/-- DETAIL of an ACCESS fault: the right asked for, and no matching entry (R449). -/
def accessDetail (r : Right) (noMatch : Bool) : Nat :=
  (match r with
    | .read => 1
    | .write => 2
    | .exec => 4) + 8 * b2n noMatch

/-- Alignment, then the map, then the valve table (R431, R459, R462): the fault, or the ORDER of the grant. -/
def accessCheck (k : CoreId) (a n : Nat) (r : Right) (s : State) : Nat ⊕ (Nat × Nat) :=
  if a % n ≠ 0 then .inr (4, 0)
  else if placeOf k a = .unpopulated then .inr (2, 4)
  else
    match coreCheck k a r s with
    | .deny noMatch => .inr (3, accessDetail r noMatch)
    | .grant _ _ order => .inl order

/-- The fault of a refused or failed access; a BUS_ERROR or ACCESS fault writes EXC_ADDR (R450). -/
def accessFault (k : CoreId) (a vec detail : Nat) (s : State) : Acc :=
  .fault vec detail (if vec = 4 then s else setExcAddr k a s)

/-- A master's access to a place of the MRAM comes in its turn (R406). -/
def masterTurn (master : Nat) (p : Place) (s : State) : State :=
  match p with
  | .mram off => mramTurn (off / 0x100000) master s
  | _ => s

def coreLoad (k : CoreId) (a n : Nat) (e : BusEvt) (s : State) : Acc :=
  match accessCheck k a n .read s with
  | .inr (v, d) => accessFault k a v d s
  | .inl _ =>
    match busRead k (cpu k s).priv (k == .vault && fromRom s) a n e (masterTurn mramCore (placeOf k a) s) with
    | (.value v, s) => .value v s
    | (.error d, s) => accessFault k a 2 d s
    | (.stall, s) => .stall s
    | (.noRandom, s) => .fault 8 0 s
    | (.escreq, s) => .escreq s
    | (.vendor, _) => .vendor

/-- A store to a region of ORDER other than 0 retires at acceptance: its error comes later, if at all (R449, R463). -/
def coreStore (k : CoreId) (a n : Nat) (v : Word) (e : BusEvt) (s : State) : Acc :=
  match accessCheck k a n .write s with
  | .inr (x, d) => accessFault k a x d s
  | .inl order =>
    match busWrite k (cpu k s).priv (k == .vault && fromRom s) a n v e (masterTurn mramCore (placeOf k a) s) with
    | (.value v, s) => .value v s
    | (.error d, s) => if order = 0 then accessFault k a 2 d s else .value 0 s
    | (.stall, s) => .stall s
    | (.noRandom, s) => .fault 8 0 s
    | (.escreq, s) => .escreq s
    | (.vendor, _) => .vendor

/-- The instruction ends with its access: it completes by `f`, faults, waits, escalates, or stops at a vendor block. -/
def conclude (k : CoreId) (addr : Nat) (x : Acc) (f : Nat → Cpu → Cpu) : Res :=
  match x with
  | .value v s => done (onCpu k (f v) s)
  | .fault v d s => done (trap k v d s)
  | .stall s => done s
  | .escreq s => done (escalate k (cpu k s).pc 1 s)
  | .vendor => .refused (.vendorBlock addr)

/-! ## Loads and stores (R431) -/

def dataAddr (k : CoreId) (rs : Reg) (imm : BitVec 18) (s : State) : Nat := (gpr k rs s + sext18 imm).toNat

def load (k : CoreId) (rd : Reg) (n a : Nat) (ext : Nat → Word) (e : BusEvt) (s : State) : Res :=
  conclude k a (coreLoad k a n e s) (fun v c => (c.set rd (ext v)).retire (c.pc + 4))

def zeroExt (v : Nat) : Word := BitVec.ofNat 32 v
def signExt8 (v : Nat) : Word := (BitVec.ofNat 8 v).signExtend 32
def signExt16 (v : Nat) : Word := (BitVec.ofNat 16 v).signExtend 32

def loadInstr (k : CoreId) (rd rs : Reg) (imm : BitVec 18) (n : Nat) (ext : Nat → Word) (e : BusEvt) (s : State) : Res :=
  instr k (fun _ s => load k rd n (dataAddr k rs imm s) ext e s) s

def execLb (k : CoreId) (rd rs : Reg) (imm : BitVec 18) (e : BusEvt) (s : State) : Res := loadInstr k rd rs imm 1 signExt8 e s
def execLbu (k : CoreId) (rd rs : Reg) (imm : BitVec 18) (e : BusEvt) (s : State) : Res := loadInstr k rd rs imm 1 zeroExt e s
def execLh (k : CoreId) (rd rs : Reg) (imm : BitVec 18) (e : BusEvt) (s : State) : Res := loadInstr k rd rs imm 2 signExt16 e s
def execLhu (k : CoreId) (rd rs : Reg) (imm : BitVec 18) (e : BusEvt) (s : State) : Res := loadInstr k rd rs imm 2 zeroExt e s
def execLw (k : CoreId) (rd rs : Reg) (imm : BitVec 18) (e : BusEvt) (s : State) : Res := loadInstr k rd rs imm 4 zeroExt e s

def storeInstr (k : CoreId) (rt rs : Reg) (imm : BitVec 18) (n : Nat) (e : BusEvt) (s : State) : Res :=
  instr k (fun _ s =>
    let a := dataAddr k rs imm s
    conclude k a (coreStore k a n (gpr k rt s) e s) (fun _ c => c.retire (c.pc + 4))) s

def execSb (k : CoreId) (rt rs : Reg) (imm : BitVec 18) (e : BusEvt) (s : State) : Res := storeInstr k rt rs imm 1 e s
def execSh (k : CoreId) (rt rs : Reg) (imm : BitVec 18) (e : BusEvt) (s : State) : Res := storeInstr k rt rs imm 2 e s
def execSw (k : CoreId) (rt rs : Reg) (imm : BitVec 18) (e : BusEvt) (s : State) : Res := storeInstr k rt rs imm 4 e s

/-- The row NW_RAND: the vault core's load of NW_RAND (R281, R529). -/
def execNwRand (rd : Reg) (s : State) : Res :=
  instr .vault (fun _ s => load .vault rd 4 0x40007000 zeroExt .clean s) s

/-! ## Atomics (R432) -/

/-- Targets of atomics. -/
def atomicPlace (p : Place) : Bool :=
  match p with
  | .ctrlRam _ => true
  | .vaultRam _ => true
  | .mailbox _ => true
  | _ => false

/-- One indivisible read and write of the word at rs; `f` gives the word written, if any, from the core's registers and
the old value. A misaligned address takes the alignment fault (log 69). -/
def atomic (k : CoreId) (rd rs : Reg) (f : Cpu → Word → Option Word) (s : State) : Res :=
  instr k (fun _ s =>
    let a := (gpr k rs s).toNat
    let acc : Acc :=
      match accessCheck k a 4 .read s, accessCheck k a 4 .write s with
      | .inr (v, d), _ => accessFault k a v d s
      | _, .inr (v, d) => accessFault k a v d s
      | _, _ =>
        if !atomicPlace (placeOf k a) then accessFault k a 2 8 s
        else
          match busRead k true false a 4 .clean s with
          | (.value v, s) =>
            match f (cpu k s) (BitVec.ofNat 32 v) with
            | some w => .value v (busWrite k true false a 4 w .clean s).2
            | none => .value v s
          | (.error d, s) => accessFault k a 2 d s
          | (_, s) => .stall s
    conclude k a acc (fun v c => (c.set rd (zeroExt v)).retire (c.pc + 4))) s

def execSwap (k : CoreId) (rd rs rt : Reg) (s : State) : Res := atomic k rd rs (fun c _ => some (c.get rt)) s
def execCas (k : CoreId) (rd rs rt : Reg) (s : State) : Res :=
  atomic k rd rs (fun c old => if old = c.get rd then some (c.get rt) else none) s
def execAmoadd (k : CoreId) (rd rs rt : Reg) (s : State) : Res := atomic k rd rs (fun c old => some (old + c.get rt)) s
def execAmoand (k : CoreId) (rd rs rt : Reg) (s : State) : Res := atomic k rd rs (fun c old => some (old &&& c.get rt)) s
def execAmoor (k : CoreId) (rd rs rt : Reg) (s : State) : Res := atomic k rd rs (fun c old => some (old ||| c.get rt)) s

/-! ## Bit instructions (R413 to R415, R530) -/

/-- The bit address. -/
def bitAddr (k : CoreId) (rb : Reg) (imm : BitVec 16) (s : State) : Nat := ((gpr k rb s).toNat % 65536 + imm.toNat) % 65536

/-- The base of a core's bit window (R525, R526). -/
def bitBase (k : CoreId) : Nat :=
  match k with
  | .control => 0x11000000
  | .vault => 0x190000

/-- The bit RAM of a core. -/
def bitMem (k : CoreId) : MemId :=
  match k with
  | .control => .controlBit
  | .vault => .vaultBit

def readBit (k : CoreId) (b : Nat) (s : State) : Bool :=
  if b < 0x1000 then (cpu k s).bits.getLsbD b
  else if b < 0x1100 then bit256 (intcPending k s) (b - 0x1000)
  else if b < 0x1200 then bit256 (sumpOf k s) (b - 0x1100)
  else false

/-- A write of a bit under the access code of an alias: INTC_PEND is RW1C, SUMP is ST. -/
def writeBit (k : CoreId) (b : Nat) (v : Bool) (s : State) : State :=
  if b < 0x1000 then
    onCpu k (fun c => { c with bits := if v then c.bits ||| BitVec.twoPow 4096 b else c.bits &&& ~~~ BitVec.twoPow 4096 b }) s
  else if b < 0x1100 then (if v then clearIntc k (BitVec.twoPow 256 (b - 0x1000)) s else s)
  else s

/-- A bit instruction: the checks its access needs, then its effect on an indivisible bit. -/
def bitInstr (k : CoreId) (rb : Reg) (imm : BitVec 16) (rights : List Right) (f : Nat → State → State) (s : State) : Res :=
  instr k (fun _ s =>
    let b := bitAddr k rb imm s
    let a := bitBase k + b
    match rights.findSome? (fun r => match coreCheck k a r s with
        | .deny noMatch => some (accessDetail r noMatch)
        | .grant _ _ _ => none) with
    | some d => done (trap k 3 d (setExcAddr k a s))
    | none =>
      if b < 0x1000 && s.me.faulty.contains (bitMem k, b / 64) then
        done (trap k 2 1 (setExcAddr k a (uncorrectable (bitMem k) s)))
      else done (stepPc k (f b s))) s

def execBset (k : CoreId) (rb : Reg) (imm : BitVec 16) (s : State) : Res :=
  bitInstr k rb imm [.write] (fun b s => writeBit k b true s) s
def execBclr (k : CoreId) (rb : Reg) (imm : BitVec 16) (s : State) : Res :=
  bitInstr k rb imm [.write] (fun b s => writeBit k b false s) s
def execBtgl (k : CoreId) (rb : Reg) (imm : BitVec 16) (s : State) : Res :=
  bitInstr k rb imm [.read, .write] (fun b s => writeBit k b (!readBit k b s) s) s
def execBmov (k : CoreId) (rs rb : Reg) (imm : BitVec 16) (s : State) : Res :=
  bitInstr k rb imm [.write] (fun b s => writeBit k b ((gpr k rs s).getLsbD 0) s) s
def execBtst (k : CoreId) (rd rb : Reg) (imm : BitVec 16) (s : State) : Res :=
  bitInstr k rb imm [.read] (fun b s => setGpr k rd (flag (readBit k b s)) s) s

/-! ## The debug access port (R340, R341, R459, R460, R465) -/

/-- A refused access: zero, the TAP error bit, and DBG_DENIED. -/
def debugAnswer (v : Nat) (err : Bool) (s : State) : State :=
  let w := BitVec.ofNat 32 v
  emit (.tapData w err) (onTap (fun t => { t with data := w, errorBit := err }) s)

/-- DEBUG_ACCESS: one word. The debug master has no privilege of its own; SCOPE bit 3 puts it under the tenant rights with
TID 0. Without the DEBUG instruction in the TAP there is no access. -/
def execDebugAccess (k : CoreId) (addr : Nat) (write : Bool) (v : Word) (s : State) : Res :=
  if !running s || s.tap.ins ≠ .debug then done s
  else
    let open_ := match k with
      | .control => s.tap.scope.getLsbD 1
      | .vault => s.tap.scope.getLsbD 2
    let refused (s : State) : Res := done (debugAnswer 0 true (fireOne srcDebug s))
    if !open_ then refused s
    else if placeOf k addr = .unpopulated || addr % 4 ≠ 0 then done (debugAnswer 0 true s)
    else
      match valveCheck (valves k s) 15 (!s.tap.scope.getLsbD 3) 0 addr (if write then .write else .read) with
      | .deny _ => refused s
      | .grant _ _ _ =>
        match placeOf k addr with
        | .reg .flashCtl _ => refused s
        | _ =>
          let s := masterTurn mramDebug (placeOf k addr) s
          match (if write then busWrite k false false addr 4 v .clean s else busRead k false false addr 4 .clean s) with
          | (.value v, s) => done (debugAnswer (if write then 0 else v) false s)
          | (.vendor, _) => .refused (.vendorBlock addr)
          | (_, s) => done (debugAnswer 0 true s)

end Sys2Proof.Machine
end

