-- ==== Sys2Proof/Machine/Serve.lean ====
section
/-! DEFINITION. The command interpreter: which operation an opcode runs, the commands that wait and start, and one row
for every opcode (R220, R230 to R235, R243). -/
namespace Sys2Proof.Machine

/-- The operation of a basic opcode; the forms of R226 differ in their parameters only. -/
def run (opc : Nat) (c : Call) (s : State) : State :=
  match opc with
  | 0x0101 => helloBody c s
  | 0x0102 => sessionInfoBody c s
  | 0x0103 => echoBody c s
  | 0x0104 => identBody c s
  | 0x0201 => policyLoadBody c s
  | 0x0202 => policyGetBody c s
  | 0x0203 => portCfgBody c s
  | 0x0204 => pairCfgBody c s
  | 0x0205 => rxqCfgBody c s
  | 0x0206 => txqCfgBody c s
  | 0x0207 => rxmapSetBody c s
  | 0x0208 => cfgGetBody c s
  | 0x0301 => streamAddBody c s
  | 0x0302 => streamDelBody c s
  | 0x0303 => streamModBody c s
  | 0x0304 => streamGetBody c s
  | 0x0305 => streamMoveBody c s
  | 0x0401 => keyLoadBody c s
  | 0x0402 => keyReleaseBody c s
  | 0x0403 => keyInfoBody c s
  | 0x0404 => assocLoadBody c s
  | 0x0501 => txnOpenBody c s
  | 0x0502 => txnCommitBody c s
  | 0x0503 => txnAbortBody c s
  | 0x0504 => txnStatusBody c s
  | 0x0505 => epochAdvanceBody c s
  | 0x0601 => timeGetBody c s
  | 0x0602 => timeSetBody c s
  | 0x0603 => timeFeedBody c s
  | 0x0604 => timeSrcBody c s
  | 0x0605 => ppsCfgBody c s
  | 0x0606 => tcCfgBody c s
  | 0x0607 => timeCfgBody c s
  | 0x0701 => consSetBody c s
  | 0x0702 => consDelBody c s
  | 0x0703 => consGetBody c s
  | 0x0704 => consStatusBody c s
  | 0x0801 => vkeyGenBody c s
  | 0x0802 => vkeyImportBody c s
  | 0x0803 => vkeyDestroyBody c s
  | 0x0804 => vkeyInfoBody c s
  | 0x0805 => vcBlockBody c s
  | 0x0806 => vcDecryptVerifyBody c s
  | 0x0807 => vcHashBody c s
  | 0x0808 => modOpBody c s
  | 0x0809 => vsignBody c s
  | 0x080A => vverifyBody c s
  | 0x080B => rngGetBody c s
  | 0x080C => noiseStatusBody c s
  | 0x0901 => tagReadBody c s
  | 0x0902 => tagWriteBody c s
  | 0x0903 => tagCounterBody c s
  | 0x0904 => tagAccessBody c s
  | 0x0905 => clModeBody c s
  | 0x0906 => badgeReadBody c s
  | 0x0A01 => tamperStatusBody c s
  | 0x0A02 => tamperTestBody c s
  | 0x0A03 => lifecycleGetBody c s
  | 0x0A04 => lifecycleSetBody c s
  | 0x0A05 => unlockBody c s
  | 0x0A06 => debugAuthBody c s
  | 0x0A07 => rootRevokeBody c s
  | 0x0A08 => ownTakeBody c s
  | 0x0B01 => snapshotBody c s
  | 0x0B02 => selftestBody c s
  | 0x0B03 => pumpRestoreBody c s
  | 0x0B04 => marchRunBody c s
  | 0x0B05 => loopbackBody c s
  | 0x0C01 => fwInfoBody c s
  | 0x0C02 => fwBeginBody c s
  | 0x0C03 => fwChunkBody c s
  | 0x0C04 => fwActivateBody c s
  | 0x0C05 => fwRollbackBody c s
  | 0x0C06 => appletLoadBody c s
  | 0x0C07 => appletCtlBody c s
  | 0x0D01 => calGetBody c s
  | 0x0D02 => calSetBody c s
  | 0x0D03 => calClearBody c s
  | 0x0E01 => evCfgBody c s
  | 0x0E02 => evReadBody c s
  | 0x0E03 => sumpReadBody c s
  | 0x0E04 => sumpClearBody c s
  | 0x0E05 => logReadBody c s
  | _ => s

/-- Start every waiting command that may start (R231). -/
def startWaiting (s : State) : State := startAll run s.cmd.owed.length s

/-- The interpreter catches up: swaps and restarts whose time has come, runs that waited for the engines, the last steps of
tokens, commit instants that have come, frames whose instants have gone by, what waited for the vault core, then the commands that may start. -/
def catchUp (s : State) : State := startWaiting (askWaiting (framesDue (commitDue (tokensDue (marchWake (restartTick (swapTick s)))))))

/-! ## Requests as bytes (R214 to R216, R220) -/

/-- Take a request whose packet step 1 has passed: steps 2 to 7, then a parameter area that does not tile is BAD_PARAM
under step 8; a HELLO refused there leaves its session unnegotiated (R223). -/
def takeParsed (v : Via) (desc rsp : Nat) (p : Parsed) (s : State) : State :=
  let c : Call := { via := v, desc := desc, pkt := p.pkt, rsp := rsp }
  match p.tile with
  | none => takeCall p.opcode c s
  | some off =>
    if controlDown s then deliver (mkReply c p.opcode stBusy [] (2, 0)) s
    else
      match acceptRefuse p.opcode c s with
      | some r => answer c p.opcode r s
      | none =>
        answer c p.opcode (stBadParam, off, rsLength, 0)
          (if p.opcode = 0x0101 then setSess v {} s else s)

/-- Take a request as bytes (R220 step 1 first; a control core that is down answers BUSY to everything, R234). -/
def takeBytes (v : Via) (desc rsp limit : Nat) (b : Bytes) (s : State) : State :=
  let p := parsePacket limit b
  let c : Call := { via := v, desc := desc, pkt := p.pkt, rsp := rsp }
  let s := myTurn v s
  if !viaOpen v s then s
  else if controlDown s then deliver (mkReply c p.opcode stBusy [] (2, 0)) s
  else
    match p.bad with
    | some reason => answer c p.opcode (stBadParam, 0, reason, 0) s
    | none => takeParsed v desc rsp p s

/-! ## Turns (R227, R228, R230, R235) -/

/-- The hold list has room for a packet (R235). -/
def packetFits (v : Via) (limit : Nat) (b : Bytes) (s : State) : Bool :=
  let p := parsePacket limit b
  holdRoom p.opcode { via := v, desc := 0, pkt := p.pkt } s

/-- A ring whose next request the device may take: more free reply entries than outstanding commands (R228). -/
def ringReady (r : Fin 4) (s : State) : Bool :=
  let g := ringOf r s
  match g.fetched with
  | [] => false
  | q :: _ =>
    g.size ≠ 0 && (outstanding (.ring r) s).length < replyRoom g && packetFits (.ring r) (min (reqLen q) 16384) q.packet s

/-- Take the next request of a ring. One whose reply buffer is below 16,384 bytes is not executed: its answer is the reply
header alone, or the ring entry alone below 16 bytes (R228, R234). -/
def takeRing (r : Fin 4) (s : State) : State :=
  let g := ringOf r s
  match g.fetched with
  | [] => s
  | q :: rest =>
    let i := g.reqHead
    let s := onRing r (fun g => { g with fetched := rest, reqHead := (i + 1) % g.size }) s
    let limit := min (reqLen q) 16384
    if 16384 ≤ rspMax q then takeBytes (.ring r) i (rspAddr q) limit q.packet s
    else
      let p := parsePacket limit q.packet
      let c : Call := { via := .ring r, desc := i, pkt := p.pkt, rsp := rspAddr q }
      let s := myTurn (.ring r) s
      let a := if controlDown s then mkReply c p.opcode stBusy [] (2, 0) else mkReply c p.opcode stBadParam [] (replyVersion c s)
      if 16 ≤ rspMax q then deliver a s else ringPut r a 0 s

/-- Whether the oldest waiting packet of a transport fits into the hold list (R235). -/
def stuckReady (v : Via) (s : State) : Bool :=
  match s.cmd.stuck.find? (fun e => e.1 = v) with
  | some e => packetFits v 16384 e.2 s
  | none => false

/-- Take the oldest waiting packet of a transport. -/
def takeStuck (v : Via) (s : State) : State :=
  match s.cmd.stuck.find? (fun e => e.1 = v) with
  | some e => takeBytes v 0 0 16384 e.2 (onCmd (fun c => { c with stuck := c.stuck.eraseP (fun e => e.1 = v) }) s)
  | none => s

/-- The transports that have a packet the interpreter can take. -/
def readyVias (s : State) : List Via :=
  ((([0, 1, 2, 3] : List (Fin 4)).filter (fun r => ringReady r s)).map Via.ring) ++
    ((s.cmd.stuck.map (·.1)).filter (fun v => stuckReady v s))

/-- The transport whose turn it is (R230): the first of those from the present turn on. -/
def nextVia (s : State) : Option Via :=
  let far (v : Via) : Nat := (turnNo v + turnCount - s.cmd.turn) % turnCount
  (readyVias s).foldl (fun best v => match best with
    | none => some v
    | some b => if far v < far b then some v else best) none

/-- Take packets in turn; each may start or free others. -/
def takeTurns : Nat → State → State
  | 0, s => s
  | n + 1, s =>
    match nextVia s with
    | none => s
    | some (.ring r) => takeTurns n (startWaiting (takeRing r s))
    | some v => takeTurns n (startWaiting (takeStuck v s))

/-- Packets that wait at their transports. -/
def backlog (s : State) : Nat :=
  (([0, 1, 2, 3] : List (Fin 4)).map (fun r => (ringOf r s).fetched.length)).sum + s.cmd.stuck.length

/-- A packet reaches the interpreter over SPI, from an applet or over the field: it waits at its transport while the hold
list has no room for it, or while earlier ones wait there (R230, R235). -/
def offer (v : Via) (b : Bytes) (s : State) : State :=
  if stuckOf v s = 0 && packetFits v 16384 b s then takeBytes v 0 0 16384 b s
  else onCmd (fun c => { c with stuck := c.stuck ++ [(v, b)] }) s

/-! ## Applets that wait (R453) -/

/-- The answered system call of the applet a core runs returns its results in g1 and g2. -/
def returnCall (k : CoreId) (s : State) : State :=
  let i := appletKey k (cpu k s).tid.toNat
  match (appletOf i s).wait with
  | .done st n =>
    onApplet i (fun a => { a with wait := .none })
      (onCpu k (fun c => (c.set 1 (BitVec.ofNat 32 st)).set 2 (BitVec.ofNat 32 n)) s)
  | _ => s

/-- The end of every row that moves commands on. -/
def settle (s : State) : State :=
  let s := catchUp s
  returnCall .vault (returnCall .control (takeTurns (backlog s) s))

/-! ## One row for every opcode -/

/-- A PUT made while SPACE is 0 is answered BUSY in a free slot, or else discarded and counted (R229). -/
def spiTurnAway (opc : Nat) (c : Call) (s : State) : State :=
  if spiSlots s < 16 then answer c opc (stBusy, 0, 0, 0) s
  else raise 101 [] (onCmd (fun x => { x with spiOverrun := (x.spiOverrun + 1) % 2 ^ 32 }) s)

/-- A command packet as its sender puts it: nothing while the interpreter's die is without power or in reset. While the
interpreter cannot take it, it stays in its ring (R228), is turned away (R229), or waits for room in the hold list (R235). -/
def serve (opc : Nat) (c : Call) (s : State) : State :=
  if !running s || !holdRoom opc c s then s
  else if mayTake c.via s then settle (takeCall opc c s)
  else if c.via = .spi then spiTurnAway opc c s
  else s

def execHello (c : Call) (s : State) : Res := done (serve 0x0101 c s)
def execSessionInfo (c : Call) (s : State) : Res := done (serve 0x0102 c s)
def execEcho (c : Call) (s : State) : Res := done (serve 0x0103 c s)
def execIdent (c : Call) (s : State) : Res := done (serve 0x0104 c s)
def execPolicyLoad (c : Call) (s : State) : Res := done (serve 0x0201 c s)
def execPolicyGet (c : Call) (s : State) : Res := done (serve 0x0202 c s)
def execPortCfg (c : Call) (s : State) : Res := done (serve 0x0203 c s)
def execPairCfg (c : Call) (s : State) : Res := done (serve 0x0204 c s)
def execRxqCfg (c : Call) (s : State) : Res := done (serve 0x0205 c s)
def execTxqCfg (c : Call) (s : State) : Res := done (serve 0x0206 c s)
def execRxmapSet (c : Call) (s : State) : Res := done (serve 0x0207 c s)
def execCfgGet (c : Call) (s : State) : Res := done (serve 0x0208 c s)
def execStreamAdd (c : Call) (s : State) : Res := done (serve 0x0301 c s)
def execStreamDel (c : Call) (s : State) : Res := done (serve 0x0302 c s)
def execStreamMod (c : Call) (s : State) : Res := done (serve 0x0303 c s)
def execStreamGet (c : Call) (s : State) : Res := done (serve 0x0304 c s)
def execStreamMove (c : Call) (s : State) : Res := done (serve 0x0305 c s)
def execKeyLoad (c : Call) (s : State) : Res := done (serve 0x0401 c s)
def execKeyRelease (c : Call) (s : State) : Res := done (serve 0x0402 c s)
def execKeyInfo (c : Call) (s : State) : Res := done (serve 0x0403 c s)
def execAssocLoad (c : Call) (s : State) : Res := done (serve 0x0404 c s)
def execTxnOpen (c : Call) (s : State) : Res := done (serve 0x0501 c s)
def execTxnCommit (c : Call) (s : State) : Res := done (serve 0x0502 c s)
def execTxnAbort (c : Call) (s : State) : Res := done (serve 0x0503 c s)
def execTxnStatus (c : Call) (s : State) : Res := done (serve 0x0504 c s)
def execEpochAdvance (c : Call) (s : State) : Res := done (serve 0x0505 c s)
def execTimeGet (c : Call) (s : State) : Res := done (serve 0x0601 c s)
def execTimeSet (c : Call) (s : State) : Res := done (serve 0x0602 c s)
def execTimeFeed (c : Call) (s : State) : Res := done (serve 0x0603 c s)
def execTimeSrc (c : Call) (s : State) : Res := done (serve 0x0604 c s)
def execPpsCfg (c : Call) (s : State) : Res := done (serve 0x0605 c s)
def execTcCfg (c : Call) (s : State) : Res := done (serve 0x0606 c s)
def execTimeCfg (c : Call) (s : State) : Res := done (serve 0x0607 c s)
def execConsSet (c : Call) (s : State) : Res := done (serve 0x0701 c s)
def execConsDel (c : Call) (s : State) : Res := done (serve 0x0702 c s)
def execConsGet (c : Call) (s : State) : Res := done (serve 0x0703 c s)
def execConsStatus (c : Call) (s : State) : Res := done (serve 0x0704 c s)
def execVkeyGen (c : Call) (s : State) : Res := done (serve 0x0801 c s)
def execVkeyImport (c : Call) (s : State) : Res := done (serve 0x0802 c s)
def execVkeyDestroy (c : Call) (s : State) : Res := done (serve 0x0803 c s)
def execVkeyInfo (c : Call) (s : State) : Res := done (serve 0x0804 c s)
def execVcBlock (c : Call) (s : State) : Res := done (serve 0x0805 c s)
def execVcDecryptVerify (c : Call) (s : State) : Res := done (serve 0x0806 c s)
def execVcHash (c : Call) (s : State) : Res := done (serve 0x0807 c s)
def execModOp (c : Call) (s : State) : Res := done (serve 0x0808 c s)
def execVsign (c : Call) (s : State) : Res := done (serve 0x0809 c s)
def execVverify (c : Call) (s : State) : Res := done (serve 0x080A c s)
def execRngGet (c : Call) (s : State) : Res := done (serve 0x080B c s)
def execNoiseStatus (c : Call) (s : State) : Res := done (serve 0x080C c s)
def execTagRead (c : Call) (s : State) : Res := done (serve 0x0901 c s)
def execTagWrite (c : Call) (s : State) : Res := done (serve 0x0902 c s)
def execTagCounter (c : Call) (s : State) : Res := done (serve 0x0903 c s)
def execTagAccess (c : Call) (s : State) : Res := done (serve 0x0904 c s)
def execClMode (c : Call) (s : State) : Res := done (serve 0x0905 c s)
def execBadgeRead (c : Call) (s : State) : Res := done (serve 0x0906 c s)
def execTamperStatus (c : Call) (s : State) : Res := done (serve 0x0A01 c s)
def execTamperTest (c : Call) (s : State) : Res := done (serve 0x0A02 c s)
def execLifecycleGet (c : Call) (s : State) : Res := done (serve 0x0A03 c s)
def execLifecycleSet (c : Call) (s : State) : Res := done (serve 0x0A04 c s)
def execUnlock (c : Call) (s : State) : Res := done (serve 0x0A05 c s)
def execDebugAuth (c : Call) (s : State) : Res := done (serve 0x0A06 c s)
def execRootRevoke (c : Call) (s : State) : Res := done (serve 0x0A07 c s)
def execOwnTake (c : Call) (s : State) : Res := done (serve 0x0A08 c s)
def execSnapshot (c : Call) (s : State) : Res := done (serve 0x0B01 c s)
def execSelftest (c : Call) (s : State) : Res := done (serve 0x0B02 c s)
def execPumpRestore (c : Call) (s : State) : Res := done (serve 0x0B03 c s)
def execMarchRun (c : Call) (s : State) : Res := done (serve 0x0B04 c s)
def execLoopback (c : Call) (s : State) : Res := done (serve 0x0B05 c s)
def execFwInfo (c : Call) (s : State) : Res := done (serve 0x0C01 c s)
def execFwBegin (c : Call) (s : State) : Res := done (serve 0x0C02 c s)
def execFwChunk (c : Call) (s : State) : Res := done (serve 0x0C03 c s)
def execFwActivate (c : Call) (s : State) : Res := done (serve 0x0C04 c s)
def execFwRollback (c : Call) (s : State) : Res := done (serve 0x0C05 c s)
def execAppletLoad (c : Call) (s : State) : Res := done (serve 0x0C06 c s)
def execAppletCtl (c : Call) (s : State) : Res := done (serve 0x0C07 c s)
def execCalGet (c : Call) (s : State) : Res := done (serve 0x0D01 c s)
def execCalSet (c : Call) (s : State) : Res := done (serve 0x0D02 c s)
def execCalClear (c : Call) (s : State) : Res := done (serve 0x0D03 c s)
def execEvCfg (c : Call) (s : State) : Res := done (serve 0x0E01 c s)
def execEvRead (c : Call) (s : State) : Res := done (serve 0x0E02 c s)
def execSumpRead (c : Call) (s : State) : Res := done (serve 0x0E03 c s)
def execSumpClear (c : Call) (s : State) : Res := done (serve 0x0E04 c s)
def execLogRead (c : Call) (s : State) : Res := done (serve 0x0E05 c s)

end Sys2Proof.Machine
end

