-- ==== Sys2Proof/Machine/HostRegs.lean ====
section
/-! DEFINITION. The host register map and the register rows (R12 to R14, R510 to R513, R519 to R524, R528), and the command
ring registers (R227, R228, R522). -/
namespace Sys2Proof.Machine

/-! ## Who can write -/

/-- Host writes reach BAR0: the device runs and the link carries them (R457, R486, R487). -/
def hostReaches (s : State) : Bool := running s && !pcieDown s

/-- The keeper of a core executes a store: these rows stand for its bus write, which the valve table granted (log 72). -/
def keeperActs (k : CoreId) (s : State) : Bool := coreRuns k s && (cpu k s).priv

/-! ## Event registers (R510 to R513, R521) -/

/-- EV_PEND, RW1C: the host's view only. -/
def clearPend (bits : BitVec 256) (s : State) : State := evChange (fun e => { e with pend := e.pend &&& ~~~ bits }) s

/-- One bank of a 256-bit register takes a word. -/
def withBank (x : BitVec 256) (bank : Nat) (v : Word) : BitVec 256 :=
  (x &&& ~~~ bankBits bank (BitVec.allOnes 32)) ||| bankBits bank v

/-- EV_MASK: a write of the host in its turn before an EV_CFG of the same clock (R514, log 101). -/
def writeMask (bank : Nat) (v : Word) (s : State) : State :=
  evChange (fun e => { e with mask := withBank e.mask bank v }) (inTurn turnEvCfg 0 0 s)

/-- EV_LVL: sixteen levels of two bits, before an EV_CFG of the same clock (R514, log 101). -/
def writeLevels (i : Nat) (v : Word) (s : State) : State :=
  evChange (fun e => (List.range 16).foldl (fun e j => setLvl (16 * i + j) (v.toNat / 4 ^ j % 4) e) e)
    (inTurn turnEvCfg 0 0 s)

def writeEvents (off : Nat) (v : Word) (s : State) : State :=
  if off < 0x20 then clearPend (bankBits (off / 4) v) s
  else if off < 0x40 then writeMask (off / 4 - 8) v s
  else if off < 0x80 then writeLevels (off / 4 - 16) v s
  else if off = 0x80 then onEv (fun e => { e with alertLvl := v.toNat % 8 }) s
  else s

/-! ## Command rings (R522) -/

/-- A write of CRQ_BASE_HI: bases and size are committed, the pointers are 0, the session is unnegotiated, and replies
owed to it are discarded. -/
def commitRing (r : Fin 4) (v : Word) (s : State) : State :=
  let s := orphan (.ring r) s
  onRing r (fun g =>
    let n := g.sizeReg
    { g with
      reqHi := v, reqBase := g.reqLo.toNat + 2 ^ 32 * v.toNat, rspBase := g.rspLo.toNat + 2 ^ 32 * g.rspHi.toNat
      size := if 4 ≤ n && n ≤ 10 then 2 ^ n else 0
      reqTail := 0, reqHead := 0, rspHead := 0, rspTail := 0, phase := true, sess := {}, fetched := [] }) s

/-- CRP_HEAD: entries before it are returned. A value at or above the ring size is taken modulo the size, as R523 says of
the queues and R522 does not of the rings (DESIGN CHOICE, log 118). -/
def returnReplies (r : Fin 4) (v : Nat) (s : State) : State :=
  onRing r (fun g => { g with rspHead := if g.size = 0 then v % 1024 else v % 1024 % g.size }) s

/-- The doorbell: the entries up to the tail, taken modulo the ring size (DESIGN CHOICE, log 118), are the device's to
take. -/
def ringDoorbell (r : Fin 4) (tail : Nat) (reqs : List RingReq) (s : State) : State :=
  onRing r (fun g =>
    if g.size = 0 then { g with reqTail := tail % 1024 }
    else
      let t := tail % 1024 % g.size
      let n := (t + g.size - g.reqTail) % g.size
      let given := reqs.take n ++ List.replicate (n - reqs.length) { entry := [], packet := [] }
      { g with reqTail := t, fetched := g.fetched ++ given }) s

/-- The registers of a ring pair without rows of their own; bits [5:0] of the low base words read 0. -/
def writeRing (r : Fin 4) (off : Nat) (v : Word) (s : State) : State :=
  match off with
  | 0x00 => onRing r (fun g => { g with reqLo := v &&& 0xFFFFFFC0 }) s
  | 0x04 => commitRing r v s
  | 0x08 => onRing r (fun g => { g with rspLo := v &&& 0xFFFFFFC0 }) s
  | 0x0C => onRing r (fun g => { g with rspHi := v }) s
  | 0x10 => onRing r (fun g => { g with sizeReg := v.toNat % 16 }) s
  | 0x1C => returnReplies r v.toNat s
  | 0x24 => onRing r (fun g => { g with intMask := v.getLsbD 0 }) s
  | _ => s

/-! ## Queues and MSI-X (R512, R523) -/

def writeRxMask (q : Nat) (v : Word) (s : State) : State :=
  onFp (fun f => { f with rxq := smMod {} f.rxq q (fun x => { x with intMask := v.getLsbD 0 }) }) s

def writeTxMask (q : Nat) (v : Word) (s : State) : State :=
  onFp (fun f => { f with txq := smMod {} f.txq q (fun x => { x with intMask := v.getLsbD 0 }) }) s

/-- A vector's control word: unmasking a vector whose pending bit is set sends its message (PCI Express, PRESUMED log 8). -/
def writeVectorMask (n : Nat) (m : Bool) (s : State) : State :=
  let bit := BitVec.twoPow 64 n
  if m then onEv (fun e => { e with msixMask := e.msixMask ||| bit }) s
  else
    let owed := s.ev.msixPba.getLsbD n
    let s := onEv (fun e => { e with msixMask := e.msixMask &&& ~~~ bit, msixPba := e.msixPba &&& ~~~ bit }) s
    if owed then msix n s else s

/-- The MSI-X table: address and data words as written, the mask bit of each vector. -/
def writeMsix (off : Nat) (v : Word) (s : State) : State :=
  if off % 16 = 12 then writeVectorMask (off / 16) (v.getLsbD 0) s
  else onEv (fun e => { e with msixTable := smSet 0 e.msixTable (off / 4) v.toNat }) s

/-- A write at an offset of BAR0 (R519); RO and reserved registers keep their value, and the doorbells CRQ_TAIL, DTAIL and
CHEAD, which carry more than their word, have rows of their own. -/
def writeBar (a : Nat) (v : Word) (s : State) : State :=
  if 0x1000 ≤ a && a < 0x2000 then writeEvents (a - 0x1000) v s
  else if 0x2000 ≤ a && a < 0x2100 then writeRing (Fin.ofNat 4 ((a - 0x2000) / 0x40)) (a % 0x40) v s
  else if 0x4000 ≤ a && a < 0x4800 && a % 0x20 = 0x10 then writeRxMask ((a - 0x4000) / 0x20) v s
  else if 0x5000 ≤ a && a < 0x5800 && a % 0x20 = 0x10 then writeTxMask ((a - 0x5000) / 0x20) v s
  else if 0x6000 ≤ a && a < 0x6400 then writeMsix (a - 0x6000) v s
  else s

/-! ## Rows -/

def execEvPend (bank : Fin 8) (v : Word) (s : State) : Res :=
  done (if hostReaches s then clearPend (bankBits bank.val v) s else s)

def execIntcPend (k : CoreId) (bank : Fin 8) (v : Word) (s : State) : Res :=
  done (if keeperActs k s then clearIntc k (bankBits bank.val v) s else s)

def execEvRaise (k : CoreId) (v : Word) (s : State) : Res := done (if keeperActs k s then raiseByCore k v s else s)

def execSumpClr (k : CoreId) (bank : Fin 8) (v : Word) (s : State) : Res :=
  done (if keeperActs k s then clearSump k (bankBits bank.val v) s else s)

def execValveEntryCommit (k : CoreId) (entry : Fin 256) (v : Word) (s : State) : Res :=
  done (if keeperActs k s then onValve k entry.val (valveCommit v) s else s)

/-- ESCREQ: a write of CORE_CTL with bit 1 set (R450, R466). -/
def execEscreq (k : CoreId) (v : Word) (s : State) : Res :=
  done (if keeperActs k s then escalate k (cpu k s).pc 1 (writeLocal k 0xC v s) else s)

def execCrpHead (ring : Fin 4) (v : Nat) (s : State) : Res :=
  done (if hostReaches s then settle (returnReplies ring v s) else s)

def execCrqBaseHi (ring : Fin 4) (v : Word) (s : State) : Res :=
  done (if hostReaches s then settle (commitRing ring v s) else s)

def execCrqTail (ring : Fin 4) (tail : Nat) (reqs : List RingReq) (s : State) : Res :=
  done (if hostReaches s then settle (ringDoorbell ring tail reqs s) else s)

/-- REGISTER_WRITE: by the host at a BAR offset, or by a core's keeper at an address of a register block. -/
def execRegisterWrite (by_ : RegBus) (addr : Nat) (v : Word) (s : State) : Res :=
  match by_ with
  | .host => done (if hostReaches s then settle (writeBar addr v s) else s)
  | .core k =>
    if !keeperActs k s then done s
    else
      match slaveWrite k true (k == .vault && fromRom s) addr 4 v s with
      | (.vendor, _) => .refused (.vendorBlock addr)
      | (.escreq, s) => done (settle (escalate k (cpu k s).pc 1 s))
      | (.value _, t) =>
        match placeOf k addr with
        | .reg _ _ => done (settle t)
        | _ => done s
      | _ => done s

end Sys2Proof.Machine
end

