-- ==== Sys2Proof/Machine/IsaMac.lean ====
section
/-! DEFINITION. The multiply-accumulate group (R427 to R430). -/
namespace Sys2Proof.Machine

abbrev Acc80 := BitVec 80

/-- PX lies in the X memory, PY in the Y memory (R427). -/
def inX (k : CoreId) (a : Nat) : Bool :=
  match k with
  | .control => 0x10000000 ≤ a && a < 0x10100000
  | .vault => 0x100000 ≤ a && a < 0x140000

def inY (k : CoreId) (a : Nat) : Bool :=
  match k with
  | .control => 0x10100000 ≤ a && a < 0x10200000
  | .vault => 0x140000 ≤ a && a < 0x180000

/-- A pointer after a step of a signed byte of STRIDE, in words (R411, R428). -/
def stepPtr (p : Word) (stride : Word) (lo : Nat) : Word := p + 4 * (stride.extractLsb' lo 8).signExtend 32

/-- The accumulator and the pointers after a MACX. -/
def macDone (acc : Fin 4) (f : Acc80 → Word → Word → Acc80) (x y : Word) (c : Cpu) : Cpu :=
  { c with acc := c.acc.set acc (f c.acc[acc] x y), px := stepPtr c.px c.stride 0, py := stepPtr c.py c.stride 8 }

/-- A MACX: both fetches checked and made, X first, then the accumulation; a fault changes nothing (R427, R430). -/
def macFetch (k : CoreId) (acc : Fin 4) (f : Acc80 → Word → Word → Acc80) (s : State) : Res :=
  instr k (fun _ s =>
    let x := (cpu k s).px.toNat
    let y := (cpu k s).py.toNat
    if !inX k x || !inY k y || x % 4 ≠ 0 || y % 4 ≠ 0 then done (trap k 4 0 s)
    else
      match coreLoad k x 4 .clean s with
      | .value vx s =>
        conclude k y (coreLoad k y 4 .clean s) (fun vy c =>
          (macDone acc f (BitVec.ofNat 32 vx) (BitVec.ofNat 32 vy) c).retire (c.pc + 4))
      | a => conclude k x a (fun _ c => c)) s

def mulSigned (a b : Word) : Acc80 := BitVec.ofInt 80 (a.toInt * b.toInt)
def mulUnsigned (a b : Word) : Acc80 := BitVec.ofNat 80 (a.toNat * b.toNat)

def execMacx (k : CoreId) (acc : Fin 4) (s : State) : Res := macFetch k acc (fun a x y => a + mulSigned x y) s
def execMacxu (k : CoreId) (acc : Fin 4) (s : State) : Res := macFetch k acc (fun a x y => a + mulUnsigned x y) s
def execMsux (k : CoreId) (acc : Fin 4) (s : State) : Res := macFetch k acc (fun a x y => a - mulSigned x y) s

/-- An accumulator takes a value formed from the core's registers. -/
def setsAcc (k : CoreId) (acc : Fin 4) (v : Cpu → Acc80) (s : State) : Res :=
  instr k (fun _ s => done (onCpu k (fun c => { c with acc := c.acc.set acc (v c) }.retire (c.pc + 4)) s)) s

def execMacr (k : CoreId) (acc : Fin 4) (rd rs : Reg) (s : State) : Res :=
  setsAcc k acc (fun c => c.acc[acc] + mulSigned (c.get rd) (c.get rs)) s

/-- One part of an accumulator (R428); part 2 is sign-extended. -/
def accPart (a : Acc80) (part : Fin 3) : Word :=
  if part = 0 then a.extractLsb' 0 32
  else if part = 1 then a.extractLsb' 32 32
  else (a.extractLsb' 64 16).signExtend 32

def setPart (a : Acc80) (part : Fin 3) (v : Word) : Acc80 :=
  if part = 0 then a.extractLsb' 32 48 ++ v
  else if part = 1 then a.extractLsb' 64 16 ++ v ++ a.extractLsb' 0 32
  else v.extractLsb' 0 16 ++ a.extractLsb' 0 64

def execMfa (k : CoreId) (rd : Reg) (acc : Fin 4) (part : Fin 3) (s : State) : Res :=
  writesReg k rd (fun c => accPart c.acc[acc] part) s

def execMta (k : CoreId) (acc : Fin 4) (rs : Reg) (part : Fin 3) (s : State) : Res :=
  setsAcc k acc (fun c => setPart c.acc[acc] part (c.get rs)) s

def execClra (k : CoreId) (acc : Fin 4) (s : State) : Res := setsAcc k acc (fun _ => 0) s

def execShra (k : CoreId) (acc : Fin 4) (sh : BitVec 6) (s : State) : Res :=
  setsAcc k acc (fun c => c.acc[acc].sshiftRight sh.toNat) s

end Sys2Proof.Machine
end

