-- ==== Sys2Proof/Machine/Rows.lean ====
section
/-! DEFINITION. Rows that move waiting commands on: the engines, the riser, the key store, badges, the march test, flash
completion, SPI, the command application, and applet system calls (R19, R22, R133, R163, R229, R250 to R274, R298, R315,
R327, R366, R378, R391, R453). -/
namespace Sys2Proof.Machine

/-- An event that has no effect while the dies do not run, and after which commands may go on. -/
def moves (f : State → State) (s : State) : Res := done (if running s then settle (f s) else s)

/-- The same after time has passed. -/
def movesAfter (dt : Nat) (f : State → State) (s : State) : Res := moves f (advance dt s)

/-! ## Engines (R250 to R274) -/

def execVcQtail (v : Word) (s : State) : Res := moves (writeVcTail v.toNat) s
def execMeQtail (v : Word) (s : State) : Res := moves (writeMeTail v.toNat) s

/-- A write of ME_CTL with ABORT set. -/
def execMeCtlAbort (v : Word) (s : State) : Res := moves (writeMeCtl (v ||| 1).toNat) s

def execVcEnc (s : State) : Res := moves (vcStep 0x01) s
def execVcDec (s : State) : Res := moves (vcStep 0x02) s
def execKeystream (s : State) : Res := moves (vcStep 0x03) s
def execVdec (s : State) : Res := moves (vcStep 0x04) s
def execNonceBase (s : State) : Res := moves (vcStep 0x05) s
def execSha256 (s : State) : Res := moves (vcStep 0x10) s
def execSha512 (s : State) : Res := moves (vcStep 0x11) s
def execHkey (s : State) : Res := moves (vcStep 0x12) s

def execModadd (s : State) : Res := moves (meStep 0x01 false) s
def execModsub (s : State) : Res := moves (meStep 0x02 false) s
def execModmul (s : State) : Res := moves (meStep 0x03 false) s
def execModexp (s : State) : Res := moves (meStep 0x04 false) s
def execModinv (s : State) : Res := moves (meStep 0x05 false) s
def execEcbase (resultFaulty : Bool) (s : State) : Res := moves (meStep 0x10 resultFaulty) s
def execEcmul (resultFaulty : Bool) (s : State) : Res := moves (meStep 0x11 resultFaulty) s
def execEcmul2 (resultFaulty : Bool) (s : State) : Res := moves (meStep 0x12 resultFaulty) s
def execEccheck (s : State) : Res := moves (meStep 0x13 false) s
def execX25519 (resultFaulty : Bool) (s : State) : Res := moves (meStep 0x14 resultFaulty) s
def execNtt (s : State) : Res := moves (meStep 0x20 false) s
def execIntt (s : State) : Res := moves (meStep 0x21 false) s
def execPmul (s : State) : Res := moves (meStep 0x22 false) s
def execPadd (s : State) : Res := moves (meStep 0x23 false) s
def execPsub (s : State) : Res := moves (meStep 0x24 false) s

/-! ## Tamper, key store, riser -/

/-- Sources become active; the tamper logic runs in reset too (R317, R489). -/
def execTamperFire (dt : Nat) (srcs : BitVec 32) (s : State) : Res :=
  let s := tamperFires srcs (advance dt s)
  done (if running s then settle s else s)
def execKeyStoreLoad (s : State) : Res := moves storeLoad s
def execSlotDrained (slot : Nat) (s : State) : Res := moves (slotDrained slot) s
def execRiserGroupReceived (dt : Nat) (toWellhead : Bool) (flips : BitVec 1024) (s : State) : Res :=
  movesAfter dt (groupReceived toWellhead flips) s
def execRetrainComplete (dt : Nat) (s : State) : Res := movesAfter dt retrainDone s
def execRiserDown (dt : Nat) (s : State) : Res := movesAfter dt riserGoesDown s

/-! ## Badges, march test, flash, swaps -/

def execBadgePoll (dt : Nat) (extField : Bool) (s : State) : Res := movesAfter dt (badgePoll extField) s
def execBadgeResponse (dt : Nat) (r : BadgeFrame) (s : State) : Res := movesAfter dt (badgeResponse r) s
def execBadgeTimeout (dt : Nat) (s : State) : Res := movesAfter dt badgeTimeout s
def execMarchBlock (dt : Nat) (m : MemId) (block : Nat) (fails : List Nat) (s : State) : Res :=
  movesAfter dt (marchBlock m block fails) s
def execFlashDone (dt : Nat) (verifyOk : Bool) (s : State) : Res := movesAfter dt (flashDone verifyOk) s
def execFwActivateInstant (dt : Nat) (s : State) : Res := movesAfter dt armedSwaps s

/-! ## SPI (R229) -/

/-- The SPI target answers: the device runs and its pins are its own. -/
def spiUp (s : State) : Bool := running s && !pinsTaken s

/-- PUT: taken while SPACE is 1, else answered BUSY while a slot is free, else discarded and counted. -/
def execSpiPut (pkt : Bytes) (s : State) : Res :=
  let p := parsePacket 16384 pkt
  let c : Call := { via := .spi, desc := 0, pkt := p.pkt }
  if !spiUp s then done s
  else if spiSpace s then done (settle (offer .spi pkt s))
  else done (spiTurnAway p.opcode c s)

/-- GET, with the number of bytes shifted out after the dummy byte; a reply shifted out whole is removed. -/
def execSpiGet (shifted : Nat) (s : State) : Res :=
  if !spiUp s then done s
  else
    match s.cmd.spiReplies with
    | [] => done (emit (.spi ([0, 0].take shifted)) s)
    | r :: rest =>
      let b := replyBytes r
      let s := emit (.spi ((natLE 2 b.length ++ b).take shifted)) s
      done (if 2 + b.length ≤ shifted then onCmd (fun x => { x with spiReplies := rest }) s else s)

/-- STATUS: RDY, SPACE, RSP. -/
def execSpiStatus (s : State) : Res :=
  if !spiUp s then done s
  else
    done (emit (.spi [BitVec.ofNat 8 (b2n (isReady s) + 2 * b2n (spiSpace s) + 4 * b2n (s.cmd.spiReplies ≠ []))]) s)

/-! ## The command application (R298) -/

/-- EXEC: one command packet in the session that SELECT opened; 6985 when the vault core is not available. -/
def execExec7816 (pkt : Bytes) (s : State) : Res :=
  if !apduReady s || s.cl.app ≠ .command || s.cl.execAt.isSome then done s
  else if !vaultRuns s then done (sw 0x6985 s)
  else done (settle (offer .contactless pkt (readerFrame (onCl (fun c => { c with execAt := some s.clk.now }) s))))

/-! ## Applet system calls (R412, R453; log 73) -/

/-- The applet a core runs: its number, while the core runs it and it does not wait. -/
def callingApplet (k : CoreId) (s : State) : Option Nat :=
  let i := appletKey k (cpu k s).tid.toNat
  let a := appletOf i s
  if coreRuns k s && a.running && a.wait == .none then some i else none

def arg (k : CoreId) (r : Reg) (s : State) : Nat := (gpr k r s).toNat
def result (k : CoreId) (r : Reg) (v : Nat) (s : State) : State := setGpr k r (BitVec.ofNat 32 v) s

/-- A request in an applet's memory: its header and PLEN bytes. -/
def appletPacket (k : CoreId) (a : Nat) (s : State) : Bytes :=
  let plen := leNat (ramGet k (a + 10) 2 s)
  ramGet k a (16 + min plen 16384) s

/-- CMD_SUBMIT: BUSY at 4 outstanding; BAD_PARAM for a reply buffer below 16,384 bytes; else the packet is taken, and its
reply, refusals of R220 included, comes to the buffer. -/
def execCmdSubmit (k : CoreId) (s : State) : Res :=
  match callingApplet k s with
  | none => done s
  | some i =>
    let v : Via := .applet k (cpu k s).tid.toNat
    let b := appletPacket k (arg k 1 s) s
    let p := parsePacket 16384 b
    let dst := arg k 2 s
    if 4 ≤ (outstanding v s).length + stuckOf v s then done (result k 1 stBusy s)
    else if arg k 3 s < 16384 then done (result k 1 stBadParam s)
    else
      let s := result k 1 stOk (onApplet i (fun a => { a with bufs := (p.pkt.tag, dst) :: a.bufs }) s)
      done (settle (offer v b s))

/-- The tick at which a timeout in microseconds ends; 0 means none. -/
def deadline (us : Nat) (s : State) : Option Nat := if us = 0 then none else some (s.clk.now + usTicks us)

/-- CMD_WAIT: the reply with the tag, now or when it comes. -/
def execCmdWait (k : CoreId) (s : State) : Res :=
  match callingApplet k s with
  | none => done s
  | some i =>
    let tag := arg k 1 s
    match (appletOf i s).replies.find? (fun r => r.tag == tag) with
    | some r =>
      let s := onApplet i (fun a => { a with replies := a.replies.eraseP (fun r => r.tag == tag) }) s
      done (result k 2 (replyBytes r).length (result k 1 stOk s))
    | none => done (onApplet i (fun a => { a with wait := .reply tag (deadline (arg k 2 s) s) }) s)

/-- EV_WAIT: the next raise of the source. -/
def execEvWait (k : CoreId) (s : State) : Res :=
  match callingApplet k s with
  | none => done s
  | some i => done (onApplet i (fun a => { a with wait := .event (arg k 1 s) (deadline (arg k 2 s) s) }) s)

/-- YIELD: the keeper may run another applet; nothing the spec names changes. -/
def execYield (_k : CoreId) (s : State) : Res := done s

/-- EXIT: the applet is stopped. -/
def execExit (k : CoreId) (s : State) : Res :=
  match callingApplet k s with
  | none => done s
  | some i => done (stopApplet i s)

/-- The wait's time is over. -/
def waitOver (w : AppWait) (now : Nat) : Bool :=
  match w with
  | .reply _ (some t) => t ≤ now
  | .event _ (some t) => t ≤ now
  | _ => false

/-- SYSTEM_CALL_TIMEOUT: the waits of a core's applets that have run out return BUSY. -/
def execSystemCallTimeout (dt : Nat) (k : CoreId) (s : State) : Res :=
  let s := advance dt s
  if !running s then done s
  else
    done (settle ((List.range 16).foldl (fun s t =>
      let i := appletKey k t
      if waitOver (appletOf i s).wait s.clk.now then onApplet i (fun a => { a with wait := .done stBusy 0 }) s else s) s))

end Sys2Proof.Machine
end

