-- ==== Sys2Proof/Machine/Dispatch.lean ====
section
/-! DEFINITION. What each command does: one arm per constructor of Instr, in the table's order. -/
namespace Sys2Proof.Machine

def exec (i : Instr) (s : State) : Host.Outcome State Fault Refusal :=
  match i with
  | .hello c => Sys2Proof.Machine.execHello c s
  | .sessionInfo c => Sys2Proof.Machine.execSessionInfo c s
  | .echo c => Sys2Proof.Machine.execEcho c s
  | .ident c => Sys2Proof.Machine.execIdent c s
  | .policyLoad c => Sys2Proof.Machine.execPolicyLoad c s
  | .policyGet c => Sys2Proof.Machine.execPolicyGet c s
  | .portCfg c => Sys2Proof.Machine.execPortCfg c s
  | .pairCfg c => Sys2Proof.Machine.execPairCfg c s
  | .rxqCfg c => Sys2Proof.Machine.execRxqCfg c s
  | .txqCfg c => Sys2Proof.Machine.execTxqCfg c s
  | .rxmapSet c => Sys2Proof.Machine.execRxmapSet c s
  | .cfgGet c => Sys2Proof.Machine.execCfgGet c s
  | .streamAdd c => Sys2Proof.Machine.execStreamAdd c s
  | .streamDel c => Sys2Proof.Machine.execStreamDel c s
  | .streamMod c => Sys2Proof.Machine.execStreamMod c s
  | .streamGet c => Sys2Proof.Machine.execStreamGet c s
  | .streamMove c => Sys2Proof.Machine.execStreamMove c s
  | .keyLoad c => Sys2Proof.Machine.execKeyLoad c s
  | .keyRelease c => Sys2Proof.Machine.execKeyRelease c s
  | .keyInfo c => Sys2Proof.Machine.execKeyInfo c s
  | .assocLoad c => Sys2Proof.Machine.execAssocLoad c s
  | .txnOpen c => Sys2Proof.Machine.execTxnOpen c s
  | .txnCommit c => Sys2Proof.Machine.execTxnCommit c s
  | .txnAbort c => Sys2Proof.Machine.execTxnAbort c s
  | .txnStatus c => Sys2Proof.Machine.execTxnStatus c s
  | .epochAdvance c => Sys2Proof.Machine.execEpochAdvance c s
  | .timeGet c => Sys2Proof.Machine.execTimeGet c s
  | .timeSet c => Sys2Proof.Machine.execTimeSet c s
  | .timeFeed c => Sys2Proof.Machine.execTimeFeed c s
  | .timeSrc c => Sys2Proof.Machine.execTimeSrc c s
  | .ppsCfg c => Sys2Proof.Machine.execPpsCfg c s
  | .tcCfg c => Sys2Proof.Machine.execTcCfg c s
  | .timeCfg c => Sys2Proof.Machine.execTimeCfg c s
  | .consSet c => Sys2Proof.Machine.execConsSet c s
  | .consDel c => Sys2Proof.Machine.execConsDel c s
  | .consGet c => Sys2Proof.Machine.execConsGet c s
  | .consStatus c => Sys2Proof.Machine.execConsStatus c s
  | .vkeyGen c => Sys2Proof.Machine.execVkeyGen c s
  | .vkeyImport c => Sys2Proof.Machine.execVkeyImport c s
  | .vkeyDestroy c => Sys2Proof.Machine.execVkeyDestroy c s
  | .vkeyInfo c => Sys2Proof.Machine.execVkeyInfo c s
  | .vcBlock c => Sys2Proof.Machine.execVcBlock c s
  | .vcDecryptVerify c => Sys2Proof.Machine.execVcDecryptVerify c s
  | .vcHash c => Sys2Proof.Machine.execVcHash c s
  | .modOp c => Sys2Proof.Machine.execModOp c s
  | .vsign c => Sys2Proof.Machine.execVsign c s
  | .vverify c => Sys2Proof.Machine.execVverify c s
  | .rngGet c => Sys2Proof.Machine.execRngGet c s
  | .noiseStatus c => Sys2Proof.Machine.execNoiseStatus c s
  | .tagRead c => Sys2Proof.Machine.execTagRead c s
  | .tagWrite c => Sys2Proof.Machine.execTagWrite c s
  | .tagCounter c => Sys2Proof.Machine.execTagCounter c s
  | .tagAccess c => Sys2Proof.Machine.execTagAccess c s
  | .clMode c => Sys2Proof.Machine.execClMode c s
  | .badgeRead c => Sys2Proof.Machine.execBadgeRead c s
  | .tamperStatus c => Sys2Proof.Machine.execTamperStatus c s
  | .tamperTest c => Sys2Proof.Machine.execTamperTest c s
  | .lifecycleGet c => Sys2Proof.Machine.execLifecycleGet c s
  | .lifecycleSet c => Sys2Proof.Machine.execLifecycleSet c s
  | .unlock c => Sys2Proof.Machine.execUnlock c s
  | .debugAuth c => Sys2Proof.Machine.execDebugAuth c s
  | .rootRevoke c => Sys2Proof.Machine.execRootRevoke c s
  | .ownTake c => Sys2Proof.Machine.execOwnTake c s
  | .snapshot c => Sys2Proof.Machine.execSnapshot c s
  | .selftest c => Sys2Proof.Machine.execSelftest c s
  | .pumpRestore c => Sys2Proof.Machine.execPumpRestore c s
  | .marchRun c => Sys2Proof.Machine.execMarchRun c s
  | .loopback c => Sys2Proof.Machine.execLoopback c s
  | .fwInfo c => Sys2Proof.Machine.execFwInfo c s
  | .fwBegin c => Sys2Proof.Machine.execFwBegin c s
  | .fwChunk c => Sys2Proof.Machine.execFwChunk c s
  | .fwActivate c => Sys2Proof.Machine.execFwActivate c s
  | .fwRollback c => Sys2Proof.Machine.execFwRollback c s
  | .appletLoad c => Sys2Proof.Machine.execAppletLoad c s
  | .appletCtl c => Sys2Proof.Machine.execAppletCtl c s
  | .calGet c => Sys2Proof.Machine.execCalGet c s
  | .calSet c => Sys2Proof.Machine.execCalSet c s
  | .calClear c => Sys2Proof.Machine.execCalClear c s
  | .evCfg c => Sys2Proof.Machine.execEvCfg c s
  | .evRead c => Sys2Proof.Machine.execEvRead c s
  | .sumpRead c => Sys2Proof.Machine.execSumpRead c s
  | .sumpClear c => Sys2Proof.Machine.execSumpClear c s
  | .logRead c => Sys2Proof.Machine.execLogRead c s
  | .spiPut pkt => Sys2Proof.Machine.execSpiPut pkt s
  | .spiGet shifted => Sys2Proof.Machine.execSpiGet shifted s
  | .spiStatus => Sys2Proof.Machine.execSpiStatus s
  | .cmdSubmit k => Sys2Proof.Machine.execCmdSubmit k s
  | .cmdWait k => Sys2Proof.Machine.execCmdWait k s
  | .evWait k => Sys2Proof.Machine.execEvWait k s
  | .yield_ k => Sys2Proof.Machine.execYield k s
  | .exit k => Sys2Proof.Machine.execExit k s
  | .systemCallTimeout dt k => Sys2Proof.Machine.execSystemCallTimeout dt k s
  | .crqTail ring tail reqs => Sys2Proof.Machine.execCrqTail ring tail reqs s
  | .crqBaseHi ring v => Sys2Proof.Machine.execCrqBaseHi ring v s
  | .crpHead ring v => Sys2Proof.Machine.execCrpHead ring v s
  | .dtail q tail descs => Sys2Proof.Machine.execDtail q tail descs s
  | .chead q v => Sys2Proof.Machine.execChead q v s
  | .evPend bank v => Sys2Proof.Machine.execEvPend bank v s
  | .intcPend k bank v => Sys2Proof.Machine.execIntcPend k bank v s
  | .evRaise k v => Sys2Proof.Machine.execEvRaise k v s
  | .sumpClr k bank v => Sys2Proof.Machine.execSumpClr k bank v s
  | .tuCtlStep v => Sys2Proof.Machine.execTuCtlStep v s
  | .tuCtlSnap v => Sys2Proof.Machine.execTuCtlSnap v s
  | .tuUncert v => Sys2Proof.Machine.execTuUncert v s
  | .valveEntryCommit k entry v => Sys2Proof.Machine.execValveEntryCommit k entry v s
  | .escreq k v => Sys2Proof.Machine.execEscreq k v s
  | .meCtlAbort v => Sys2Proof.Machine.execMeCtlAbort v s
  | .vcQtail v => Sys2Proof.Machine.execVcQtail v s
  | .meQtail v => Sys2Proof.Machine.execMeQtail v s
  | .nwRand rd => Sys2Proof.Machine.execNwRand rd s
  | .cycleLo k rd => Sys2Proof.Machine.execCycleLo k rd s
  | .registerWrite by_ addr v => Sys2Proof.Machine.execRegisterWrite by_ addr v s
  | .frameReceive dt port sof f => Sys2Proof.Machine.execFrameReceive dt port sof f s
  | .entryReadComplete dt idx flips tagFlips => Sys2Proof.Machine.execEntryReadComplete dt idx flips tagFlips s
  | .ingressStep6 dt ticket errA errB => Sys2Proof.Machine.execIngressStep6 dt ticket errA errB s
  | .consistencyEvaluation dt => Sys2Proof.Machine.execConsistencyEvaluation dt s
  | .verdictRelease dt ticket => Sys2Proof.Machine.execVerdictRelease dt ticket s
  | .lateVerdict dt ticket => Sys2Proof.Machine.execLateVerdict dt ticket s
  | .spillStart dt q => Sys2Proof.Machine.execSpillStart dt q s
  | .stagingDraw q tagOk => Sys2Proof.Machine.execStagingDraw q tagOk s
  | .recordDelivery q e => Sys2Proof.Machine.execRecordDelivery q e s
  | .txDescriptorFetch q => Sys2Proof.Machine.execTxDescriptorFetch q s
  | .ticketRetry q => Sys2Proof.Machine.execTicketRetry q s
  | .txDataComplete dt ticket errA errB guardA guardB => Sys2Proof.Machine.execTxDataComplete dt ticket errA errB guardA guardB s
  | .egressRelease dt ticket => Sys2Proof.Machine.execEgressRelease dt ticket s
  | .lateRelease dt ticket => Sys2Proof.Machine.execLateRelease dt ticket s
  | .transmitComplete dt ticket port stamp => Sys2Proof.Machine.execTransmitComplete dt ticket port stamp s
  | .blockGrant => Sys2Proof.Machine.execBlockGrant s
  | .keyStoreLoad => Sys2Proof.Machine.execKeyStoreLoad s
  | .slotDrained slot => Sys2Proof.Machine.execSlotDrained slot s
  | .remaskSweep dt e => Sys2Proof.Machine.execRemaskSweep dt e s
  | .knownAnswerTest dt pump err => Sys2Proof.Machine.execKnownAnswerTest dt pump err s
  | .pairingRotation dt => Sys2Proof.Machine.execPairingRotation dt s
  | .maskReseed dt pump => Sys2Proof.Machine.execMaskReseed dt pump s
  | .maskReseedOverdue dt pump => Sys2Proof.Machine.execMaskReseedOverdue dt pump s
  | .linkChange port up => Sys2Proof.Machine.execLinkChange port up s
  | .riserGroupReceived dt toWellhead flips => Sys2Proof.Machine.execRiserGroupReceived dt toWellhead flips s
  | .retrainComplete dt => Sys2Proof.Machine.execRetrainComplete dt s
  | .riserDown dt => Sys2Proof.Machine.execRiserDown dt s
  | .riserKeyReplacement dt => Sys2Proof.Machine.execRiserKeyReplacement dt s
  | .txnArmedInstant dt slot => Sys2Proof.Machine.execTxnArmedInstant dt slot s
  | .settlingStart dt slot => Sys2Proof.Machine.execSettlingStart dt slot s
  | .settleEntry slot => Sys2Proof.Machine.execSettleEntry slot s
  | .cleanupEntry slot => Sys2Proof.Machine.execCleanupEntry slot s
  | .holdoverEntry dt => Sys2Proof.Machine.execHoldoverEntry dt s
  | .freerunEntry dt => Sys2Proof.Machine.execFreerunEntry dt s
  | .referenceLost dt => Sys2Proof.Machine.execReferenceLost dt s
  | .ppsInEdge dt rising sub => Sys2Proof.Machine.execPpsInEdge dt rising sub s
  | .ppsInMissing dt => Sys2Proof.Machine.execPpsInMissing dt s
  | .ppsOutEdge dt => Sys2Proof.Machine.execPpsOutEdge dt s
  | .ppsOutPulseEnd dt => Sys2Proof.Machine.execPpsOutPulseEnd dt s
  | .replicaReanchor dt => Sys2Proof.Machine.execReplicaReanchor dt s
  | .utcoffEffective dt => Sys2Proof.Machine.execUtcoffEffective dt s
  | .vcEnc => Sys2Proof.Machine.execVcEnc s
  | .vcDec => Sys2Proof.Machine.execVcDec s
  | .keystream => Sys2Proof.Machine.execKeystream s
  | .vdec => Sys2Proof.Machine.execVdec s
  | .nonceBase => Sys2Proof.Machine.execNonceBase s
  | .sha256 => Sys2Proof.Machine.execSha256 s
  | .sha512 => Sys2Proof.Machine.execSha512 s
  | .hkey => Sys2Proof.Machine.execHkey s
  | .modadd => Sys2Proof.Machine.execModadd s
  | .modsub => Sys2Proof.Machine.execModsub s
  | .modmul => Sys2Proof.Machine.execModmul s
  | .modexp => Sys2Proof.Machine.execModexp s
  | .modinv => Sys2Proof.Machine.execModinv s
  | .ecbase resultFaulty => Sys2Proof.Machine.execEcbase resultFaulty s
  | .ecmul resultFaulty => Sys2Proof.Machine.execEcmul resultFaulty s
  | .ecmul2 resultFaulty => Sys2Proof.Machine.execEcmul2 resultFaulty s
  | .eccheck => Sys2Proof.Machine.execEccheck s
  | .x25519 resultFaulty => Sys2Proof.Machine.execX25519 resultFaulty s
  | .ntt => Sys2Proof.Machine.execNtt s
  | .intt => Sys2Proof.Machine.execIntt s
  | .pmul => Sys2Proof.Machine.execPmul s
  | .padd => Sys2Proof.Machine.execPadd s
  | .psub => Sys2Proof.Machine.execPsub s
  | .conditioningBlock bank => Sys2Proof.Machine.execConditioningBlock bank s
  | .healthTestFailure dt osc adaptive => Sys2Proof.Machine.execHealthTestFailure dt osc adaptive s
  | .startupTestComplete bank => Sys2Proof.Machine.execStartupTestComplete bank s
  | .noiseEstimate osc bias lags => Sys2Proof.Machine.execNoiseEstimate osc bias lags s
  | .drbgReseed dt => Sys2Proof.Machine.execDrbgReseed dt s
  | .engineMaskReseed dt => Sys2Proof.Machine.execEngineMaskReseed dt s
  | .fieldOn => Sys2Proof.Machine.execFieldOn s
  | .fieldLoss => Sys2Proof.Machine.execFieldLoss s
  | .reqa => Sys2Proof.Machine.execReqa s
  | .wupa => Sys2Proof.Machine.execWupa s
  | .selectCard uid => Sys2Proof.Machine.execSelectCard uid s
  | .hlta => Sys2Proof.Machine.execHlta s
  | .rats => Sys2Proof.Machine.execRats s
  | .pps dsi dri => Sys2Proof.Machine.execPps dsi dri s
  | .sDeselect => Sys2Proof.Machine.execSDeselect s
  | .sWtx dt => Sys2Proof.Machine.execSWtx dt s
  | .selectApplication aid => Sys2Proof.Machine.execSelectApplication aid s
  | .verifyPwd a => Sys2Proof.Machine.execVerifyPwd a s
  | .auth1 a => Sys2Proof.Machine.execAuth1 a s
  | .auth2 a => Sys2Proof.Machine.execAuth2 a s
  | .tagApduRead a => Sys2Proof.Machine.execTagApduRead a s
  | .tagApduWrite a => Sys2Proof.Machine.execTagApduWrite a s
  | .ctrRead a => Sys2Proof.Machine.execCtrRead a s
  | .ctrInc a => Sys2Proof.Machine.execCtrInc a s
  | .exec7816 pkt => Sys2Proof.Machine.execExec7816 pkt s
  | .mirrorUpdate => Sys2Proof.Machine.execMirrorUpdate s
  | .badgePoll dt extField => Sys2Proof.Machine.execBadgePoll dt extField s
  | .badgeResponse dt r => Sys2Proof.Machine.execBadgeResponse dt r s
  | .badgeTimeout dt => Sys2Proof.Machine.execBadgeTimeout dt s
  | .tamperFire dt srcs => Sys2Proof.Machine.execTamperFire dt srcs s
  | .tamperRearm dt src => Sys2Proof.Machine.execTamperRearm dt src s
  | .backupSample dt conds => Sys2Proof.Machine.execBackupSample dt conds s
  | .debugScopeExpiry dt => Sys2Proof.Machine.execDebugScopeExpiry dt s
  | .debugAccess k addr write v => Sys2Proof.Machine.execDebugAccess k addr write v s
  | .bypass => Sys2Proof.Machine.execBypass s
  | .idcode => Sys2Proof.Machine.execIdcode s
  | .samplePreload => Sys2Proof.Machine.execSamplePreload s
  | .extest => Sys2Proof.Machine.execExtest s
  | .intest => Sys2Proof.Machine.execIntest s
  | .clamp => Sys2Proof.Machine.execClamp s
  | .highz => Sys2Proof.Machine.execHighz s
  | .extestPulse => Sys2Proof.Machine.execExtestPulse s
  | .extestTrain => Sys2Proof.Machine.execExtestTrain s
  | .tapDebug => Sys2Proof.Machine.execTapDebug s
  | .pwrOkRise dt => Sys2Proof.Machine.execPwrOkRise dt s
  | .pwrOkFall dt => Sys2Proof.Machine.execPwrOkFall dt s
  | .resetN dt => Sys2Proof.Machine.execResetN dt s
  | .wrstN dt => Sys2Proof.Machine.execWrstN dt s
  | .perst dt => Sys2Proof.Machine.execPerst dt s
  | .trstN => Sys2Proof.Machine.execTrstN s
  | .testmode level => Sys2Proof.Machine.execTestmode level s
  | .resetRelease dt env => Sys2Proof.Machine.execResetRelease dt env s
  | .refclkLineLost dt => Sys2Proof.Machine.execRefclkLineLost dt s
  | .refclkLineReturn dt => Sys2Proof.Machine.execRefclkLineReturn dt s
  | .pcieRefclkLost dt => Sys2Proof.Machine.execPcieRefclkLost dt s
  | .xtal25Lost dt => Sys2Proof.Machine.execXtal25Lost dt s
  | .xtal25Return dt => Sys2Proof.Machine.execXtal25Return dt s
  | .xtal32Stopped dt => Sys2Proof.Machine.execXtal32Stopped dt s
  | .overtemp sensor tenthsC => Sys2Proof.Machine.execOvertemp sensor tenthsC s
  | .scrub m word e => Sys2Proof.Machine.execScrub m word e s
  | .marchBlock dt m block fails => Sys2Proof.Machine.execMarchBlock dt m block fails s
  | .flRead errs => Sys2Proof.Machine.execFlRead errs s
  | .flProgram verifyOk => Sys2Proof.Machine.execFlProgram verifyOk s
  | .flErase => Sys2Proof.Machine.execFlErase s
  | .flPoll => Sys2Proof.Machine.execFlPoll s
  | .flBlank => Sys2Proof.Machine.execFlBlank s
  | .flInfo => Sys2Proof.Machine.execFlInfo s
  | .flConfig => Sys2Proof.Machine.execFlConfig s
  | .flRefresh marginClean doneOk => Sys2Proof.Machine.execFlRefresh marginClean doneOk s
  | .eraseSuspendRequest dt addr => Sys2Proof.Machine.execEraseSuspendRequest dt addr s
  | .suspendAccept dt => Sys2Proof.Machine.execSuspendAccept dt s
  | .eraseResume dt => Sys2Proof.Machine.execEraseResume dt s
  | .flashDone dt verifyOk => Sys2Proof.Machine.execFlashDone dt verifyOk s
  | .fwActivateInstant dt => Sys2Proof.Machine.execFwActivateInstant dt s
  | .trialEnd dt k => Sys2Proof.Machine.execTrialEnd dt k s
  | .interruptEntry k => Sys2Proof.Machine.execInterruptEntry k s
  | .impreciseBusError k addr => Sys2Proof.Machine.execImpreciseBusError k addr s
  | .lockstepMismatch dt k => Sys2Proof.Machine.execLockstepMismatch dt k s
  | .add k rd rs rt => Sys2Proof.Machine.execAdd k rd rs rt s
  | .sub k rd rs rt => Sys2Proof.Machine.execSub k rd rs rt s
  | .and_ k rd rs rt => Sys2Proof.Machine.execAnd k rd rs rt s
  | .or_ k rd rs rt => Sys2Proof.Machine.execOr k rd rs rt s
  | .xor k rd rs rt => Sys2Proof.Machine.execXor k rd rs rt s
  | .nor k rd rs rt => Sys2Proof.Machine.execNor k rd rs rt s
  | .sll k rd rs rt => Sys2Proof.Machine.execSll k rd rs rt s
  | .srl k rd rs rt => Sys2Proof.Machine.execSrl k rd rs rt s
  | .sra k rd rs rt => Sys2Proof.Machine.execSra k rd rs rt s
  | .ror k rd rs rt => Sys2Proof.Machine.execRor k rd rs rt s
  | .mul k rd rs rt => Sys2Proof.Machine.execMul k rd rs rt s
  | .mulh k rd rs rt => Sys2Proof.Machine.execMulh k rd rs rt s
  | .mulhu k rd rs rt => Sys2Proof.Machine.execMulhu k rd rs rt s
  | .div k rd rs rt => Sys2Proof.Machine.execDiv k rd rs rt s
  | .divu k rd rs rt => Sys2Proof.Machine.execDivu k rd rs rt s
  | .rem k rd rs rt => Sys2Proof.Machine.execRem k rd rs rt s
  | .remu k rd rs rt => Sys2Proof.Machine.execRemu k rd rs rt s
  | .clz k rd rs => Sys2Proof.Machine.execClz k rd rs s
  | .ctz k rd rs => Sys2Proof.Machine.execCtz k rd rs s
  | .popc k rd rs => Sys2Proof.Machine.execPopc k rd rs s
  | .brev k rd rs => Sys2Proof.Machine.execBrev k rd rs s
  | .addi k rd rs imm => Sys2Proof.Machine.execAddi k rd rs imm s
  | .andi k rd rs imm => Sys2Proof.Machine.execAndi k rd rs imm s
  | .ori k rd rs imm => Sys2Proof.Machine.execOri k rd rs imm s
  | .xori k rd rs imm => Sys2Proof.Machine.execXori k rd rs imm s
  | .slli k rd rs sh => Sys2Proof.Machine.execSlli k rd rs sh s
  | .srli k rd rs sh => Sys2Proof.Machine.execSrli k rd rs sh s
  | .srai k rd rs sh => Sys2Proof.Machine.execSrai k rd rs sh s
  | .rori k rd rs sh => Sys2Proof.Machine.execRori k rd rs sh s
  | .lui k rd imm => Sys2Proof.Machine.execLui k rd imm s
  | .lb k rd rs imm e => Sys2Proof.Machine.execLb k rd rs imm e s
  | .lbu k rd rs imm e => Sys2Proof.Machine.execLbu k rd rs imm e s
  | .lh k rd rs imm e => Sys2Proof.Machine.execLh k rd rs imm e s
  | .lhu k rd rs imm e => Sys2Proof.Machine.execLhu k rd rs imm e s
  | .lw k rd rs imm e => Sys2Proof.Machine.execLw k rd rs imm e s
  | .sb k rt rs imm e => Sys2Proof.Machine.execSb k rt rs imm e s
  | .sh k rt rs imm e => Sys2Proof.Machine.execSh k rt rs imm e s
  | .sw k rt rs imm e => Sys2Proof.Machine.execSw k rt rs imm e s
  | .cbeq k rs rt off => Sys2Proof.Machine.execCbeq k rs rt off s
  | .cbne k rs rt off => Sys2Proof.Machine.execCbne k rs rt off s
  | .cblt k rs rt off => Sys2Proof.Machine.execCblt k rs rt off s
  | .cbge k rs rt off => Sys2Proof.Machine.execCbge k rs rt off s
  | .cbltu k rs rt off => Sys2Proof.Machine.execCbltu k rs rt off s
  | .cbgeu k rs rt off => Sys2Proof.Machine.execCbgeu k rs rt off s
  | .jump k off => Sys2Proof.Machine.execJump k off s
  | .jal k off => Sys2Proof.Machine.execJal k off s
  | .jr k rs => Sys2Proof.Machine.execJr k rs s
  | .jalr k rd rs => Sys2Proof.Machine.execJalr k rd rs s
  | .seq k rd rs rt => Sys2Proof.Machine.execSeq k rd rs rt s
  | .sne k rd rs rt => Sys2Proof.Machine.execSne k rd rs rt s
  | .slt k rd rs rt => Sys2Proof.Machine.execSlt k rd rs rt s
  | .sltu k rd rs rt => Sys2Proof.Machine.execSltu k rd rs rt s
  | .sel k rd rs rt ru => Sys2Proof.Machine.execSel k rd rs rt ru s
  | .maskBit k rd rs => Sys2Proof.Machine.execMaskBit k rd rs s
  | .bset k rb imm => Sys2Proof.Machine.execBset k rb imm s
  | .bclr k rb imm => Sys2Proof.Machine.execBclr k rb imm s
  | .btgl k rb imm => Sys2Proof.Machine.execBtgl k rb imm s
  | .bmov k rs rb imm => Sys2Proof.Machine.execBmov k rs rb imm s
  | .btst k rd rb imm => Sys2Proof.Machine.execBtst k rd rb imm s
  | .loop k rs fin => Sys2Proof.Machine.execLoop k rs fin s
  | .loopi k count fin => Sys2Proof.Machine.execLoopi k count fin s
  | .macx k acc => Sys2Proof.Machine.execMacx k acc s
  | .macxu k acc => Sys2Proof.Machine.execMacxu k acc s
  | .msux k acc => Sys2Proof.Machine.execMsux k acc s
  | .macr k acc rd rs => Sys2Proof.Machine.execMacr k acc rd rs s
  | .mfa k rd acc part => Sys2Proof.Machine.execMfa k rd acc part s
  | .mta k acc rs part => Sys2Proof.Machine.execMta k acc rs part s
  | .clra k acc => Sys2Proof.Machine.execClra k acc s
  | .shra k acc sh => Sys2Proof.Machine.execShra k acc sh s
  | .swap k rd rs rt => Sys2Proof.Machine.execSwap k rd rs rt s
  | .cas k rd rs rt => Sys2Proof.Machine.execCas k rd rs rt s
  | .amoadd k rd rs rt => Sys2Proof.Machine.execAmoadd k rd rs rt s
  | .amoand k rd rs rt => Sys2Proof.Machine.execAmoand k rd rs rt s
  | .amoor k rd rs rt => Sys2Proof.Machine.execAmoor k rd rs rt s
  | .scall k n => Sys2Proof.Machine.execScall k n s
  | .sret k => Sys2Proof.Machine.execSret k s
  | .eret k => Sys2Proof.Machine.execEret k s
  | .mfs k rd n => Sys2Proof.Machine.execMfs k rd n s
  | .mts k rs n => Sys2Proof.Machine.execMts k rs n s
  | .fence k => Sys2Proof.Machine.execFence k s
  | .ifence k => Sys2Proof.Machine.execIfence k s
  | .wfi k => Sys2Proof.Machine.execWfi k s
  | .break_ k => Sys2Proof.Machine.execBreak k s
  | .emulation k w => Sys2Proof.Machine.execEmulation k w s
  | .counterBlockRequest => Sys2Proof.Machine.execCounterBlockRequest s
  | .tamperSourceInactive dt src => Sys2Proof.Machine.execTamperSourceInactive dt src s
  | .xtal32Restart dt => Sys2Proof.Machine.execXtal32Restart dt s
  | .perstRelease => Sys2Proof.Machine.execPerstRelease s
  | .pcieRefclkReturn dt => Sys2Proof.Machine.execPcieRefclkReturn dt s

end Sys2Proof.Machine
end

