-- ==== Sys2Proof/Machine/Idle.lean ====
section
/-! DEFINITION. What happens when no command waits: time passes (log 2). -/
namespace Sys2Proof.Machine

/-- The instant at which a running swap commits or ends, or a core restart ends. -/
def nextInstant (s : State) : Option Nat :=
  match s.plat.swap with
  | some w => some (if w.committed then w.endsAt else if w.pointed then w.commitAt else w.pointAt)
  | none =>
    match s.cpuC.restarting with
    | some t => some t
    | none => s.cpuV.restarting

/-- One time clock passes, or the time to the instant a swap or a restart waits for; then what waited goes on. -/
def idle (s : State) : State :=
  let dt := match nextInstant s with
    | some t => max 1 (t - s.clk.now)
    | none => 1
  let s := advance dt s
  if running s then settle s else s

end Sys2Proof.Machine
end

