-- ==== Sys2Proof/Machine/HostRead.lean ====
section
/-! DEFINITION. What the outside reads without a command: the words of BAR0 (R9, R14, R519 to R524) and the levels of the
output pins (R186, R229, R488, R513). A read changes nothing, so the table gives it no row. -/
namespace Sys2Proof.Machine

/-- BOOT_STAGE (R350). -/
def stageNo (x : Stage) : Nat :=
  match x with
  | .reset => 0
  | .wellheadRom => 1
  | .riser => 2
  | .pumphouse => 3
  | .tableInit => 4
  | .ready => 5
  | .recovery => 6
  | .swapC => 7
  | .swapV => 8

/-- DEV_STATUS (R520): stage, lifecycle, riser down, pumps failed, dual-lane checking. -/
def devStatus (s : State) : Nat :=
  stageNo s.plat.stage + 16 * (if 2 ≤ stageNo s.plat.stage then lifeNo s.nv.life else 0) + 128 * b2n (s.ri.st == .down) +
    256 * ((failedPumps s).length % 8) + 2048 * b2n s.plat.dualOn

/-- Identification and status (R520). -/
def readIdent (off : Nat) (s : State) : Nat :=
  match off with
  | 0x00 => 0x4016
  | 0x04 => Config.stepCode % 2 ^ 16
  | 0x08 => Config.serial % 2 ^ 32
  | 0x0C => Config.serial / 2 ^ 32 % 2 ^ 32
  | 0x10 => Config.romVersion % 2 ^ 32
  | 0x14 => s.fw.verC
  | 0x18 => s.fw.verV
  | 0x1C => 2
  | 0x20 => protoMax
  | 0x40 => devStatus s
  | _ => 0

/-- EV_SUMMARY (R521): the banks that hold a pending, unmasked source. -/
def evSummary (e : Ev) : Nat :=
  ((List.range 8).map (fun k => if bankWord (e.pend &&& ~~~ e.mask) k = 0 then 0 else 2 ^ k)).sum

/-- Event registers (R521). -/
def readEvents (off : Nat) (e : Ev) : Nat :=
  if off < 0x20 then bankWord e.pend (off / 4)
  else if off < 0x40 then bankWord e.mask (off / 4 - 8)
  else if off < 0x80 then ((List.range 16).map (fun j => evLevel e (16 * (off / 4 - 16) + j) % 4 * 4 ^ j)).sum
  else if off = 0x80 then e.alertLvl
  else if off = 0x84 then evSummary e
  else 0

/-- Registers of a command ring pair (R522). -/
def readRing (g : Ring) (off : Nat) : Nat :=
  match off with
  | 0x00 => g.reqLo.toNat
  | 0x04 => g.reqHi.toNat
  | 0x08 => g.rspLo.toNat
  | 0x0C => g.rspHi.toNat
  | 0x10 => g.sizeReg
  | 0x14 => g.reqTail
  | 0x18 => g.reqHead
  | 0x1C => g.rspHead
  | 0x20 => g.rspTail
  | 0x24 => b2n g.intMask
  | _ => 0

/-- Pointer registers of a receive queue (R523). -/
def readRxq (x : RxQ) (off : Nat) : Nat :=
  match off with
  | 0x00 => x.dtail
  | 0x04 => x.dhead
  | 0x08 => x.chead
  | 0x0C => x.ctail
  | 0x10 => b2n x.intMask
  | _ => 0

/-- Pointer registers of a transmit queue (R523). -/
def readTxq (x : TxQ) (off : Nat) : Nat :=
  match off with
  | 0x00 => x.dtail
  | 0x04 => x.dhead
  | 0x08 => x.chead
  | 0x0C => x.ctail
  | 0x10 => b2n x.intMask
  | _ => 0

/-- The MSI-X table (R512, R519): the control word holds the mask bit. -/
def readMsix (off : Nat) (e : Ev) : Nat :=
  if off % 16 = 12 then b2n (e.msixMask.getLsbD (off / 16)) else smGet 0 e.msixTable (off / 4)

/-- Counters (R524). -/
def readCounter (off : Nat) (s : State) : Nat :=
  if off < 0x100 then (cntPort (off / 0x40) s).getD (off % 0x40 / 4) 0
  else if 0x1000 ≤ off && off < 0x3000 then (cntRxq ((off - 0x1000) / 0x80) s).getD (off % 0x80 / 4) 0
  else if 0x3000 ≤ off && off < 0x4000 then (cntTxq ((off - 0x3000) / 0x40) s).getD (off % 0x40 / 4) 0
  else if 0x4000 ≤ off && off < 0x5000 then (cntGlobal s).getD ((off - 0x4000) / 4) 0
  else 0

/-- The word of BAR0 at an aligned offset (R519); a reserved offset reads 0 (R14). -/
def readBar (a : Nat) (s : State) : Nat :=
  if a < 0x1000 then readIdent a s
  else if a < 0x2000 then readEvents (a - 0x1000) s.ev
  else if a < 0x2100 then readRing (ringOf ((a - 0x2000) / 0x40) s) (a % 0x40)
  else if 0x4000 ≤ a && a < 0x4800 then readRxq (rxqOf ((a - 0x4000) / 0x20) s) (a % 0x20)
  else if 0x5000 ≤ a && a < 0x5800 then readTxq (txqOf ((a - 0x5000) / 0x20) s) (a % 0x20)
  else if 0x6000 ≤ a && a < 0x6400 then readMsix (a - 0x6000) s.ev
  else if a = 0x7000 then s.ev.msixPba.toNat % 2 ^ 32
  else if a = 0x7004 then s.ev.msixPba.toNat / 2 ^ 32
  else if 0x10000 ≤ a && a < 0x15000 then readCounter (a - 0x10000) s
  else 0

/-! ## Output pins -/

/-- ALERT_N is driven low (R513): a pending source of a level at or above ALERT_LVL. During a reset it is released (R488). -/
def alertLow (s : State) : Bool :=
  running s && (List.range 256).any (fun n => bit256 s.ev.pend n && decide (s.ev.alertLvl ≤ evLevel s.ev n))

/-- SPI_IRQ_N is driven low: a reply waits (R229). -/
def spiIrqLow (s : State) : Bool := running s && s.cmd.spiReplies ≠ []

/-- DP_READY is high from step 13 of the start-up on (R347, R488). -/
def dpReady (s : State) : Bool := running s && s.plat.dpReleased

/-- TXDIS of a port is high until PORT_CFG enables the port (R488). -/
def txDisabled (p : Nat) (s : State) : Bool := !running s || (portOf p s).mode = 0

/-- PPS_OUT (R186, R488). -/
def ppsHigh (s : State) : Bool := running s && s.tu.ppsOut

end Sys2Proof.Machine
end

