-- ==== Sys2Proof/Safety.lean ====
section
/-! DEFINITION. The terms in which statements speak of a run: which instruction a core runs and what it leaves alone,
what a fault entry writes, when a command of the interpreter is served, and what a reply says. Nothing here is part
of the machine. -/
namespace Sys2Proof.Claim
open Sys2Proof.Machine

/-! ## One instruction of a core -/

/-- Core k runs, and the instruction at its pc is fetched from a page of the class (true: sealed) (R412, R421). -/
def Executes (k : CoreId) (cls : Bool) (s : State) : Prop := coreRuns k s = true ∧ fetch k s = .ok cls

/-- The instruction stands at LE of an active loop. -/
def AtEnd (c : Cpu) : Prop := c.lc ≠ 0 ∧ c.pc = c.le

/-- A completed instruction moves the pc on to `next`, or takes the loop update of R425. -/
def GoesOn (c d : Cpu) (next : Word) : Prop :=
  (AtEnd c → d.lc = c.lc - 1 ∧ d.pc = if c.lc = 1 then c.le + 4 else c.ls) ∧ (¬ AtEnd c → d.lc = c.lc ∧ d.pc = next)

/-- Register rd of d holds v, and every other register what it held; g0 reads 0 whatever is written (R409). -/
def HoldsIn (c d : Cpu) (rd : Reg) (v : Word) : Prop :=
  ∀ r : Reg, d.get r = if r = 0 then 0 else if r = rd then v else c.get r

/-- Nothing but registers g0 to g15, pc and LC of core k differs. -/
def OnlyCoreBasics (k : CoreId) (s t : State) : Prop :=
  t = onCpu k (fun c => { c with regs := (cpu k t).regs, pc := (cpu k t).pc, lc := (cpu k t).lc }) s

/-- The instruction completes: rd takes v, the pc moves on, and nothing else changes. -/
def Writes (k : CoreId) (rd : Reg) (v : Word) (s : State) (r : Res) : Prop :=
  ∃ t, r = .next t ∧ HoldsIn (cpu k s) (cpu k t) rd v ∧ GoesOn (cpu k s) (cpu k t) ((cpu k s).pc + 4) ∧ OnlyCoreBasics k s t

/-- Nothing but pc and LC of core k differs, and these are as given. -/
def ContinuesAt (k : CoreId) (pc lc : Word) (s : State) (r : Res) : Prop :=
  r = .next (onCpu k (fun c => { c with pc := pc, lc := lc }) s)

/-- LC after a taken transfer to t: a target outside LS to LE ends the loop (R426). -/
def loopAfter (c : Cpu) (t : Word) : Word := if c.ls.toNat ≤ t.toNat ∧ t.toNat ≤ c.le.toNat then c.lc else 0

/-- The entry of a fault that does not escalate, as R445 writes it; of a tenant's fault the core keeps what the keeper
would report of it (R451). -/
def Entered (k : CoreId) (epc : Word) (vec detail : Nat) (s t : State) : Prop :=
  t = onCpu k (fun c => { c with
    fault := if c.priv then c.fault else some ⟨c.tid, epc, BitVec.ofNat 32 (vec + 256 * detail), c.einsn, c.excAddr⟩
    epc := epc, psc := c.sc, pmask := c.mask, ppriv := c.priv, sc := false, priv := true, mask := 7
    ecause := BitVec.ofNat 32 (vec + 256 * detail), pc := BitVec.ofNat 32 (0x200 + 16 * vec) }) s

/-- No fault of the core escalates now, whatever its level: ESC is 0 and MASK below 6 (R442, R444). -/
def Unmasked (k : CoreId) (s : State) : Prop := (cpu k s).esc = false ∧ (cpu k s).mask.toNat < 6

/-! ## A core's memory accesses -/

/-- The valve table grants the right (R459). -/
def Granted (k : CoreId) (a : Nat) (r : Right) (s : State) : Prop :=
  ∃ cls cache order, coreCheck k a r s = .grant cls cache order

/-- The byte a core reads at an address. -/
def byteAt (k : CoreId) (a : Nat) (s : State) : Byte := placeByte k (readPlace k a s) 0 s

/-- The n bytes from a on as a little-endian number (R412). -/
def valueAt (k : CoreId) (a : Nat) : Nat → State → Nat
  | 0, _ => 0
  | n + 1, s => (byteAt k a s).toNat + 256 * valueAt k (a + 1) n s

/-- The word that holds an address reads without error: no uncorrectable word (R374), no torn MRAM word (R404), no flagged,
erasing or torn flash (R386, R387, R391); registers and the bit window hold no bytes. -/
def ReadsClean (k : CoreId) (a : Nat) (s : State) : Prop :=
  match readPlace k a s with
  | .unpopulated => False
  | .bitWindow _ => False
  | .reg _ _ => False
  | .flash off =>
    s.me.erase = none ∧ (sectorOf (redirect (off / sectorBytes) s) s).flag = false ∧
      (redirect (off / sectorBytes) s * 256 + off % sectorBytes / 32) ∉ s.nv.flashTorn
  | .mram off => off / 8 ∉ s.nv.torn
  | p => ∀ m w, wordOf k p = some (m, w) → (m, w) ∉ s.me.faulty

/-- The address lies in control RAM, vault RAM or the riser mailbox, outside the reserved bytes of its control blocks. -/
def InRam (k : CoreId) (a : Nat) : Prop :=
  (∃ o, placeOf k a = .ctrlRam o) ∨ (∃ o, placeOf k a = .vaultRam o) ∨ ∃ o, placeOf k a = .mailbox o ∧ mailboxHole o = false

/-- The n low bytes of v stand at a and up; every byte at any other place reads as before, from both cores. -/
def Stores (k : CoreId) (a n : Nat) (v : Word) (s t : State) : Prop :=
  (∀ i, i < n → placeByte k (placeOf k (a + i)) 0 t = v.extractLsb' (8 * i) 8) ∧
  ∀ j x, (∀ i, i < n → readPlace j x s ≠ placeOf k (a + i)) → byteAt j x t = byteAt j x s

/-- Port M has not written the mailbox word of the address in this clock (R381). -/
def AloneAt (k : CoreId) (a n : Nat) (s : State) : Prop := ∀ o, placeOf k a = .mailbox o → mailboxMet false o n s = []

/-- Nothing differs but the general registers, pc and LC of core k, the three RAMs, the mailbox writes of this clock, and the
list of faulty words, of which at most the written word is struck off. -/
def OnlyRam (k : CoreId) (s t : State) : Prop :=
  ∃ d, t = onMe (fun m => { m with
        ctrlRam := t.me.ctrlRam, vaultRam := t.me.vaultRam, mailbox := t.me.mailbox, mbxNow := t.me.mbxNow
        faulty := t.me.faulty }) d ∧
    OnlyCoreBasics k s d ∧ ∀ x ∈ t.me.faulty, x ∈ s.me.faulty

/-- Multiply-accumulate: accumulator acc takes v, the pointers move by the given steps, the pc moves on, and nothing else
changes. -/
def Accumulates (k : CoreId) (acc : Fin 4) (v : BitVec 80) (dx dy : Int) (s : State) (r : Res) : Prop :=
  ∃ t, r = .next t ∧ GoesOn (cpu k s) (cpu k t) ((cpu k s).pc + 4) ∧
    t = onCpu k (fun c => { c with
      acc := c.acc.set acc v, px := BitVec.ofInt 32 (c.px.toNat + dx), py := BitVec.ofInt 32 (c.py.toNat + dy)
      pc := (cpu k t).pc, lc := (cpu k t).lc }) s

/-- The pc moves on and nothing else changes. -/
def Passes (k : CoreId) (s : State) (r : Res) : Prop :=
  ∃ t, r = .next t ∧ GoesOn (cpu k s) (cpu k t) ((cpu k s).pc + 4) ∧
    t = onCpu k (fun c => { c with pc := (cpu k t).pc, lc := (cpu k t).lc }) s

/-! ## Whole-machine rules of the cores -/

/-- The core that executes an instruction row; none of every other row. -/
def coreOf (i : Instr) : Option CoreId :=
  match i with
  | .nwRand _ => some .vault
  | .cycleLo k _ => some k
  | .add k _ _ _ => some k
  | .sub k _ _ _ => some k
  | .and_ k _ _ _ => some k
  | .or_ k _ _ _ => some k
  | .xor k _ _ _ => some k
  | .nor k _ _ _ => some k
  | .sll k _ _ _ => some k
  | .srl k _ _ _ => some k
  | .sra k _ _ _ => some k
  | .ror k _ _ _ => some k
  | .mul k _ _ _ => some k
  | .mulh k _ _ _ => some k
  | .mulhu k _ _ _ => some k
  | .div k _ _ _ => some k
  | .divu k _ _ _ => some k
  | .rem k _ _ _ => some k
  | .remu k _ _ _ => some k
  | .clz k _ _ => some k
  | .ctz k _ _ => some k
  | .popc k _ _ => some k
  | .brev k _ _ => some k
  | .addi k _ _ _ => some k
  | .andi k _ _ _ => some k
  | .ori k _ _ _ => some k
  | .xori k _ _ _ => some k
  | .slli k _ _ _ => some k
  | .srli k _ _ _ => some k
  | .srai k _ _ _ => some k
  | .rori k _ _ _ => some k
  | .lui k _ _ => some k
  | .lb k _ _ _ _ => some k
  | .lbu k _ _ _ _ => some k
  | .lh k _ _ _ _ => some k
  | .lhu k _ _ _ _ => some k
  | .lw k _ _ _ _ => some k
  | .sb k _ _ _ _ => some k
  | .sh k _ _ _ _ => some k
  | .sw k _ _ _ _ => some k
  | .cbeq k _ _ _ => some k
  | .cbne k _ _ _ => some k
  | .cblt k _ _ _ => some k
  | .cbge k _ _ _ => some k
  | .cbltu k _ _ _ => some k
  | .cbgeu k _ _ _ => some k
  | .jump k _ => some k
  | .jal k _ => some k
  | .jr k _ => some k
  | .jalr k _ _ => some k
  | .seq k _ _ _ => some k
  | .sne k _ _ _ => some k
  | .slt k _ _ _ => some k
  | .sltu k _ _ _ => some k
  | .sel k _ _ _ _ => some k
  | .maskBit k _ _ => some k
  | .bset k _ _ => some k
  | .bclr k _ _ => some k
  | .btgl k _ _ => some k
  | .bmov k _ _ _ => some k
  | .btst k _ _ _ => some k
  | .loop k _ _ => some k
  | .loopi k _ _ => some k
  | .macx k _ => some k
  | .macxu k _ => some k
  | .msux k _ => some k
  | .macr k _ _ _ => some k
  | .mfa k _ _ _ => some k
  | .mta k _ _ _ => some k
  | .clra k _ => some k
  | .shra k _ _ => some k
  | .swap k _ _ _ => some k
  | .cas k _ _ _ => some k
  | .amoadd k _ _ _ => some k
  | .amoand k _ _ _ => some k
  | .amoor k _ _ _ => some k
  | .scall k _ => some k
  | .sret k => some k
  | .eret k => some k
  | .mfs k _ _ => some k
  | .mts k _ _ => some k
  | .fence k => some k
  | .ifence k => some k
  | .wfi k => some k
  | .break_ k => some k
  | .emulation k _ => some k
  | _ => none

/-- A tenant has returned from a keeper that saved tenant privilege: PPRIV is 0 while PRIV is 0. -/
def TenantSaved (s : State) : Prop := ∀ k, (cpu k s).priv = false → (cpu k s).ppriv = false

/-! ## Commands of the interpreter -/

/-- No packet waits to be taken at any transport, and no applet waits in a system call. -/
def Quiet (s : State) : Prop :=
  (∀ r ∈ s.cmd.rings, r.2.fetched = []) ∧ (∀ a ∈ s.cmd.applets, a.2.wait = .none) ∧ s.cmd.stuck = []

/-- No commit instant has come, no frame's instant has gone by, and no counter block waits to be asked for (R22, R57, R89,
R138). -/
def NothingDue (s : State) : Prop :=
  (∀ k ∈ txnNos, ¬ ((txnOf k s).st = .armed ∧ (txnOf k s).instant ≤ ptp16 s)) ∧
    (∀ x ∈ s.fp.egr, ¬ (x.stage = .working ∧ x.readyAt ≤ s.clk.now) ∧ releaseDue x s = false) ∧
    (∀ x ∈ s.fp.ing, verdictDue x s = false) ∧ s.ev.waitKey = []

/-- Nobody has been served yet in this tick at the resource of that number (log 101). -/
def Unserved (n : Nat) (s : State) : Prop := ∀ rank, smFind s.clk.turns n ≠ some (s.clk.now, rank)

/-- Both dies run and nothing waits: no command is owed a reply, no swap or core restart runs, and nothing falls due. -/
def Calm (s : State) : Prop :=
  running s = true ∧ s.cmd.owed = [] ∧ s.plat.swap = none ∧ s.cpuC.restarting = none ∧ s.cpuV.restarting = none ∧ Quiet s ∧
    NothingDue s

/-- The command is taken (R230): it is the one command owed a reply, and the turn goes on behind its transport. -/
def taken (opc : Nat) (c : Call) (s : State) : State :=
  onCmd (fun x => { x with
    turn := (turnNo c.via + 1) % turnCount, owed := [{ call := c, opcode := opc, wait := .held }] }) s

/-- A command packet that its transport may offer and every step of R220 passes, put to a calm device that is READY, its
cores and the riser up. -/
def Ready (opc : Nat) (c : Call) (s : State) : Prop :=
  Calm s ∧ mayTake c.via s = true ∧ viaOpen c.via s = true ∧ s.plat.stage = .ready ∧ controlDown s = false ∧ vaultDown s = false ∧ s.ri.st = .up ∧
    acceptRefuse opc c s = none ∧
    checkTlvs c.pkt.expert (agreed c.via 7 s) (params opc) c.pkt.tlvs [] 16 = none ∧ missingPar (params opc) c.pkt = none ∧
    featureRefuse opc c s = none

/-- The reply of a command that was taken over state d: a status and TLVs, in the version of its session (R217, R222). -/
def answered (opc : Nat) (c : Call) (st : Nat) (tlvs : List Tlv) (d : State) : State :=
  let d := onCmd (fun x => { x with turn := (turnNo c.via + 1) % turnCount }) d
  handBack opc c (mkReply c opc st tlvs (replyVersion c d)) d

/-- The command stays taken and waits, over state d (R231, R232). -/
def waits (opc : Nat) (c : Call) (w : Wait) (d : State) : State :=
  onCmd (fun x => { x with turn := (turnNo c.via + 1) % turnCount, owed := [{ call := c, opcode := opc, wait := w }] }) d

/-- The row answers the command with OK and the TLVs over some state of which the property holds. -/
def RepliesWith (opc : Nat) (c : Call) (tlvs : List Tlv) (p : State → Prop) (r : Res) : Prop :=
  ∃ d, r = .next (answered opc c stOk tlvs d) ∧ p d

/-- The row ends by answering the command with OK and the TLVs over state d, and with nothing else. -/
def RepliesOk (opc : Nat) (c : Call) (tlvs : List Tlv) (d : State) (r : Res) : Prop := r = .next (answered opc c stOk tlvs d)

/-- The same with another status. -/
def Refuses (opc : Nat) (c : Call) (st : Nat) (tlvs : List Tlv) (d : State) (r : Res) : Prop :=
  r = .next (answered opc c st tlvs d)

end Sys2Proof.Claim
end

