-- ==== Sys2Proof/Certificates/Slice0/Obligations.lean ====
section
/-! DEFINITION. The statements for the provers. Each docstring names the rules of spec/ a statement rests on; a statement of
several parts is their conjunction. -/
open Sys2Proof Sys2Proof.Machine Sys2Proof.Claim

/-- Two-operand ALU instructions, conditions to registers and SEL: the result in rd, every other register, the loop
update, and nothing else (R409, R418, R424, R425). -/
def Sys2Proof.Claim.TwoOperandResults : Prop :=
  ∀ (k : CoreId) (rd rs rt : Reg) (cls : Bool) (s : State), Executes k cls s →
    let a := (cpu k s).get rs
    let b := (cpu k s).get rt
    Writes k rd (BitVec.ofNat 32 (a.toNat + b.toNat)) s (exec (.add k rd rs rt) s) ∧
    Writes k rd (BitVec.ofInt 32 (a.toInt - b.toInt)) s (exec (.sub k rd rs rt) s) ∧
    Writes k rd (a &&& b) s (exec (.and_ k rd rs rt) s) ∧
    Writes k rd (a ||| b) s (exec (.or_ k rd rs rt) s) ∧
    Writes k rd (a ^^^ b) s (exec (.xor k rd rs rt) s) ∧
    Writes k rd (~~~a &&& ~~~b) s (exec (.nor k rd rs rt) s) ∧
    Writes k rd (BitVec.ofNat 32 (a.toNat * 2 ^ (b.toNat % 32))) s (exec (.sll k rd rs rt) s) ∧
    Writes k rd (BitVec.ofNat 32 (a.toNat / 2 ^ (b.toNat % 32))) s (exec (.srl k rd rs rt) s) ∧
    Writes k rd (BitVec.ofInt 32 (a.toInt / 2 ^ (b.toNat % 32))) s (exec (.sra k rd rs rt) s) ∧
    (∃ v, Writes k rd v s (exec (.ror k rd rs rt) s) ∧
      ∀ i, i < 32 → v.getLsbD i = a.getLsbD ((i + b.toNat) % 32)) ∧
    Writes k rd (BitVec.ofInt 32 (a.toInt * b.toInt)) s (exec (.mul k rd rs rt) s) ∧
    Writes k rd (BitVec.ofInt 32 (a.toInt * b.toInt / 2 ^ 32)) s (exec (.mulh k rd rs rt) s) ∧
    Writes k rd (BitVec.ofNat 32 (a.toNat * b.toNat / 2 ^ 32)) s (exec (.mulhu k rd rs rt) s) ∧
    Writes k rd (if a = b then 1 else 0) s (exec (.seq k rd rs rt) s) ∧
    Writes k rd (if a = b then 0 else 1) s (exec (.sne k rd rs rt) s) ∧
    Writes k rd (if a.toInt < b.toInt then 1 else 0) s (exec (.slt k rd rs rt) s) ∧
    Writes k rd (if a.toNat < b.toNat then 1 else 0) s (exec (.sltu k rd rs rt) s) ∧
    ∀ ru, Writes k rd (if a.getLsbD 0 then b else (cpu k s).get ru) s (exec (.sel k rd rs rt ru) s)

/-- CLZ, CTZ, POPC, BREV and MASK (R418, R424). -/
def Sys2Proof.Claim.OneOperandResults : Prop :=
  ∀ (k : CoreId) (rd rs : Reg) (cls : Bool) (s : State), Executes k cls s →
    let a := (cpu k s).get rs
    (∃ n : Nat, n ≤ 32 ∧ Writes k rd (BitVec.ofNat 32 n) s (exec (.clz k rd rs) s) ∧
      a.toNat < 2 ^ (32 - n) ∧ (n < 32 → 2 ^ (31 - n) ≤ a.toNat)) ∧
    (∃ n : Nat, n ≤ 32 ∧ Writes k rd (BitVec.ofNat 32 n) s (exec (.ctz k rd rs) s) ∧
      a.toNat % 2 ^ n = 0 ∧ (n < 32 → a.getLsbD n = true)) ∧
    Writes k rd (BitVec.ofNat 32 ((List.range 32).map (fun i => a.toNat / 2 ^ i % 2)).sum) s (exec (.popc k rd rs) s) ∧
    (∃ v, Writes k rd v s (exec (.brev k rd rs) s) ∧
      ∀ i j, i < 4 → j < 8 → v.getLsbD (8 * i + j) = a.getLsbD (8 * (3 - i) + j)) ∧
    Writes k rd (if a.getLsbD 0 then 0xFFFFFFFF else 0) s (exec (.maskBit k rd rs) s)

/-- Immediate forms: ADDI sign-extends, ANDI, ORI and XORI zero-extend, the shifts take five bits, LUI shifts its 22 bits
left by 10 (R416, R417). -/
def Sys2Proof.Claim.ImmediateResults : Prop :=
  ∀ (k : CoreId) (rd rs : Reg) (imm : BitVec 18) (sh : BitVec 5) (u : BitVec 22) (cls : Bool) (s : State),
    Executes k cls s →
    let a := (cpu k s).get rs
    Writes k rd (BitVec.ofInt 32 (a.toInt + imm.toInt)) s (exec (.addi k rd rs imm) s) ∧
    Writes k rd (BitVec.ofNat 32 (a.toNat &&& imm.toNat)) s (exec (.andi k rd rs imm) s) ∧
    Writes k rd (BitVec.ofNat 32 (a.toNat ||| imm.toNat)) s (exec (.ori k rd rs imm) s) ∧
    Writes k rd (BitVec.ofNat 32 (a.toNat ^^^ imm.toNat)) s (exec (.xori k rd rs imm) s) ∧
    Writes k rd (BitVec.ofNat 32 (a.toNat * 2 ^ sh.toNat)) s (exec (.slli k rd rs sh) s) ∧
    Writes k rd (BitVec.ofNat 32 (a.toNat / 2 ^ sh.toNat)) s (exec (.srli k rd rs sh) s) ∧
    Writes k rd (BitVec.ofInt 32 (a.toInt / 2 ^ sh.toNat)) s (exec (.srai k rd rs sh) s) ∧
    (∃ v, Writes k rd v s (exec (.rori k rd rs sh) s) ∧
      ∀ i, i < 32 → v.getLsbD i = a.getLsbD ((i + sh.toNat) % 32)) ∧
    Writes k rd (BitVec.ofNat 32 (u.toNat * 1024)) s (exec (.lui k rd u) s)

/-- Division: DIV and DIVU complete with a quotient, REM and REMU with a remainder, and the two satisfy the division
identity with a remainder of the dividend's sign smaller than the divisor; by zero they are all ones and the dividend,
and the one overflow gives 0x8000_0000 and 0 (R418). -/
def Sys2Proof.Claim.DivisionLaws : Prop :=
  ∀ (k : CoreId) (rd rs rt : Reg) (cls : Bool) (s : State), Executes k cls s →
    let a := (cpu k s).get rs
    let b := (cpu k s).get rt
    ∃ q r qu ru : Word,
      Writes k rd q s (exec (.div k rd rs rt) s) ∧ Writes k rd r s (exec (.rem k rd rs rt) s) ∧
      Writes k rd qu s (exec (.divu k rd rs rt) s) ∧ Writes k rd ru s (exec (.remu k rd rs rt) s) ∧
      (b = 0 → q = 0xFFFFFFFF ∧ r = a ∧ qu = 0xFFFFFFFF ∧ ru = a) ∧
      (a = 0x80000000 ∧ b = 0xFFFFFFFF → q = 0x80000000 ∧ r = 0) ∧
      (b ≠ 0 ∧ ¬ (a = 0x80000000 ∧ b = 0xFFFFFFFF) →
        a.toInt = q.toInt * b.toInt + r.toInt ∧ r.toInt.natAbs < b.toInt.natAbs ∧ (0 ≤ a.toInt * r.toInt)) ∧
      (b ≠ 0 → a.toNat = qu.toNat * b.toNat + ru.toNat ∧ ru.toNat < b.toNat)

/-- Arithmetic, logic, shift, immediate and division instructions: result, frame and completion: the parts together. -/
def Obligations.TwoOperandAndImmediateResults : Prop :=
  Claim.TwoOperandResults ∧ Claim.OneOperandResults ∧ Claim.ImmediateResults ∧ Claim.DivisionLaws

/-- Compare-and-branch in open code away from LE of an active loop: taken, it continues at its address plus 4 times the
signed offset and ends a loop it leaves; not taken, at the next instruction. Nothing else changes (R420, R426). -/
def Sys2Proof.Claim.CompareAndBranch : Prop :=
  ∀ (k : CoreId) (rs rt : Reg) (off : BitVec 18) (s : State), Executes k false s → ¬ AtEnd (cpu k s) →
    let c := cpu k s
    let a := c.get rs
    let b := c.get rt
    let dest := BitVec.ofInt 32 (c.pc.toNat + 4 * off.toInt)
    ∀ (i : Instr) (taken : Prop),
      (i = .cbeq k rs rt off ∧ (taken ↔ a = b) ∨ i = .cbne k rs rt off ∧ (taken ↔ a ≠ b) ∨
       i = .cblt k rs rt off ∧ (taken ↔ a.toInt < b.toInt) ∨ i = .cbge k rs rt off ∧ (taken ↔ b.toInt ≤ a.toInt) ∨
       i = .cbltu k rs rt off ∧ (taken ↔ a.toNat < b.toNat) ∨ i = .cbgeu k rs rt off ∧ (taken ↔ b.toNat ≤ a.toNat)) →
      (taken → ContinuesAt k dest (loopAfter c dest) s (exec i s)) ∧ (¬ taken → ContinuesAt k (c.pc + 4) c.lc s (exec i s))

/-- J, JAL, JR and JALR away from LE of an active loop, in every class that permits them: the target, the link register,
the end of a loop that is left; JALR with rd = rs jumps to the value before the write (R417, R420, R422, R426). -/
def Sys2Proof.Claim.JumpsAndLinks : Prop :=
  ∀ (k : CoreId) (cls : Bool) (s : State), Executes k cls s → ¬ AtEnd (cpu k s) →
    let c := cpu k s
    (∀ off : BitVec 26, let dest := BitVec.ofInt 32 (c.pc.toNat + 4 * off.toInt)
      ContinuesAt k dest (loopAfter c dest) s (exec (.jump k off) s) ∧
      ∃ t, exec (.jal k off) s = .next t ∧ OnlyCoreBasics k s t ∧ (cpu k t).pc = dest ∧ (cpu k t).lc = loopAfter c dest ∧
        HoldsIn c (cpu k t) 15 (c.pc + 4)) ∧
    (∀ rs : Reg, (cls = false ∨ rs = 15) →
      ContinuesAt k (c.get rs) (loopAfter c (c.get rs)) s (exec (.jr k rs) s)) ∧
    (∀ rd rs : Reg, cls = false →
      ∃ t, exec (.jalr k rd rs) s = .next t ∧ OnlyCoreBasics k s t ∧ (cpu k t).pc = c.get rs ∧
        (cpu k t).lc = loopAfter c (c.get rs) ∧ HoldsIn c (cpu k t) rd (c.pc + 4))

/-- The discipline fault: a compare-and-branch, JALR, or JR other than g15 in sealed code (DETAIL 1, 2, 3), LOOP or LOOPI
while a loop is active (DETAIL 4), and a transfer at LE in a class that permits it (DETAIL 5) enter vector 6 with EPC at
the instruction and no register changed (R422, R425, R426, R442, R445, R449). -/
def Sys2Proof.Claim.DisciplineFaults : Prop :=
  ∀ (k : CoreId) (rd rs rt : Reg) (off : BitVec 18) (j : BitVec 26) (n : Fin 8) (count : BitVec 10) (fin : BitVec 12)
    (cls : Bool) (s : State), Executes k cls s → Unmasked k s →
    let f (detail : Nat) (i : Instr) : Prop := ∃ t, exec i s = .next t ∧ Entered k (cpu k s).pc 6 detail s t
    (cls = true →
      f 1 (.cbeq k rs rt off) ∧ f 1 (.cbne k rs rt off) ∧ f 1 (.cblt k rs rt off) ∧ f 1 (.cbge k rs rt off) ∧
      f 1 (.cbltu k rs rt off) ∧ f 1 (.cbgeu k rs rt off) ∧ f 2 (.jalr k rd rs) ∧ (rs ≠ 15 → f 3 (.jr k rs))) ∧
    ((cpu k s).lc ≠ 0 ∧ fin ≠ 0 → f 4 (.loop k rs fin) ∧ f 4 (.loopi k count fin)) ∧
    (AtEnd (cpu k s) →
      f 5 (.jump k j) ∧ f 5 (.jal k j) ∧ f 5 (.jr k 15) ∧ f 5 (.scall k n) ∧ f 5 (.sret k) ∧ f 5 (.eret k) ∧
      (cls = false → f 5 (.cbeq k rs rt off) ∧ f 5 (.cbne k rs rt off) ∧ f 5 (.cblt k rs rt off) ∧
        f 5 (.cbge k rs rt off) ∧ f 5 (.cbltu k rs rt off) ∧ f 5 (.cbgeu k rs rt off) ∧ f 5 (.jalr k rd rs) ∧
        f 5 (.jr k rs)))

/-- Branches, jumps, links and the discipline fault: the parts together. -/
def Obligations.TransfersOfControl : Prop :=
  Claim.CompareAndBranch ∧ Claim.JumpsAndLinks ∧ Claim.DisciplineFaults

/-- LOOP and LOOPI outside a loop set LC, LS and LE as the pseudocode of R425 does, a count of 0 meaning 65,536 and
1,024, and an END of 0 is the emulation trap with the instruction's word in EINSN (R416, R425, R435). -/
def Obligations.HardwareLoops : Prop :=
  ∀ (k : CoreId) (rs : Reg) (count : BitVec 10) (fin : BitVec 12) (cls : Bool) (s : State), Executes k cls s →
    let c := cpu k s
    let starts (n : Nat) (i : Instr) : Prop := exec i s = .next (onCpu k (fun c => { c with
      lc := BitVec.ofNat 32 n, ls := c.pc + 4, le := c.pc + BitVec.ofNat 32 (4 * fin.toNat), pc := c.pc + 4 }) s)
    let rn := (c.get rs).toNat % 65536
    (fin ≠ 0 ∧ c.lc = 0 →
      starts (if rn = 0 then 65536 else rn) (.loop k rs fin) ∧
      starts (if count = 0 then 1024 else count.toNat) (.loopi k count fin)) ∧
    (fin = 0 ∧ Unmasked k s →
      (∃ t, exec (.loop k rs fin) s = .next t ∧
        Entered k c.pc 7 0 (onCpu k (fun c => { c with einsn := BitVec.ofNat 32 (0x1C * 2 ^ 26 + rs.val * 2 ^ 22) }) s) t) ∧
      ∃ t, exec (.loopi k count fin) s = .next t ∧
        Entered k c.pc 7 0
          (onCpu k (fun c => { c with einsn := BitVec.ofNat 32 (0x1D * 2 ^ 26 + count.toNat * 2 ^ 12) }) s) t)

/-- MACX, MACXU and MSUX accumulate the exact product of the words at PX and PY modulo 2^80 and step both pointers by 4
times SX and SY, when PX and PY lie aligned in the X and the Y memory, both reads are granted and both words read without
error (R427, R428, R429, R411). -/
def Sys2Proof.Claim.MacFetchAccumulates : Prop :=
  ∀ (k : CoreId) (acc : Fin 4) (cls : Bool) (s : State), Executes k cls s →
    let c := cpu k s
    let x := c.px.toNat
    let y := c.py.toNat
    inX k x = true → inY k y = true → x % 4 = 0 → y % 4 = 0 → Granted k x .read s → Granted k y .read s →
    ReadsClean k x s → ReadsClean k y s →
    let u := BitVec.ofNat 32 (valueAt k x 4 s)
    let v := BitVec.ofNat 32 (valueAt k y 4 s)
    let dx := 4 * (c.stride.extractLsb' 0 8).toInt
    let dy := 4 * (c.stride.extractLsb' 8 8).toInt
    Accumulates k acc (BitVec.ofInt 80 (c.acc[acc].toInt + u.toInt * v.toInt)) dx dy s (exec (.macx k acc) s) ∧
    Accumulates k acc (BitVec.ofNat 80 (c.acc[acc].toNat + u.toNat * v.toNat)) dx dy s (exec (.macxu k acc) s) ∧
    Accumulates k acc (BitVec.ofInt 80 (c.acc[acc].toInt - u.toInt * v.toInt)) dx dy s (exec (.msux k acc) s)

/-- MACR, CLRA, SHRA, MTA and MFA: the accumulator, or the part of it, that each takes or gives (R428, R429). -/
def Sys2Proof.Claim.AccumulatorInstructions : Prop :=
  ∀ (k : CoreId) (acc : Fin 4) (rd rs : Reg) (sh : BitVec 6) (cls : Bool) (s : State), Executes k cls s →
    let c := cpu k s
    let a := c.acc[acc]
    Accumulates k acc (BitVec.ofInt 80 (a.toInt + (c.get rd).toInt * (c.get rs).toInt)) 0 0 s (exec (.macr k acc rd rs) s) ∧
    Accumulates k acc 0 0 0 s (exec (.clra k acc) s) ∧
    Accumulates k acc (BitVec.ofInt 80 (a.toInt / 2 ^ sh.toNat)) 0 0 s (exec (.shra k acc sh) s) ∧
    (∃ b0 b1 b2 : BitVec 80,
      Accumulates k acc b0 0 0 s (exec (.mta k acc rs 0) s) ∧ Accumulates k acc b1 0 0 s (exec (.mta k acc rs 1) s) ∧
      Accumulates k acc b2 0 0 s (exec (.mta k acc rs 2) s) ∧
      ∀ i, i < 80 →
        b0.getLsbD i = (if i < 32 then (c.get rs).getLsbD i else a.getLsbD i) ∧
        b1.getLsbD i = (if 32 ≤ i ∧ i < 64 then (c.get rs).getLsbD (i - 32) else a.getLsbD i) ∧
        b2.getLsbD i = (if 64 ≤ i then (c.get rs).getLsbD (i - 64) else a.getLsbD i)) ∧
    Writes k rd (BitVec.ofNat 32 a.toNat) s (exec (.mfa k rd acc 0) s) ∧
    Writes k rd (BitVec.ofNat 32 (a.toNat / 2 ^ 32)) s (exec (.mfa k rd acc 1) s) ∧
    Writes k rd (BitVec.ofInt 32 (a.toInt / 2 ^ 64)) s (exec (.mfa k rd acc 2) s)

/-- Multiply-accumulate and accumulator moves over the 80-bit accumulators: the parts together. -/
def Obligations.AccumulatorResults : Prop :=
  Claim.MacFetchAccumulates ∧ Claim.AccumulatorInstructions

/-- Loads from every memory of the core's map: the little-endian bytes at rs + imm18, extended as the instruction says,
in rd, and nothing else changes, when the address is aligned, granted and reads without error (R412, R431); a load of the
MRAM is made in its turn (R406). -/
def Obligations.LoadResults : Prop :=
  ∀ (k : CoreId) (rd rs : Reg) (imm : BitVec 18) (cls : Bool) (s : State), Executes k cls s →
    let a := (BitVec.ofInt 32 (((cpu k s).get rs).toNat + imm.toInt)).toNat
    Granted k a .read s → ReadsClean k a s →
    let u := masterTurn mramCore (placeOf k a) s
    Writes k rd (BitVec.ofInt 32 (byteAt k a s).toInt) u (exec (.lb k rd rs imm .clean) s) ∧
    Writes k rd (BitVec.ofNat 32 (byteAt k a s).toNat) u (exec (.lbu k rd rs imm .clean) s) ∧
    (a % 2 = 0 →
      Writes k rd (BitVec.ofInt 32 (BitVec.ofNat 16 (valueAt k a 2 s)).toInt) u (exec (.lh k rd rs imm .clean) s) ∧
      Writes k rd (BitVec.ofNat 32 (valueAt k a 2 s)) u (exec (.lhu k rd rs imm .clean) s)) ∧
    (a % 4 = 0 → Writes k rd (BitVec.ofNat 32 (valueAt k a 4 s)) u (exec (.lw k rd rs imm .clean) s))

/-- SB, SH and SW into RAM store the low bytes of rt at rs + imm18, and every byte elsewhere, every register but the pc
and LC, and everything else stay; a store that meets a write of port M to its mailbox word in one clock completes, and the
collision is counted (R381, R412, R431). -/
def Sys2Proof.Claim.StoreResults : Prop :=
  ∀ (k : CoreId) (rt rs : Reg) (imm : BitVec 18) (cls : Bool) (s : State), Executes k cls s →
    let a := (BitVec.ofInt 32 (((cpu k s).get rs).toNat + imm.toInt)).toNat
    Granted k a .write s → InRam k a →
    ∀ (n : Nat) (i : Instr), (n = 1 ∧ i = .sb k rt rs imm .clean ∨ n = 2 ∧ i = .sh k rt rs imm .clean ∨
      n = 4 ∧ i = .sw k rt rs imm .clean) → a % n = 0 →
    (∀ o, placeOf k a = .mailbox o → mailboxMet false o n s ≠ [] →
      ∃ t, exec i s = .next t ∧ t.me.mbxCollisions = s.me.mbxCollisions + 1 ∧ GoesOn (cpu k s) (cpu k t) ((cpu k s).pc + 4)) ∧
    (AloneAt k a n s → ∃ t, exec i s = .next t ∧ Stores k a n ((cpu k s).get rt) s t ∧ OnlyRam k s t ∧
      HoldsIn (cpu k s) (cpu k t) 0 0 ∧ GoesOn (cpu k s) (cpu k t) ((cpu k s).pc + 4))

/-- Atomics on RAM: rd takes the old word, the word written is the one R432 lists, CAS writes only where the old value
equals rd on entry, and nothing else changes. -/
def Sys2Proof.Claim.AtomicResults : Prop :=
  ∀ (k : CoreId) (rd rs rt : Reg) (cls : Bool) (s : State), Executes k cls s →
    let a := ((cpu k s).get rs).toNat
    let b := (cpu k s).get rt
    a % 4 = 0 → Granted k a .read s → Granted k a .write s → InRam k a → ReadsClean k a s → AloneAt k a 4 s →
    let old := BitVec.ofNat 32 (valueAt k a 4 s)
    ∀ (w : Word) (i : Instr),
      (i = .swap k rd rs rt ∧ w = b ∨ i = .cas k rd rs rt ∧ w = (if old = (cpu k s).get rd then b else old) ∨
       i = .amoadd k rd rs rt ∧ w = BitVec.ofNat 32 (old.toNat + b.toNat) ∨ i = .amoand k rd rs rt ∧ w = old &&& b ∨
       i = .amoor k rd rs rt ∧ w = old ||| b) →
    ∃ t, exec i s = .next t ∧ Stores k a 4 w s t ∧ OnlyRam k s t ∧ HoldsIn (cpu k s) (cpu k t) rd old ∧
      GoesOn (cpu k s) (cpu k t) ((cpu k s).pc + 4)

/-- Stores and atomics write exactly their bytes: the parts together. -/
def Obligations.StoreResults : Prop :=
  Claim.StoreResults ∧ Claim.AtomicResults

/-- Refused and failed accesses: a misaligned load, store or atomic, an address with nothing behind it, and a block the
valve table does not grant enter vectors 4, 2 and 3 with the DETAIL of R449 and the address in EXC_ADDR; no register and
no byte of memory changes (R431, R432, R449, R450, R461, R462, R465). -/
def Obligations.AccessFaults : Prop :=
  ∀ (k : CoreId) (rd rs : Reg) (imm : BitVec 18) (e : BusEvt) (cls : Bool) (s : State),
    Executes k cls s → Unmasked k s → ¬ AtEnd (cpu k s) →
    let a := (BitVec.ofInt 32 (((cpu k s).get rs).toNat + imm.toInt)).toNat
    let p := (cpu k s).pc
    let noted := onCpu k (fun c => { c with excAddr := BitVec.ofNat 32 a }) s
    ∀ (n : Nat) (wr : Bool) (i : Instr),
      (n = 1 ∧ wr = false ∧ (i = .lb k rd rs imm e ∨ i = .lbu k rd rs imm e) ∨
       n = 2 ∧ wr = false ∧ (i = .lh k rd rs imm e ∨ i = .lhu k rd rs imm e) ∨ n = 4 ∧ wr = false ∧ i = .lw k rd rs imm e ∨
       n = 1 ∧ wr = true ∧ i = .sb k rd rs imm e ∨ n = 2 ∧ wr = true ∧ i = .sh k rd rs imm e ∨
       n = 4 ∧ wr = true ∧ i = .sw k rd rs imm e ∨
       n = 4 ∧ wr = false ∧ imm = 0 ∧ ∃ rt, i = .swap k rd rs rt ∨ i = .cas k rd rs rt ∨ i = .amoadd k rd rs rt ∨
         i = .amoand k rd rs rt ∨ i = .amoor k rd rs rt) →
      (a % n ≠ 0 → ∃ t, exec i s = .next t ∧ Entered k p 4 0 s t) ∧
      (a % n = 0 → placeOf k a = .unpopulated → ∃ t, exec i s = .next t ∧ Entered k p 2 4 noted t) ∧
      (a % n = 0 → placeOf k a ≠ .unpopulated →
        ∀ none_, coreCheck k a (if wr then .write else .read) s = .deny none_ →
        ∃ t, exec i s = .next t ∧ Entered k p 3 ((if wr then 2 else 1) + if none_ then 8 else 0) noted t)

/-- Bit instructions with their rights granted: on the bit RAM the bit b = (rb + imm16) mod 65,536 takes its value and every
other bit stays; on an INTC_PEND alias only a write of 1 acts and clears the pending bit; on every other alias nothing
changes; BTST gives the bit (R413, R414, R415, R530). -/
def Obligations.BitInstructions : Prop :=
  ∀ (k : CoreId) (rd rs rb : Reg) (imm : BitVec 16) (cls : Bool) (s : State), Executes k cls s →
    let b := (((cpu k s).get rb).toNat + imm.toNat) % 65536
    let a := bitBase k + b
    let old := readBit k b s
    (b < 0x1000 → (bitMem k, b / 64) ∉ s.me.faulty) →
    (Granted k a .read s → Writes k rd (if old then 1 else 0) s (exec (.btst k rd rb imm) s)) ∧
    (Granted k a .write s → ∀ (v : Bool) (i : Instr),
      (i = .bset k rb imm ∧ v = true ∨ i = .bclr k rb imm ∧ v = false ∨
        i = .bmov k rs rb imm ∧ v = ((cpu k s).get rs).getLsbD 0 ∨ i = .btgl k rb imm ∧ v = !old ∧ Granted k a .read s) →
      ∃ t, exec i s = .next t ∧ GoesOn (cpu k s) (cpu k t) ((cpu k s).pc + 4) ∧
        (b < 0x1000 → t = onCpu k (fun c => { c with bits := (cpu k t).bits, pc := (cpu k t).pc, lc := (cpu k t).lc }) s ∧
          ∀ j, j < 4096 → (cpu k t).bits.getLsbD j = if j = b then v else (cpu k s).bits.getLsbD j) ∧
        (0x1000 ≤ b → b < 0x1100 → ∀ n, n < 256 →
          (intcPending k t).getLsbD n = if n = b - 0x1000 ∧ v = true then false else (intcPending k s).getLsbD n) ∧
        (0x1000 ≤ b → b < 0x1100 → ∃ d, Passes k s (.next d) ∧ ∃ p q, t = onEv (fun e => { e with intcPendC := p, intcPendV := q }) d ∧
          ∀ j, j ≠ k → intcPending j t = intcPending j s) ∧
        (0x1100 ≤ b → Passes k s (.next t)))

/-- MFS: rd takes the special register's value at either privilege where R410 lets it be read, and reading CYCLE_LO latches
CYCLE_HI; the row CYCLE_LO is the MFS of CYCLE_LO (R410, R411, R434, R440). -/
def Sys2Proof.Claim.SpecialRegisterReads : Prop :=
  ∀ (k : CoreId) (rd : Reg) (cls : Bool) (s : State), Executes k cls s →
    let c := cpu k s
    let reads (n : BitVec 8) (v : Word) : Prop := Writes k rd v s (exec (.mfs k rd n) s)
    (∃ v : Word, reads 0x00 v ∧ v.extractLsb' 0 3 = c.mask ∧ v.getLsbD 3 = c.priv ∧ v.getLsbD 4 = cls ∧
      v.getLsbD 5 = c.sc ∧ v.getLsbD 6 = c.esc ∧ v.getLsbD 7 = c.psc ∧ v.extractLsb' 8 3 = c.pmask ∧
      v.getLsbD 11 = c.ppriv ∧ v.extractLsb' 12 4 = 0 ∧ v.extractLsb' 16 4 = c.tid ∧ v.extractLsb' 20 12 = 0) ∧
    (c.priv = true → reads 0x01 c.epc ∧ reads 0x02 c.ecause ∧ reads 0x03 c.einsn ∧
      ∀ n : Fin 8, reads (BitVec.ofNat 8 (8 + n.val)) c.sentry[n]) ∧
    reads 0x10 c.lc ∧ reads 0x11 c.ls ∧ reads 0x12 c.le ∧ reads 0x14 c.px ∧ reads 0x15 c.py ∧ reads 0x16 c.stride ∧
    reads 0x19 c.cycleHi ∧ reads 0x1F (match k with | .control => 0x02 | .vault => 0x12) ∧
    (∀ i, i = Instr.mfs k rd 0x18 ∨ i = Instr.cycleLo k rd →
      ∃ t, exec i s = .next t ∧ HoldsIn c (cpu k t) rd (BitVec.ofNat 32 (cycles k s)) ∧
        GoesOn c (cpu k t) (c.pc + 4) ∧ (cpu k t).cycleHi = BitVec.ofNat 32 (cycles k s / 2 ^ 32) ∧
        OnlyCoreBasics k (onCpu k (fun c => { c with cycleHi := (cpu k t).cycleHi }) s) t)

/-- MTS: what a permitted write leaves in each special register, from the next instruction on; a keeper's write of STATUS
takes MASK, PSC, PMASK, PPRIV and TID and leaves PRIV, CLASS, SC and ESC (R410, R411, R426, R441, R452). -/
def Sys2Proof.Claim.SpecialRegisterWrites : Prop :=
  ∀ (k : CoreId) (rs : Reg) (cls : Bool) (s : State), Executes k cls s →
    let c := cpu k s
    let v := c.get rs
    let writes (n : BitVec 8) (f : Cpu → Cpu) : Prop := ∃ t, Passes k s (.next t) ∧ exec (.mts k rs n) s = .next (onCpu k f t)
    writes 0x10 (fun c => { c with lc := v }) ∧ writes 0x11 (fun c => { c with ls := v }) ∧
    writes 0x12 (fun c => { c with le := v }) ∧ writes 0x14 (fun c => { c with px := v }) ∧
    writes 0x15 (fun c => { c with py := v }) ∧
    writes 0x16 (fun c => { c with stride := BitVec.ofNat 32 (v.toNat % 65536) }) ∧
    (c.priv = true →
      writes 0x00 (fun c => { c with
        mask := BitVec.ofNat 3 v.toNat, psc := v.getLsbD 7, pmask := BitVec.ofNat 3 (v.toNat / 256), ppriv := v.getLsbD 11
        tid := BitVec.ofNat 4 (v.toNat / 65536) }) ∧
      writes 0x01 (fun c => { c with epc := v }) ∧
      (∀ n : Fin 8, writes (BitVec.ofNat 8 (8 + n.val)) (fun c => { c with
        sentry := c.sentry.set n (BitVec.ofNat 32 (v.toNat / 16 * 16 + v.toNat % 2)) })) ∧
      ∀ n : BitVec 8, n.toNat ∈ [0x02, 0x03, 0x18, 0x19, 0x1F] → writes n id)

/-- NW_RAND: a vault-core load of NW_RAND gives four bytes of the random-bit generator in rd and advances the generator
only; when both noise banks have failed it is the random-source fault with rd unchanged (R279, R281, R442). -/
def Sys2Proof.Claim.RandomLoads : Prop :=
  ∀ (rd : Reg) (cls : Bool) (s : State), Executes .vault cls s → Granted .vault 0x40007000 .read s →
    (∀ b d, drbgGenerate 4 s = (some b, d) →
      ∃ t, exec (.nwRand rd) s = .next t ∧ HoldsIn s.cpuV t.cpuV rd (BitVec.ofNat 32 (leNat b)) ∧
        GoesOn s.cpuV t.cpuV (s.cpuV.pc + 4) ∧ OnlyCoreBasics .vault d t) ∧
    (s.nw.drbg = none → s.nw.lost = true → Unmasked .vault s → ¬ AtEnd s.cpuV →
      ∃ t, exec (.nwRand rd) s = .next t ∧ Entered .vault s.cpuV.pc 8 0 s t)

/-- MFS and MTS of every special register, CYCLE_LO and NW_RAND: the parts together. -/
def Obligations.SpecialRegisters : Prop :=
  Claim.SpecialRegisterReads ∧ Claim.SpecialRegisterWrites ∧ Claim.RandomLoads

/-- SCALL through an enabled entry, SRET with SC at 1 and a keeper's ERET: exactly the registers the pseudocode of R445 and
R452 names take their values (R445, R452). An ERET to a tenant leaves a fault of R451 behind: it is resolved where it returns to
the tenant of the fault, and reported otherwise (R451; the moment is the model's choice, log 121). -/
def Sys2Proof.Claim.CallsAndReturns : Prop :=
  ∀ (k : CoreId) (n : Fin 8) (cls : Bool) (s : State), Executes k cls s → ¬ AtEnd (cpu k s) →
    let e := (cpu k s).sentry[n]
    ((cpu k s).sc = false → e.getLsbD 0 = true →
      exec (.scall k n) s = .next (onCpu k (fun c => { c with
        epc := c.pc + 4, pmask := c.mask, ppriv := c.priv, sc := true, priv := true, mask := 7
        pc := BitVec.ofNat 32 (e.toNat / 16 * 16) }) s)) ∧
    ((cpu k s).sc = true →
      exec (.sret k) s = .next (onCpu k (fun c => { c with priv := c.ppriv, mask := c.pmask, sc := false, pc := c.epc }) s)) ∧
    ((cpu k s).priv = true →
      let d := onCpu k (fun c => { c with esc := false, priv := c.ppriv, mask := c.pmask, sc := c.psc, pc := c.epc }) s
      let e := onCpu k (fun c => { c with fault := none }) d
      ((cpu k s).ppriv = true ∨ (cpu k s).fault = none → exec (.eret k) s = .next d) ∧
      ∀ f, (cpu k s).ppriv = false → (cpu k s).fault = some f →
        ((cpu k s).tid = f.tid → exec (.eret k) s = .next e) ∧
        ((cpu k s).tid ≠ f.tid → exec (.eret k) s = .next (reportFault k f e) ∧
          (appletOf (appletKey k f.tid.toNat) (reportFault k f e)).running = false ∧
          (intcPending k (reportFault k f e)).getLsbD (match k with | .control => 99 | .vault => 144) = true))

/-- The privilege fault: a tenant's MTS to a register it may not write and its MFS of one it may not read (DETAIL 1), a
tenant's ERET (2), SRET with SC 0 at either privilege (3), SCALL with SC 1 (4) and SCALL of an entry that is not enabled
(5) enter vector 5 with nothing else changed (R410, R434, R445, R449, R452). -/
def Sys2Proof.Claim.PrivilegeFaults : Prop :=
  ∀ (k : CoreId) (r : Reg) (n : BitVec 8) (m : Fin 8) (cls : Bool) (s : State),
    Executes k cls s → Unmasked k s → ¬ AtEnd (cpu k s) →
    let c := cpu k s
    let f (detail : Nat) (i : Instr) : Prop := ∃ t, exec i s = .next t ∧ Entered k c.pc 5 detail s t
    (c.priv = false →
      (n.toNat ∈ [1, 2, 3, 8, 9, 10, 11, 12, 13, 14, 15] → f 1 (.mfs k r n)) ∧
      (n.toNat ∈ [0, 1, 2, 3, 8, 9, 10, 11, 12, 13, 14, 15, 0x18, 0x19, 0x1F] → f 1 (.mts k r n)) ∧ f 2 (.eret k)) ∧
    (c.sc = false → f 3 (.sret k)) ∧
    (c.sc = true → f 4 (.scall k m)) ∧
    (c.sc = false → c.sentry[m].getLsbD 0 = false → f 5 (.scall k m))

/-- SCALL, SRET, ERET and the privilege fault: the parts together. -/
def Obligations.CallsReturnsAndPrivilege : Prop :=
  Claim.CallsAndReturns ∧ Claim.PrivilegeFaults

/-- A fault while MASK is at or above its level writes ESC_PC and ESC_CAUSE, sets ESC, PRIV and MASK 7, goes to vector 1
and leaves EPC, ECAUSE, PSC, PMASK and PPRIV; ESCREQ does the same with cause 1; a fault while ESC is 1 stops the core,
which then executes nothing, unless the image on trial is rolled back at once (R368, R444, R447, R448, R450). -/
def Obligations.Escalation : Prop :=
  ∀ (k : CoreId) (rd rs rt : Reg) (cls : Bool) (s : State), Executes k cls s → ¬ AtEnd (cpu k s) →
    (∀ e : BusEvt, let a := ((cpu k s).get rs).toNat
      a % 4 ≠ 0 → 6 ≤ (cpu k s).mask.toNat → (cpu k s).esc = false →
      exec (.lw k rd rs 0 e) s = .next (onCpu k (fun c => { c with
        escPc := c.pc, escCause := 4, esc := true, priv := true, mask := 7, pc := 0x210 }) s)) ∧
    ((cpu k s).sc = false → 6 ≤ (cpu k s).mask.toNat → (cpu k s).esc = false →
      exec (.sret k) s = .next (onCpu k (fun c => { c with
        escPc := c.pc, escCause := 0x305, esc := true, priv := true, mask := 7, pc := 0x210 }) s)) ∧
    ((cpu k s).sc = false → (cpu k s).esc = true → s.plat.swap = none → (recOf k s).trial = false →
      ∃ t, exec (.sret k) s = .next t ∧ (cpu k t).stopped = true ∧ (cpu k t).escPc = (cpu k s).pc ∧
        (cpu k t).escCause = 0x305 ∧
        (match k with
          | .control => t.ev.sumpP.getLsbD 98 = true
          | .vault => t.ev.sumpW.getLsbD 143 = true) ∧
        exec (.add k rd rs rt) t = .next t) ∧
    (∀ p ret : Word, ∀ vec detail, (cpu k s).esc = false → faultLevel vec ≤ (cpu k s).mask.toNat →
      takeFault k p ret vec detail s = onCpu k (fun c => { c with
        escPc := p, escCause := causeWord vec detail, esc := true, priv := true, mask := 7, pc := 0x210 }) s) ∧
    (∀ p ret : Word, ∀ vec detail, (cpu k s).esc = true → s.plat.swap = none → (recOf k s).trial = false →
      (cpu k (takeFault k p ret vec detail s)).stopped = true) ∧
    ((cpu k s).priv = true → (cpu k s).esc = true → (cpu k s).ppriv = true ∨ (cpu k s).fault = none →
      exec (.eret k) s = .next (onCpu k (fun c => { c with
        esc := false, priv := c.ppriv, mask := c.pmask, sc := c.psc, pc := c.epc }) s))

/-- FENCE and IFENCE only move on; WFI moves on and waits unless an interrupt above MASK is pending; a waiting core executes
nothing until INTERRUPT_ENTRY (R433, R434, R446). A keeper's WFI first reports a tenant's fault that is still open (R451; the
moment is the model's choice, log 121). -/
def Sys2Proof.Claim.FencesAndWaiting : Prop :=
  ∀ (k : CoreId) (cls : Bool) (s : State), Executes k cls s →
    Passes k s (exec (.fence k) s) ∧ Passes k s (exec (.ifence k) s) ∧
    (∀ f, (cpu k s).priv = true → (cpu k s).fault = some f →
      ∃ d, Passes k (reportFault k f (onCpu k (fun c => { c with fault := none }) s)) (.next d) ∧
        (exec (.wfi k) s = .next d ∨ exec (.wfi k) s = .next (onCpu k (fun c => { c with waiting := true }) d))) ∧
    ((cpu k s).priv = false ∨ (cpu k s).fault = none → ∃ d, Passes k s (.next d) ∧
      ((∃ l n, (cpu k s).mask.toNat < l ∧ l ≤ 7 ∧ n < 256 ∧ (intcPending k s).getLsbD n = true ∧ intcLevel k n s = l) →
        exec (.wfi k) s = .next d) ∧
      ((¬ ∃ l n, (cpu k s).mask.toNat < l ∧ l ≤ 7 ∧ n < 256 ∧ (intcPending k s).getLsbD n = true ∧ intcLevel k n s = l) →
        ∃ t, exec (.wfi k) s = .next t ∧ t = onCpu k (fun c => { c with waiting := true }) d ∧
          ∀ rd rs rt, exec (.add k rd rs rt) t = .next t))

/-- BREAK under a debug scope moves on and halts the core, which then executes nothing; LOCKSTEP_MISMATCH of a core with no
restart within 1 s before resets it: the program state of R409, ECAUSE lockstep restart, RESTARTS counted, bit RAM kept, and a second
mismatch within 1 s of a restart's end, or before it, stops it (R409, R413, R434, R448, R455). -/
def Sys2Proof.Claim.HaltsAndRestarts : Prop :=
  (∀ (k : CoreId) (rd rs rt : Reg) (cls : Bool) (s : State), Executes k cls s → scopeCovers k s = true →
    ∃ t d, Passes k s (.next d) ∧ exec (.break_ k) s = .next t ∧ cpu k t = { cpu k d with halted := true } ∧
      (s.cmd.owed = [] → s.cl.execAt = none → t = onCpu k (fun c => { c with halted := true }) d) ∧
      exec (.add k rd rs rt) t = .next t) ∧
  ∀ (k : CoreId) (s : State), running s = true → (cpu k s).stopped = false → (cpu k s).halted = false →
    ((cpu k s).restarting = none → (∀ a, (cpu k s).restartAt = some a → a + 250000000 < s.clk.now) →
      ∃ t, exec (.lockstepMismatch 0 k) s = .next t ∧ (∀ r, (cpu k t).get r = 0) ∧ (cpu k t).lc = 0 ∧ (cpu k t).px = 0 ∧
        (cpu k t).py = 0 ∧ (cpu k t).stride = 0x101 ∧ (∀ a : Fin 4, (cpu k t).acc[a] = 0) ∧ (cpu k t).ecause = 0x400 ∧
        (cpu k t).restarts = min 255 ((cpu k s).restarts + 1) ∧ (cpu k t).bits = (cpu k s).bits ∧
        (cpu k t).stopped = false ∧ ∃ e, (cpu k t).restarting = some e) ∧
    (∀ at_, (cpu k s).restartAt = some at_ → s.clk.now ≤ at_ + 250000000 → s.plat.swap = none → (recOf k s).trial = false →
      ∃ t, exec (.lockstepMismatch 0 k) s = .next t ∧ (cpu k t).stopped = true)

/-- FENCE, IFENCE, WFI, BREAK and lockstep restart: the parts together. -/
def Obligations.WaitingHaltingRestarting : Prop :=
  Claim.FencesAndWaiting ∧ Claim.HaltsAndRestarts

/-- A reserved word takes the emulation trap before it has any effect: EPC holds its address, EINSN the word (R419, R435);
a special-register number outside the table of R410, and BREAK outside a debug scope, are reserved words (R410, R434). -/
def Sys2Proof.Claim.ReservedEncodings : Prop :=
  ∀ (k : CoreId) (w : Word) (r : Reg) (n : BitVec 8) (cls : Bool) (s : State),
    Executes k cls s → Unmasked k s →
    let traps (x : Word) (i : Instr) : Prop := ∃ t, exec i s = .next t ∧
      Entered k (cpu k s).pc 7 0 (onCpu k (fun c => { c with einsn := x }) s) t
    (wordReserved w = true → traps w (.emulation k w)) ∧
    (¬ n.toNat ∈ [0, 1, 2, 3, 8, 9, 10, 11, 12, 13, 14, 15, 0x10, 0x11, 0x12, 0x14, 0x15, 0x16, 0x18, 0x19, 0x1F] →
      traps (BitVec.ofNat 32 (0x20 * 2 ^ 26 + r.val * 2 ^ 22 + n.toNat * 2 ^ 10 + 3)) (.mfs k r n) ∧
      traps (BitVec.ofNat 32 (0x20 * 2 ^ 26 + r.val * 2 ^ 18 + n.toNat * 2 ^ 10 + 4)) (.mts k r n)) ∧
    (scopeCovers k s = false → traps 0x80000008 (.break_ k))

/-- Which words are reserved: the majors 0x00 and 0x21 to 0x3F, and, in the listed majors, unlisted functions and reserved
fields that are not zero (R416 to R419). -/
def Sys2Proof.Claim.ReservedWords : Prop :=
  (∀ w : Word, w.toNat / 2 ^ 26 = 0 ∨ 0x21 ≤ w.toNat / 2 ^ 26 → wordReserved w = true) ∧
  (∀ m x : Nat, m ∈ [2, 3, 4, 5, 7, 8, 9, 10, 11, 12, 13, 14, 15, 16, 17, 18, 19, 20, 21, 22, 23, 26] → x < 2 ^ 26 →
    wordReserved (BitVec.ofNat 32 (m * 2 ^ 26 + x)) = false) ∧
  (∀ (rd rs rt : Reg) (ru : Reg) (f : Nat), f < 1024 →
    (wordReserved (BitVec.ofNat 32 (2 ^ 26 + rd.val * 2 ^ 22 + rs.val * 2 ^ 18 + rt.val * 2 ^ 14 + ru.val * 2 ^ 10 + f)) = false ↔
      ru = 0 ∧ (f ∈ [0, 1, 2, 3, 4, 5, 8, 9, 10, 11, 0x10, 0x11, 0x12, 0x14, 0x15, 0x16, 0x17] ∨
        f ∈ [0x20, 0x21, 0x22, 0x23] ∧ rt = 0))) ∧
  (∀ (rd rs rt : Reg) (ru : Reg) (f : Nat), f < 1024 →
    (wordReserved (BitVec.ofNat 32 (0x1F * 2 ^ 26 + rd.val * 2 ^ 22 + rs.val * 2 ^ 18 + rt.val * 2 ^ 14 + ru.val * 2 ^ 10 + f)) =
      false ↔ ru = 0 ∧ f ≤ 4))

/-- Reserved encodings raise the illegal-instruction fault: the parts together. -/
def Obligations.ReservedWords : Prop :=
  Claim.ReservedEncodings ∧ Claim.ReservedWords

/-- Interrupt entry at an instruction boundary: of the pending sources above MASK the highest level, and of that level the
lowest source number, with the registers the pseudocode of R445 writes; it ends WFI; with none pending above MASK nothing
happens (R445, R446). -/
def Sys2Proof.Claim.InterruptEntryChoosesTop : Prop :=
  ∀ (k : CoreId) (s : State), running s = true → (cpu k s).stopped = false → (cpu k s).halted = false →
    let ready (l n : Nat) : Prop := n < 256 ∧ (intcPending k s).getLsbD n = true ∧ intcLevel k n s = l ∧
      (cpu k s).mask.toNat < l ∧ l ≤ 7
    (∀ l n, ready l n → (∀ l' n', ready l' n' → l' ≤ l ∧ (l' = l → n ≤ n')) →
      exec (.interruptEntry k) s = .next (onCpu k (fun c => { c with
        epc := c.pc, psc := c.sc, pmask := c.mask, ppriv := c.priv, sc := false, priv := true, mask := BitVec.ofNat 3 l
        ecause := BitVec.ofNat 32 (n * 65536 + (16 + l)), pc := BitVec.ofNat 32 (0x200 + 16 * (16 + l)), waiting := false }) s)) ∧
    ((∀ l n, ¬ ready l n) → exec (.interruptEntry k) s = .next s)

/-- An imprecise bus error, only of a region the valve table grants with an ORDER other than 0: vector 2 with DETAIL [12],
EPC at the instruction of the boundary, EXC_ADDR at the failed write, and the end of a wait (R449, R450, R463). -/
def Sys2Proof.Claim.ImpreciseBusErrors : Prop :=
  ∀ (k : CoreId) (a : Word) (s : State), running s = true → (cpu k s).stopped = false → (cpu k s).halted = false →
    (∀ cls cache order, coreCheck k a.toNat .write s = .grant cls cache order → order ≠ 0 → Unmasked k s →
      ∃ t, exec (.impreciseBusError k a) s = .next t ∧
        Entered k (cpu k s).pc 2 16 (onCpu k (fun c => { c with waiting := false, excAddr := a }) s) t) ∧
    ((∀ cls cache order, coreCheck k a.toNat .write s = .grant cls cache order → order = 0) →
      exec (.impreciseBusError k a) s = .next s)

/-- Interrupt entry takes the top pending interrupt; late bus errors: the parts together. -/
def Obligations.InterruptsAndLateErrors : Prop :=
  Claim.InterruptEntryChoosesTop ∧ Claim.ImpreciseBusErrors

/-- Only exception entry and SCALL raise the privilege, only ERET and SRET lower it: whatever instruction a core executes,
PRIV goes from 0 to 1 only with the pc at a vector or at an enabled entry of SENTRY, or where the stop of a core whose image
is being swapped or on trial starts it again, and from 1 to 0 only by ERET and SRET (R439, R442, R452, R368, R372). -/
def Obligations.PrivilegeMovesOnlyByEntry : Prop :=
  ∀ (k : CoreId) (i : Instr) (s t : State), coreOf i = some k → TenantSaved s → exec i s = .next t →
    ((cpu k s).priv = false → (cpu k t).priv = true →
      (∃ v, 1 ≤ v ∧ v ≤ 8 ∧ (cpu k t).pc = BitVec.ofNat 32 (0x200 + 16 * v)) ∨
      (∃ n : Fin 8, i = .scall k n ∧ (cpu k s).sentry[n].getLsbD 0 = true ∧
        (cpu k t).pc = (cpu k s).sentry[n] &&& 0xFFFFFFF0) ∨
      ((cpu k s).esc = true ∧ (s.plat.swap ≠ none ∨ (recOf k s).trial = true))) ∧
    ((cpu k s).priv = true → (cpu k t).priv = false → i = .eret k ∨ i = .sret k)

/-- The premise of the rule above is kept by every instruction of every core, and holds at reset (R441, R445, R452). -/
def Obligations.TenantSavedIsInvariant : Prop :=
  TenantSaved State.reset ∧
  ∀ (k : CoreId) (i : Instr) (s t : State), coreOf i = some k → TenantSaved s → exec i s = .next t → TenantSaved t

/-- A tenant cannot change a valve table: whatever instruction a core executes with PRIV 0, both dies' tables stay as they
are (R450, R464). -/
def Sys2Proof.Claim.TenantLeavesValveTables : Prop :=
  ∀ (k : CoreId) (i : Instr) (s t : State), coreOf i = some k → (cpu k s).priv = false → exec i s = .next t →
    t.vtP = s.vtP ∧ t.vtW = s.vtW

/-- A core's instructions leave the other core's program state, special registers and bit RAM as they are (R409, R448): only
its halt for debug can end, where a tamper response closes a scope (R342). -/
def Sys2Proof.Claim.CoresAreSeparate : Prop :=
  ∀ (k j : CoreId) (i : Instr) (s t : State), coreOf i = some k → j ≠ k → s.plat.swap = none → exec i s = .next t →
    ∃ h, cpu j t = { cpu j s with halted := h }

/-- A tenant changes no valve table; a core changes nothing of the other: the parts together. -/
def Obligations.TenantsAndCoresAreConfined : Prop :=
  Claim.TenantLeavesValveTables ∧ Claim.CoresAreSeparate

/-- The debug port is refused every block that a valid locked entry covers, whatever its other entries grant: zero, the error
bit, and nothing else of the cores, their tables and their memories changes (R341, R460, R465). -/
def Obligations.DebugRefusesLockedBlocks : Prop :=
  ∀ (k : CoreId) (addr : Nat) (wr : Bool) (v : Word) (s : State), running s = true → s.tap.ins = .debug →
    addr % 4 = 0 → placeOf k addr ≠ .unpopulated →
    (match k with | .control => s.tap.scope.getLsbD 1 = true | .vault => s.tap.scope.getLsbD 2 = true) →
    (∃ n e, (n, e) ∈ valves k s ∧ e.valid = true ∧ e.lock = true ∧ e.base.toNat ≤ addr / 256 ∧ addr / 256 ≤ e.limit.toNat) →
    ∃ t, exec (.debugAccess k addr wr v) s = .next t ∧ (∃ o, t.out = s.out ++ o ++ [.tapData 0 true]) ∧ t.tap.data = 0 ∧ t.tap.errorBit = true ∧
      valves k t = valves k s ∧ (cpu k t).regs = (cpu k s).regs ∧ (cpu k t).pc = (cpu k s).pc ∧
      (s.cmd.owed = [] → t.me.ctrlRam = s.me.ctrlRam ∧ t.me.vaultRam = s.me.vaultRam ∧ t.me.mailbox = s.me.mailbox)

/-- A debug access of a granted word of RAM through an open scope reads it, or writes it and nothing else of memory
(R341, R459). -/
def Obligations.DebugReadsAndWritesRam : Prop :=
  ∀ (k : CoreId) (addr : Nat) (v : Word) (s : State), running s = true → s.tap.ins = .debug → addr % 4 = 0 →
    (match k with | .control => s.tap.scope.getLsbD 1 = true | .vault => s.tap.scope.getLsbD 2 = true) →
    InRam k addr → ReadsClean k addr s → AloneAt k addr 4 s →
    (∀ r, ∃ cls cache order, valveCheck (valves k s) 15 (!s.tap.scope.getLsbD 3) 0 addr r = .grant cls cache order) →
    let w := BitVec.ofNat 32 (valueAt k addr 4 s)
    exec (.debugAccess k addr false v) s = .next
      { s with out := s.out ++ [.tapData w false], tap := { s.tap with data := w, errorBit := false } } ∧
    ∃ t d, exec (.debugAccess k addr true v) s = .next t ∧ Stores k addr 4 v s d ∧ OnlyRam k s d ∧ cpu k d = cpu k s ∧
      t = { d with out := s.out ++ [.tapData 0 false], tap := { s.tap with data := 0, errorBit := false } }

/-- The event, interrupt and sump registers under their access codes: EV_PEND and INTC_PEND clear the bits written 1 of one
view and nothing else, SUMP_CLR the sticky bits of the core's die, and EV_RAISE raises a source of the core's own range in
every view and nothing for another value (R12, R510, R515, R528). -/
def Sys2Proof.Claim.EventRegisterWrites : Prop :=
  ∀ (k : CoreId) (bank : Fin 8) (v : Word) (s : State),
    let hit (n : Nat) : Bool := decide (n / 32 = bank.val) && v.getLsbD (n % 32)
    (hostReaches s = true → ∃ p, exec (.evPend bank v) s = .next (onEv (fun e => { e with pend := p }) s) ∧
      ∀ n, n < 256 → p.getLsbD n = (s.ev.pend.getLsbD n && !hit n)) ∧
    (keeperActs k s = true →
      (∃ p, (∀ n, n < 256 → p.getLsbD n = ((intcPending k s).getLsbD n && !hit n)) ∧
        exec (.intcPend k bank v) s = .next (onEv (fun e => match k with
          | .control => { e with intcPendC := p }
          | .vault => { e with intcPendV := p }) s)) ∧
      (∃ p t, (∀ n, n < 256 → p.getLsbD n = ((sumpOf k s).getLsbD n && !hit n)) ∧ exec (.sumpClr k bank v) s = .next t ∧
        t = { s with cl := t.cl, ev := (match k with
          | .control => { s.ev with sumpP := p }
          | .vault => { s.ev with sumpW := p }) } ∧ t.cl = { s.cl with mirror := t.cl.mirror }) ∧
      let n := v.toNat % 256
      let own := match k with | .control => 192 ≤ n ∧ n ≤ 223 | .vault => 224 ≤ n
      (¬ own → exec (.evRaise k v) s = .next s) ∧
      (own → s.ri.st = .up → ∃ t, exec (.evRaise k v) s = .next t ∧
        (∀ m, m < 256 → t.ev.pend.getLsbD m = (decide (m = n) || s.ev.pend.getLsbD m) ∧
          t.ev.intcPendC.getLsbD m = (decide (m = n) || s.ev.intcPendC.getLsbD m) ∧
          t.ev.intcPendV.getLsbD m = (decide (m = n) || s.ev.intcPendV.getLsbD m)) ∧
        t.ev.sumpP = s.ev.sumpP ∧ t.ev.sumpW = s.ev.sumpW ∧ t.cpuC = s.cpuC ∧ t.cpuV = s.cpuV ∧ t.nv = s.nv))

/-- Host writes of BAR0 registers without rows of their own: the event mask, levels and alert level, the words of a ring, queue
interrupt masks and MSI-X; read-only and reserved registers keep their value; a write by a core's keeper reaches the register at the
address, and one to a vendor block is refused by name; an escalation in the escalated state stops the core, with its event (R12, R14, R457, R510 to R513, R519 to R529). -/
def Sys2Proof.Claim.RegisterWrites : Prop :=
  (∀ (v : Word) (s : State), Calm s → pcieDown s = false → let w (a : Nat) := exec (.registerWrite .host a v) s
    (∀ b : Fin 8, w (0x1000 + 4 * b.val) = exec (.evPend b v) s) ∧
    (Unserved (turnEvCfg * 2 ^ 32) s → ∀ b : Fin 8, ∃ d, w (0x1020 + 4 * b.val) = .next d ∧ d.ev.pend = s.ev.pend ∧ d.nv = s.nv ∧ d.cmd = s.cmd ∧
      ∀ n, n < 256 → d.ev.mask.getLsbD n = if n / 32 = b.val then v.getLsbD (n % 32) else s.ev.mask.getLsbD n) ∧
    (Unserved (turnEvCfg * 2 ^ 32) s → ∀ i : Fin 16, ∃ d, w (0x1040 + 4 * i.val) = .next d ∧ d.ev.pend = s.ev.pend ∧ d.ev.mask = s.ev.mask ∧ d.nv = s.nv ∧
      ∀ n, n < 256 → evLevel d.ev n = if n / 16 = i.val then v.toNat / 4 ^ (n % 16) % 4 else evLevel s.ev n) ∧
    w 0x1080 = .next (onEv (fun e => { e with alertLvl := v.toNat % 8 }) s) ∧
    (∀ r : Fin 4, let at_ (o : Nat) := w (0x2000 + 0x40 * r.val + o)
      at_ 0x00 = .next (onRing r (fun g => { g with reqLo := v &&& 0xFFFFFFC0 }) s) ∧ at_ 0x04 = exec (.crqBaseHi r v) s ∧
      at_ 0x08 = .next (onRing r (fun g => { g with rspLo := v &&& 0xFFFFFFC0 }) s) ∧
      at_ 0x0C = .next (onRing r (fun g => { g with rspHi := v }) s) ∧
      at_ 0x10 = .next (onRing r (fun g => { g with sizeReg := v.toNat % 16 }) s) ∧ at_ 0x1C = exec (.crpHead r v.toNat) s ∧
      at_ 0x24 = .next (onRing r (fun g => { g with intMask := v.getLsbD 0 }) s) ∧ at_ 0x18 = .next s ∧ at_ 0x20 = .next s) ∧
    (∀ q : Fin 64, w (0x4010 + 0x20 * q.val) = .next (onFp (fun f => { f with rxq := smMod {} f.rxq q (fun x => { x with intMask := v.getLsbD 0 }) }) s) ∧
      w (0x5010 + 0x20 * q.val) = .next (onFp (fun f => { f with txq := smMod {} f.txq q (fun x => { x with intMask := v.getLsbD 0 }) }) s)) ∧
    (∀ n : Fin 64, let bit := BitVec.twoPow 64 n.val
      (v.getLsbD 0 = true → w (0x600C + 16 * n.val) = .next (onEv (fun e => { e with msixMask := e.msixMask ||| bit }) s)) ∧
      (v.getLsbD 0 = false → let d := onEv (fun e => { e with msixMask := e.msixMask &&& ~~~ bit, msixPba := e.msixPba &&& ~~~ bit }) s
        w (0x600C + 16 * n.val) = .next (if s.ev.msixPba.getLsbD n.val then emit (.msix n.val) d else d)) ∧
      ∀ j, j < 3 → w (0x6000 + 16 * n.val + 4 * j) = .next (onEv (fun e => { e with msixTable := smSet 0 e.msixTable (4 * n.val + j) v.toNat }) s)) ∧
    ∀ a, a < 0x1000 ∨ 0x3000 ≤ a ∧ a < 0x4000 → w a = .next s) ∧
  ∀ (k : CoreId) (a off : Nat) (b : Blk) (v : Word) (s : State), Calm s → keeperActs k s = true → placeOf k a = .reg b off →
    (b = .vendor → exec (.registerWrite (.core k) a v) s = .refused (.vendorBlock a)) ∧
    (b = .valve → off % 16 = 0 → ∀ n : Fin 256, off / 16 = n.val → exec (.registerWrite (.core k) a v) s = exec (.valveEntryCommit k n v) s) ∧
    (b = .intc → ∀ n : Fin 8, off = 0x100 + 4 * n.val → exec (.registerWrite (.core k) a v) s = exec (.intcPend k n v) s) ∧
    (b = .sump → ∀ n : Fin 8, off = 0x20 + 4 * n.val → exec (.registerWrite (.core k) a v) s = exec (.sumpClr k n v) s) ∧
    (b = .event → off = 0 → exec (.registerWrite (.core k) a v) s = exec (.evRaise k v) s) ∧
    (b = .sump ∧ off < 0x20 ∨ b = .noise → exec (.registerWrite (.core k) a v) s = .next s) ∧
    (b = .local_ → off = 0xC → v.getLsbD 1 = false → exec (.registerWrite (.core k) a v) s = .next (onCpu k (fun c => { c with
      vsel := if c.lock then c.vsel else v.getLsbD 0, lock := c.lock || v.getLsbD 2 }) s)) ∧
    ((cpu k s).esc = false → exec (.escreq k v) s = .next (onCpu k (fun c => { c with
      vsel := if c.lock then c.vsel else v.getLsbD 0, lock := c.lock || v.getLsbD 2, escPc := c.pc, escCause := 1
      esc := true, priv := true, mask := 7, pc := 0x210 }) s)) ∧
    (b = .local_ → off = 0xC → v.getLsbD 1 = true → (cpu k s).esc = false → exec (.registerWrite (.core k) a v) s = exec (.escreq k v) s) ∧
    ((cpu k s).esc = true → (recOf k s).trial = false → ∃ d, exec (.escreq k v) s = .next d ∧ (cpu k d).stopped = true ∧
      (cpu k d).escPc = (cpu k s).pc ∧ (if k = .control then d.ev.sumpP.getLsbD 98 = true else d.ev.sumpW.getLsbD 143 = true))

/-- Register writes by the host and by the keepers: the parts together. -/
def Obligations.RegisterWrites : Prop :=
  Claim.EventRegisterWrites ∧ Claim.RegisterWrites

/-- A write of word 0 of a valve-table entry commits words 0, 1 and 2 together; once LOCK is 1 no write of any word changes
the entry; the other entries and the other die's table stay (R458, R464). -/
def Obligations.ValveCommitAndLock : Prop :=
  ∀ (k : CoreId) (n : Fin 256) (v : Word) (s : State), keeperActs k s = true → smWf ({} : Valve) (valves k s) = true →
    let e := valveAt k n.val s
    ∃ t, exec (.valveEntryCommit k n v) s = .next t ∧
      (e.lock = true → t = s) ∧
      (e.lock = false →
        (valveAt k n.val t).valid = v.getLsbD 0 ∧ (valveAt k n.val t).base = v.extractLsb' 8 24 ∧
        (∀ w, e.stage1 = some w → (valveAt k n.val t).limit = w.extractLsb' 8 24) ∧
        (e.stage1 = none → (valveAt k n.val t).limit = e.limit) ∧
        (∀ w, e.stage2 = some w → let x := valveAt k n.val t
          x.mset = w.extractLsb' 0 16 ∧ x.tid = w.extractLsb' 16 4 ∧ x.kr = w.getLsbD 20 ∧ x.kw = w.getLsbD 21 ∧
          x.kx = w.getLsbD 22 ∧ x.tr = w.getLsbD 23 ∧ x.tw = w.getLsbD 24 ∧ x.tx = w.getLsbD 25 ∧ x.sealed = w.getLsbD 26 ∧
          x.cache = w.extractLsb' 27 2 ∧ x.order = (if w.extractLsb' 29 2 = 3 then 0 else w.extractLsb' 29 2) ∧
          x.lock = w.getLsbD 31) ∧
        (e.stage2 = none → ∃ b l, valveAt k n.val t = { e with valid := v.getLsbD 0, base := b, limit := l, stage1 := none })) ∧
      (∀ m, m ≠ n.val → valveAt k m t = valveAt k m s) ∧ (∀ j, j ≠ k → valves j t = valves j s) ∧
      (cpu k t) = cpu k s ∧ t.me = s.me ∧ smWf ({} : Valve) (valves k t) = true

/-- A step takes the command at the front of the queue and answers what it does to the state with the queue's rest; on an empty queue a
calm device on which nothing falls due only lets one tick of 4 ns pass, as does one in reset (R180 gives the time clock; the queue and the tick are the model's choice, log 2). -/
def Obligations.StepTakesFront : Prop :=
  (∀ (i : Instr) (rest : List Instr) (s : State), step { s with pending := i :: rest } = exec i { s with pending := rest }) ∧
  ∀ s : State, s.pending = [] →
    (Calm s → NothingDue (advance 1 s) → step s = .next (advance 1 s)) ∧
    (running s = false → s.plat.swap = none → s.cpuC.restarting = none → s.cpuV.restarting = none → step s = .next (advance 1 s))

/-- The state after reset: the device in reset, its cores at the RESET vector in the keeper's mode with every interrupt masked, valve tables invalid and
unlocked, no event pending, every event masked and every SUMP bit clear, ports off and pairs independent, no session negotiated, no ring
and no queue, the time unit free-running at 0, no entry, key or group, no vault key beside the keeper's own, both engines idle, every riser channel and
dual-clock queue empty with its credits unspent, no memory byte listed, the TAP in BYPASS
without scope; the tenant rule and the memories' form hold (R13, R20, R30, R43, R91, R222, R345, R450, R458, R486, R510 to R515; a register without a
stated value is the model's choice, log 1). -/
def Obligations.ResetState : Prop :=
  let z := State.reset
  z.plat.stage = .reset ∧ z.pending = [] ∧ z.out = [] ∧ z.vtP = [] ∧ z.vtW = [] ∧
  z.ev.pend = 0 ∧ z.ev.mask = BitVec.allOnes 256 ∧ (∀ n, n < 256 → evLevel z.ev n = evLevel0 n) ∧ z.ev.sumpP = 0 ∧ z.ev.sumpW = 0 ∧
  z.ev.intcPendC = 0 ∧ z.ev.intcPendV = 0 ∧
  (∀ p : Fin 4, (portOf p z).mode = 0 ∧ (portOf p z).link = false) ∧ (∀ q, (pairOf q z).mode = .independent ∧ (pairOf q z).seq = 0) ∧
  (∀ v, (sessOf v z).negotiated = false) ∧ (∀ r, (ringOf r z).size = 0) ∧ (∀ q, (rxqOf q z).size = 0 ∧ (txqOf q z).size = 0) ∧
  z.cmd.owed = [] ∧ z.fp.ing = [] ∧ z.fp.egr = [] ∧ z.tu.state = 0 ∧ (∀ i, (kslot i z).state = 0) ∧ (∀ k, (txnOf k z).st = .free) ∧
  z.eng.vcHead = z.eng.vcTail ∧ z.eng.meHead = z.eng.meTail ∧ z.eng.vcSess = [] ∧ z.nv.life = .factory ∧
  (∀ n, 5 ≤ n → (vslot n z).ktype = 0) ∧ z.ri.st = .up ∧ z.ri.toW = {} ∧ z.ri.toP = {} ∧ z.cdc = [] ∧ z.clk.turns = [] ∧ z.plat.swap = none ∧
  z.tap.ins = .bypass ∧ z.tap.scope = 0 ∧ z.me.ctrlRam = [] ∧ z.me.vaultRam = [] ∧ z.me.mailbox = [] ∧
  (∀ k, (cpu k z).pc = 0x200 ∧ (cpu k z).mask = 7 ∧ (cpu k z).priv = true ∧ (cpu k z).esc = false ∧ (cpu k z).lc = 0 ∧ ∀ r : Reg, (cpu k z).get r = 0) ∧
  TenantSaved z ∧ Memory.wf z.me = true

/-- Every command and event keeps the memories of both dies in canonical form: addresses rising and no byte listed that reads as an
unlisted one, so that equal memories are equal data (R373, R412; the form is the model's). -/
def Obligations.MemoryFormIsInvariant : Prop :=
  ∀ s t : State, Memory.wf s.me = true → step s = .next t → Memory.wf t.me = true

/-- The row of a command's opcode. -/
def Sys2Proof.Claim.commandRow (opc : Nat) (c : Call) : Option Instr :=
  match opc with
  | 0x0101 => some (.hello c)
  | 0x0102 => some (.sessionInfo c)
  | 0x0103 => some (.echo c)
  | 0x0104 => some (.ident c)
  | 0x0201 => some (.policyLoad c)
  | 0x0202 => some (.policyGet c)
  | 0x0203 => some (.portCfg c)
  | 0x0204 => some (.pairCfg c)
  | 0x0205 => some (.rxqCfg c)
  | 0x0206 => some (.txqCfg c)
  | 0x0207 => some (.rxmapSet c)
  | 0x0208 => some (.cfgGet c)
  | 0x0301 => some (.streamAdd c)
  | 0x0302 => some (.streamDel c)
  | 0x0303 => some (.streamMod c)
  | 0x0304 => some (.streamGet c)
  | 0x0305 => some (.streamMove c)
  | 0x0401 => some (.keyLoad c)
  | 0x0402 => some (.keyRelease c)
  | 0x0403 => some (.keyInfo c)
  | 0x0404 => some (.assocLoad c)
  | 0x0501 => some (.txnOpen c)
  | 0x0502 => some (.txnCommit c)
  | 0x0503 => some (.txnAbort c)
  | 0x0504 => some (.txnStatus c)
  | 0x0505 => some (.epochAdvance c)
  | 0x0601 => some (.timeGet c)
  | 0x0602 => some (.timeSet c)
  | 0x0603 => some (.timeFeed c)
  | 0x0604 => some (.timeSrc c)
  | 0x0605 => some (.ppsCfg c)
  | 0x0606 => some (.tcCfg c)
  | 0x0607 => some (.timeCfg c)
  | 0x0701 => some (.consSet c)
  | 0x0702 => some (.consDel c)
  | 0x0703 => some (.consGet c)
  | 0x0704 => some (.consStatus c)
  | 0x0801 => some (.vkeyGen c)
  | 0x0802 => some (.vkeyImport c)
  | 0x0803 => some (.vkeyDestroy c)
  | 0x0804 => some (.vkeyInfo c)
  | 0x0805 => some (.vcBlock c)
  | 0x0806 => some (.vcDecryptVerify c)
  | 0x0807 => some (.vcHash c)
  | 0x0808 => some (.modOp c)
  | 0x0809 => some (.vsign c)
  | 0x080A => some (.vverify c)
  | 0x080B => some (.rngGet c)
  | 0x080C => some (.noiseStatus c)
  | 0x0901 => some (.tagRead c)
  | 0x0902 => some (.tagWrite c)
  | 0x0903 => some (.tagCounter c)
  | 0x0904 => some (.tagAccess c)
  | 0x0905 => some (.clMode c)
  | 0x0906 => some (.badgeRead c)
  | 0x0A01 => some (.tamperStatus c)
  | 0x0A02 => some (.tamperTest c)
  | 0x0A03 => some (.lifecycleGet c)
  | 0x0A04 => some (.lifecycleSet c)
  | 0x0A05 => some (.unlock c)
  | 0x0A06 => some (.debugAuth c)
  | 0x0A07 => some (.rootRevoke c)
  | 0x0A08 => some (.ownTake c)
  | 0x0B01 => some (.snapshot c)
  | 0x0B02 => some (.selftest c)
  | 0x0B03 => some (.pumpRestore c)
  | 0x0B04 => some (.marchRun c)
  | 0x0B05 => some (.loopback c)
  | 0x0C01 => some (.fwInfo c)
  | 0x0C02 => some (.fwBegin c)
  | 0x0C03 => some (.fwChunk c)
  | 0x0C04 => some (.fwActivate c)
  | 0x0C05 => some (.fwRollback c)
  | 0x0C06 => some (.appletLoad c)
  | 0x0C07 => some (.appletCtl c)
  | 0x0D01 => some (.calGet c)
  | 0x0D02 => some (.calSet c)
  | 0x0D03 => some (.calClear c)
  | 0x0E01 => some (.evCfg c)
  | 0x0E02 => some (.evRead c)
  | 0x0E03 => some (.sumpRead c)
  | 0x0E04 => some (.sumpClear c)
  | 0x0E05 => some (.logRead c)
  | _ => none

/-- The order of refusals of R220: a request put while the device does not run has no effect; while the control core is down it is answered
BUSY; else the first failing step answers: not READY, the version, the opcode or its feature, the expert mask, the outstanding limit, a
duplicate TAG, SEALED, RETIRED; then the parameters; a vault-served command without its vault is HW_FAULT. A request its transport may not
offer now stays there, or over SPI with every slot full is discarded and counted. A refused request changes nothing but the turn and what
its reply changes; a refused HELLO leaves its session unnegotiated (R22, R35, R220 to R224, R228 to R230, R232, R234, R349 to R352). -/
def Obligations.CommandAcceptance : Prop :=
  ∀ (opc : Nat) (c : Call) (i : Instr) (s : State), commandRow opc c = some i →
    let size := 16 + (c.pkt.tlvs.map tlvSize).sum
    let e := sessOf c.via s
    let ready : Prop := s.plat.stage = .ready ∨ s.plat.stage = .recovery ∨ s.plat.stage = .swapC ∨ s.plat.stage = .swapV
    let version : Prop := if e.negotiated then c.pkt.major = e.maj ∧ c.pkt.minor ≤ e.min
      else (opc = 0x0101 ∨ opc = 0x0103 ∨ opc = 0x0104) ∧ 2 ≤ c.pkt.major
    let field : Prop := c.via = .contactless ∧ (c.pkt.expert = true ∨ contactlessOps.contains opc = false)
    let feature : Prop := ∀ b, featureOf opc = some b → bitN e.feat b = true
    let expert : Prop := c.pkt.expert = true → bitN (expertMask c.via s) (opc / 256 - 1) = true
    let free_ : Prop := (outstanding c.via s).length < sessLimit c.via
    let unique : Prop := ∀ o ∈ outstanding c.via s, o.call.pkt.tag ≠ c.pkt.tag
    let turned := onCmd (fun x => { x with turn := (turnNo c.via + 1) % turnCount }) s
    let no (r : Refuse) := exec i s = .next (deliver (mkReply c opc r.1 (refuseTlvs r) (replyVersion c s)) turned)
    let refused (r : Refuse) := Refuses opc c r.1 (refuseTlvs r) s (exec i s)
    (running s = false → exec i s = .next s) ∧
    (Calm s → viaOpen c.via s = false → exec i s = .next s) ∧
    (Calm s → mayTake c.via s = false → c.via ≠ .spi → exec i s = .next s) ∧
    (Calm s → mayTake c.via s = false → c.via = .spi → 16 ≤ s.cmd.spiReplies.length → exec i s =
      .next (raise 101 [] (onCmd (fun x => { x with spiOverrun := (x.spiOverrun + 1) % 2 ^ 32 }) s))) ∧
    (Calm s → mayTake c.via s = true → viaOpen c.via s = true → controlDown s = true →
      exec i s = .next (deliver (mkReply c opc stBusy [] (2, 0)) turned)) ∧
    (Calm s → mayTake c.via s = true → viaOpen c.via s = true → controlDown s = false →
      (16384 < size → no (stBadParam, 0, rsLength, 0)) ∧
      (size ≤ 16384 →
        (¬ ready → no (stBusy, 0, 0, 0)) ∧
        (ready → ¬ version → no (stBadVersion, 0, 0, 0)) ∧
        (ready → version → field → no (stBadOpcode, 0, rsRange, 0)) ∧
        (ready → version → ¬ field → ¬ feature → no (stBadOpcode, 0, rsFeature, 0)) ∧
        (ready → version → ¬ field → feature → ¬ expert → no (stDenied, 0, 0, 0)) ∧
        (ready → version → ¬ field → feature → expert →
          (s.nv.life = .sealed → sealedRefuses opc c = true → no (stSealed, 0, 0, 0)) ∧
          (s.nv.life = .retired → retiredServes.contains opc = false → no (stDenied, 0, 0, 0)) ∧
          (acceptRefuse opc c s = none → asksVault opc c = false ∨ s.ri.st ≠ .retraining →
            (∀ r, (checkTlvs c.pkt.expert (agreed c.via 7 s) (params opc) c.pkt.tlvs [] 16).or (missingPar (params opc) c.pkt) = some r →
              if opc = 0x0101 then Refuses opc c r.1 (refuseTlvs r) (setSess c.via {} s) (exec i s) else refused r) ∧
            ((checkTlvs c.pkt.expert (agreed c.via 7 s) (params opc) c.pkt.tlvs [] 16).or (missingPar (params opc) c.pkt) = none →
              (∀ r, featureRefuse opc c s = some r → refused r) ∧
              (featureRefuse opc c s = none → (vaultServed opc c = true ∧ vaultDown s = true ∨ s.plat.stage = .recovery ∧ recoveryServes opc c s = false) →
                refused (stHwFault, 0, 0, 0))))))) ∧
    (running s = true → viaOpen c.via s = true → controlDown s = false → size ≤ 16384 → ready → version → ¬ field → feature → expert →
      (¬ free_ → acceptRefuse opc c s = some (stBusy, 0, 0, 0)) ∧
      (free_ → ¬ unique → acceptRefuse opc c s = some (stBadParam, 0, rsDupTag, 0)))

/-- HELLO agrees the highest common protocol version and the features both sides have, SESSION_INFO, ECHO and IDENT answer
what R222, R243 and R9 list, and nothing else of the device changes (R222 to R224, R243, R9). -/
def Obligations.SessionCommands : Prop :=
  ∀ (c : Call) (s : State),
    (Ready 0x0101 c s → ∀ hi lo minor feat, argN c 1 = some hi → argN c 2 = some minor → argN c 3 = some lo →
      argN c 4 = some feat →
      (lo ≤ 3 → 3 ≤ hi → let f := feat &&& 0xFF
        RepliesOk 0x0101 c [r8 1 3, r8 2 0, r64 3 f, r16 4 0x0300]
          (setSess c.via { negotiated := true, maj := 3, min := 0, feat := f } s) (exec (.hello c) s)) ∧
      (lo ≤ 2 → hi = 2 → let f := feat &&& 0x71
        RepliesOk 0x0101 c [r8 1 2, r8 2 (min minor 4), r64 3 f, r16 4 0x0300]
          (setSess c.via { negotiated := true, maj := 2, min := min minor 4, feat := f } s) (exec (.hello c) s)) ∧
      (lo ≤ hi → 3 < lo ∨ hi < 2 →
        Refuses 0x0101 c stBadVersion [r16 4 0x0300] (setSess c.via {} s) (exec (.hello c) s))) ∧
    (Ready 0x0102 c s → let e := sessOf c.via s
      RepliesOk 0x0102 c [r8 1 e.maj, r8 2 e.min, r64 3 e.feat, r8 4 (transportNo c.via), r16 5 (expertMask c.via s)] s
        (exec (.sessionInfo c) s)) ∧
    (Ready 0x0103 c s → ∀ b, argOf c 1 = some b → RepliesOk 0x0103 c [rtlv 1 b] s (exec (.echo c) s)) ∧
    (Ready 0x0104 c s →
      RepliesOk 0x0104 c [r16 1 0x4016, r16 2 Config.stepCode, r64 3 Config.serial, r32 4 Config.romVersion, r32 5 s.fw.verC,
        r32 6 s.fw.verV, r8 7 2, r16 8 0x0300] s (exec (.ident c) s))

/-- Policy and configuration: a newer accepted policy is stored in one of the two copies and put in force; queue settings,
default-map and loopback settings take the values given, the others stay; port and pair modes take effect with the link; the
settings can be read back (R54, R55, R91, R243, R355, R531). -/
def Obligations.ConfigurationCommands : Prop :=
  ∀ (c : Call) (s : State),
    (Ready 0x0201 c s → ∀ o, authArg c 1 [0x10] s = some o → policyOk o.body = true →
      s.pol.version < (policyOf o.body).version →
      ∃ d, exec (.policyLoad c) s = .next (answered 0x0201 c stOk [r32 1 (policyOf o.body).version] d) ∧
        d.pol = policyOf o.body ∧ d.bk.table = (policyOf o.body).tamper ∧
        (d.nv.polA = some o ∧ d.nv.polB = s.nv.polB ∨ d.nv.polB = some o ∧ d.nv.polA = s.nv.polA)) ∧
    (Ready 0x0202 c s → c.pkt.expert = false → let p := s.pol
      RepliesOk 0x0202 c [r32 1 p.version, r8 2 (b2n p.dual), r16 3 p.expertPcie, r16 3 p.expertSpi, r16 3 p.expertApp] s
        (exec (.policyGet c) s)) ∧
    (Ready 0x0203 c s → ∀ p m, argN c 1 = some p → argN c 2 = some m →
      ∃ d up, exec (.portCfg c) s = .next (answered 0x0203 c stOk [r8 1 m, r8 2 (b2n up)] d) ∧
        (up = true ↔ m ≠ 0 ∧ (portOf p s).linkIn = true ∧ s.plat.refLine = true ∧ pinsTaken s = false) ∧
        (portOf p d).mode = m ∧ (portOf p d).link = up ∧ (∀ q, q ≠ p → portOf q d = portOf q s) ∧ d.tu = s.tu) ∧
    (Ready 0x0204 c s → ∀ q m, argN c 1 = some q → argN c 2 = some m →
      ∃ d, exec (.pairCfg c) s = .next (answered 0x0204 c stOk [r8 1 m] d) ∧ pairModeNo (pairOf q d).mode = m ∧
        (∀ b, argOf c 3 = some b → (pairOf q d).nodeMac = BitVec.ofNat 48 (beNat b)) ∧
        ((pairOf q s).mode ≠ (pairOf q d).mode → (pairOf q d).seq = 0 ∧ (pairOf q d).marks = []) ∧
        ∀ p, p ≠ q → pairOf p d = pairOf p s) ∧
    (Ready 0x0205 c s → c.pkt.expert = false → ∀ q base size cbase csize, argN c 1 = some q → argN c 2 = some base →
      argN c 3 = some size → argN c 4 = some cbase → argN c 5 = some csize → (rxqOf q s).size = 0 → size ≠ 0 → csize ≠ 0 →
      sizeOk size = true → sizeOk csize = true → argN c 7 ≠ some 0 → argD c 8 0 < 8192 →
      RepliesOk 0x0205 c [] (advance 1 <| onFp (fun f => { f with rxq := smMod {} f.rxq q (fun y => { y with
        base := base, size := size, cbase := cbase, csize := csize, vector := argD c 6 y.vector, vfmt := argD c 7 y.vfmt
        drop := argD c 8 y.drop, dtail := 0, dhead := 0, chead := 0, ctail := 0, phase := true, bufs := []
        bufUsed := 0 }) }) s) (exec (.rxqCfg c) s)) ∧
    (Ready 0x0206 c s → c.pkt.expert = false → ∀ q base size cbase csize, argN c 1 = some q → argN c 2 = some base →
      argN c 3 = some size → argN c 4 = some cbase → argN c 5 = some csize → (txqOf q s).size = 0 → size ≠ 0 → csize ≠ 0 →
      sizeOk size = true → sizeOk csize = true →
      RepliesOk 0x0206 c [] (onFp (fun f => { f with txq := smMod {} f.txq q (fun y => { y with
        base := base, size := size, cbase := cbase, csize := csize, vector := argD c 6 y.vector, dtail := 0, dhead := 0
        chead := 0, ctail := 0, phase := true, descs := [], order := [], waiting := false }) }) s) (exec (.txqCfg c) s)) ∧
    (Ready 0x0207 c s → ∀ p o q, argN c 1 = some p → argN c 2 = some o → argN c 3 = some q → o = 2 ∨ o = 5 ∨ o = 7 →
      RepliesOk 0x0207 c [] (onFp (fun f => { f with ports := smMod {} f.ports p (fun x => { x with
        mapUnknown := if o = 2 then q else x.mapUnknown, mapMalformed := if o = 5 then q else x.mapMalformed
        mapUnprot := if o = 7 then q else x.mapUnprot }) }) s) (exec (.rxmapSet c) s)) ∧
    (Ready 0x0208 c s → ∀ p, argN c 1 = some p → argN c 2 = none → argN c 3 = none → let x := portOf p s
      RepliesOk 0x0208 c [r8 1 x.mode, r8 2 (b2n x.link), r32 3 x.txeq, r32 4 x.rxadapt, r8 5 x.mapUnknown,
        r8 6 x.mapMalformed, r8 7 x.mapUnprot, r8 8 x.loopback] s (exec (.cfgGet c) s)) ∧
    (Ready 0x0B05 c s → ∀ p m, argN c 1 = some p → argN c 2 = some m →
      RepliesOk 0x0B05 c [] (onFp (fun f => { f with ports := smMod {} f.ports p (fun x => { x with loopback := m }) }) s)
        (exec (.loopback c) s))

/-- Stream commands in an OPEN transaction: an addition of a subscribe stream stages a PENDING entry with the fields given at
a free position, a deletion and a change of its settings stage the other bank, a move stages its destination; STREAM_GET
reads an entry (R100, R105, R108 to R110, R128, R135, R136). -/
def Sys2Proof.Claim.StreamCommands : Prop :=
  (∀ (c : Call) (s : State), Ready 0x0304 c s → ∀ i, argN c 1 = some i →
    RepliesOk 0x0304 c [r32 1 i, rtlv 2 (entryBytes (curEntry i s))] s (exec (.streamGet c) s)) ∧
  ∀ (c : Call) (s : State) (k : Nat), argN c tyTxn = some k → (txnOf k s).st = .open_ → (txnOf k s).failed = false →
    (txnOf k s).staged.length < 65536 → c.pkt.expert = false →
    let key := argKey c 1 2 3 4 5 6 s
    let b : Bank := { kpair := argD c 9 0, prof := argD c 8 0, kepoch := argD c 10 0, rxq := argD c 11 0, pfv := argD c 12 0
                      tbnd := argD c 13 0 }
    (Ready 0x0301 c s → key.publish = false → key.fclass ≠ 0 → argD c 7 0 = 0 ∨ 256 ≤ argD c 7 0 →
      tbndOk b.tbnd key.fclass = true → b.prof ≠ 3 → b.pfv = 0 → findStream key s = none → waitingAdd key s = none →
      ∀ i, (candidates key s).find? (fun j => freePos j s) = some i → (curEntry i s).quar = false →
      (∀ j f, Change.delete j f ∉ (txnOf k s).staged) →
      ∃ d, exec (.streamAdd c) s = .next (answered 0x0301 c stOk [r32 1 i] d) ∧ entryKey (curEntry i d) = key ∧
        (curEntry i d).used = true ∧ (curEntry i d).sta = .pending ∧ (curEntry i d).txa = k ∧ (curEntry i d).bankA = b ∧
        (curEntry i d).stb = .idle ∧ (curEntry i d).wrapLine = argD c 7 0 ∧ (curEntry i d).version = 0 ∧
        (txnOf k d).staged = (txnOf k s).staged ++ [.add i] ∧ d.nv = s.nv ∧ d.fp = s.fp) ∧
    (Ready 0x0302 c s → ∀ i, argN c 1 = some i → changeRefuse c k i s = none → (txnOf k s).staged = [] →
      (curEntry i s).sta = .active →
      ∃ d, exec (.streamDel c) s = .next (answered 0x0302 c stOk [] d) ∧ (txnOf k d).staged = [.delete i false] ∧
        curEntry i d = { curEntry i s with stb := .pendingDel, txb := k, bankB := (curEntry i s).bankA } ∧ d.nv = s.nv) ∧
    (Ready 0x0303 c s → ∀ i q, argN c 1 = some i → changeRefuse c k i s = none → (txnOf k s).staged = [] →
      (curEntry i s).sta = .active → (curEntry i s).publish = false → argN c 5 = some q → argN c 2 = none → argN c 3 = none →
      argN c 4 = none → argN c 6 = none → argN c 7 = none →
      bankRefuse c (curEntry i s).bankA (curEntry i s).fclass 2 6 7 s = none →
      ∃ d, exec (.streamMod c) s = .next (answered 0x0303 c stOk [] d) ∧ (txnOf k d).staged = [.control i] ∧
        curEntry i d = { curEntry i s with stb := .pending, txb := k, bankB := { (curEntry i s).bankA with rxq := q } } ∧
        d.nv = s.nv) ∧
    (Ready 0x0305 c s → ∀ i j, argN c 1 = some i → changeRefuse c k i s = none → (txnOf k s).staged = [] →
      activeBank (curEntry i s) = true →
      (candidates (entryKey (curEntry i s)) s).find? (fun j => decide (j ≠ i) && freePos j s) = some j →
      RepliesOk 0x0305 c [r32 1 j] (onTxn k (fun t => { t with staged := [.move i j] }) (cdcPass cdcStaging 1 s))
        (exec (.streamMove c) s))

/-- Transactions: TXN_OPEN takes the lowest FREE slot or is BUSY; TXN_COMMIT at once, or armed to an instant from 10 µs to
86,400 s ahead; TXN_ABORT of an OPEN one; TXN_STATUS of one; EPOCH_ADVANCE staged once, and its commit advances the epoch in
counter 4 (R130, R135 to R139, R141). -/
def Sys2Proof.Claim.TransactionCommands : Prop :=
  ∀ (c : Call) (s : State),
    (Ready 0x0501 c s → c.pkt.expert = false → ∀ k, freeTxn s = some k →
      RepliesOk 0x0501 c [r8 tyTxn k] (onTxn k (fun _ => { st := .open_ }) s) (exec (.txnOpen c) s)) ∧
    (Ready 0x0501 c s → c.pkt.expert = false → (∀ k, k < 8 → (txnOf k s).st ≠ .free) →
      Refuses 0x0501 c stBusy [] s (exec (.txnOpen c) s)) ∧
    ∀ k, argN c tyTxn = some k → (txnOf k s).failed = false → (txnOf k s).st = .open_ →
      (Ready 0x0502 c s → argOf c 1 = none → Change.epoch ∉ (txnOf k s).staged →
        RepliesOk 0x0502 c [rtime 1 (ptp16 s)]
          (onTxn k (fun t => { t with st := .committed, instant := ptp16 s, wallAt := s.clk.now }) s) (exec (.txnCommit c) s)) ∧
      (Ready 0x0502 c s → argOf c 1 = none → Change.epoch ∈ (txnOf k s).staged →
        ∃ d, exec (.txnCommit c) s = .next (answered 0x0502 c stOk [rtime 1 (ptp16 s)] d) ∧ d.se.epoch = s.se.epoch + 1 ∧
          d.se.epochPrev = s.se.epoch ∧ monoRead 4 d = some (s.se.epoch + 1) ∧ (txnOf k d).st = .committed) ∧
      (Ready 0x0502 c s → ∀ b, argOf c 1 = some b → badTime c 1 = false → ptp16 s + 10000 * 65536 ≤ bytesTime b →
        bytesTime b ≤ ptp16 s + 86400 * 1000000000 * 65536 →
        RepliesOk 0x0502 c [rtime 1 (bytesTime b)] (onTxn k (fun t => { t with st := .armed, instant := bytesTime b }) s)
          (exec (.txnCommit c) s)) ∧
      (Ready 0x0503 c s →
        RepliesOk 0x0503 c [] (onTxn k (fun t => { t with st := .aborting, settled := 0 }) s) (exec (.txnAbort c) s)) ∧
      (Ready 0x0504 c s → c.pkt.expert = false → let t := txnOf k s
        RepliesOk 0x0504 c [r8 1 (txnStNo .open_), r32 2 t.staged.length, rtime 3 t.instant, r32 4 t.settled] s
          (exec (.txnStatus c) s)) ∧
      (Ready 0x0505 c s → s.se.epochOk = true → s.se.epoch < 0xFFFFFFFF → (txnOf k s).staged.length < 65536 →
        (∀ j, j ≠ k → Change.epoch ∉ (txnOf j s).staged) → Change.epoch ∉ (txnOf k s).staged →
        RepliesOk 0x0505 c [r32 1 (s.se.epoch + 1)]
          (onTxn k (fun t => { t with staged := t.staged ++ [.epoch] }) (cdcPass cdcStaging 1 s)) (exec (.epochAdvance c) s)) ∧
      (∀ b, (Ready 0x0502 c s) → argOf c 1 = some b → badTime c 1 = true →
        Refuses 0x0502 c stBadParam (refuseTlvs (stBadParam, tlvOffset c.pkt 1 0, rsRange, 1)) s (exec (.txnCommit c) s))

/-- Streams and transactions by command: the parts together. -/
def Obligations.StreamCommands : Prop :=
  Claim.StreamCommands ∧ Claim.TransactionCommands

/-- Pump keys: KEY_LOAD unwraps the package and sends key and mask on the KEY channel to an EMPTY slot of the pair, or
drains the slot of the lower EPOCH and queues the load, and waits for its row; KEY_RELEASE drains an ACTIVE slot and waits
until it is EMPTY; KEY_INFO reads a descriptor; ASSOC_LOAD stores an association, and its expert form removes one
(R133, R156, R163, R168, R169, R534). -/
def Obligations.KeyCommands : Prop :=
  ∀ (c : Call) (s : State),
    (Ready 0x0401 c s → ∀ n o p, argN c 1 = some n → authArg c 2 [0x13] s = some o → (openPackage c o s).1 = .ok p → p.ktype ≤ 2 →
      argN c 3 = none → argN c 4 = none → ∀ slot other, (slot = 2 * n ∧ other = 2 * n + 1 ∨ slot = 2 * n + 1 ∧ other = 2 * n) →
      (kslot slot s).drainBad = false → ¬ ((kslot other s).state = 1 ∧ (kslot other s).keyId = p.keyId) →
      let msg (mask : BitVec 256) : KeyMsg := {
        slot := slot, ktype := p.ktype, keyId := p.keyId, epoch := p.epoch, notAfter := p.notAfter
        share0 := BitVec.ofNat 256 (beNat p.key) ^^^ mask, share1 := mask }
      ((kslot slot s).state = 0 → (slot = 2 * n ∨ (kslot other s).state ≠ 0) →
        ∃ d mask, exec (.keyLoad c) s = .next (waits 0x0401 c (.keyLoaded slot) d) ∧
          d = { s with
            nw := d.nw, free := d.free, clk := d.clk, tu := { s.tu with time := d.tu.time }
            eng := { s.eng with vcCache := d.eng.vcCache, vcGen := d.eng.vcGen }
            pu := { s.pu with keyChan := s.pu.keyChan ++ [msg mask] } }) ∧
      ((kslot slot s).state = 1 → (kslot other s).state ≠ 0 → (kslot slot s).epoch < (kslot other s).epoch →
        ∃ d mask, exec (.keyLoad c) s = .next (waits 0x0401 c (.keyLoaded slot) d) ∧ (kslot slot d).state = 2 ∧
          (kslot other d) = kslot other s ∧ d.pu.queued = s.pu.queued ++ [msg mask] ∧ d.pu.keyChan = s.pu.keyChan ∧
          (∀ i, i ≠ slot → kslot i d = kslot i s) ∧ d.fp = s.fp ∧ d.nv = s.nv)) ∧
    (Ready 0x0402 c s → ∀ i, argN c 1 = some i →
      ((kslot i s).state = 0 → RepliesOk 0x0402 c [] s (exec (.keyRelease c) s)) ∧
      ((kslot i s).state = 1 → ∃ d, exec (.keyRelease c) s = .next (waits 0x0402 c (.slotEmpty [i]) d) ∧
        kslot i d = { kslot i s with state := 2, drainAt := some s.clk.now } ∧ (∀ j, j ≠ i → kslot j d = kslot j s) ∧
        ((kslot i s).ref = 0 → i ∈ d.pu.drained) ∧
        d = { s with se := d.se, pu := { s.pu with drained := d.pu.drained }, ri := d.ri, cdc := d.cdc })) ∧
    (Ready 0x0403 c s → ∀ i, argN c 1 = some i → let k := kslot i s
      RepliesOk 0x0403 c ([r32 1 k.keyId, r32 2 k.epoch, r64 3 k.notAfter, r8 4 k.state, r8 5 k.ktype] ++
        (if c.pkt.expert then [r16 6 k.ref, r32 7 k.corrected, r16 8 (k.spare.getD 65535)] else [])) s (exec (.keyInfo c) s)) ∧
    (Ready 0x0404 c s → argN c 2 = none → ∀ o, authArg c 1 [0x12] s = some o → o.body.length = 32 →
      leNat (slice o.body 0 8) = Config.serial % 2 ^ 64 → leNat (slice o.body 8 8) ≠ Config.serial % 2 ^ 64 →
      leNat (slice o.body 16 2) < 16384 → (∀ b ∈ o.body.drop 18, b = 0) →
      let pair := leNat (slice o.body 16 2)
      RepliesOk 0x0404 c [r16 1 pair] (onNv (fun n => { n with
        assocs := smSet {} n.assocs pair { peer := leNat (slice o.body 8 8), held := true } }) s) (exec (.assocLoad c) s)) ∧
    (Ready 0x0404 c s → c.pkt.expert = true → ∀ p, argN c 2 = some p → assocUsed p s = false →
      RepliesOk 0x0404 c [r16 1 p] (onNv (fun n => { n with assocs := smSet {} n.assocs p {} }) s) (exec (.assocLoad c) s))

/-- Time commands: TIME_GET reads time, STATE, U_eff rounded up, FREQ and UTCOFF; TIME_SET steps the time; TIME_FEED runs
the servo's filter and reports the offset; TIME_SRC, PPS_CFG, TC_CFG and TIME_CFG set what they name and leave the rest
(R187, R189, R190, R192, R194, R195). -/
def Obligations.TimeCommands : Prop :=
  ∀ (c : Call) (s : State),
    (Ready 0x0601 c s → c.pkt.expert = false → ∀ u : Nat, (s.tu.state = 0 → u = 0xFFFFFFFF) →
      (s.tu.state ≠ 0 → ((u : Int) - 1) * uScale < uEff (timeSnap s.tu) (ptp16 s) ∧
        uEff (timeSnap s.tu) (ptp16 s) ≤ u * uScale ∧ u ≤ 0xFFFFFFFE) →
      RepliesOk 0x0601 c [rtime 1 (ptp16 s), r8 2 s.tu.state, r32 3 u, r32 4 (ofSigned 4 s.tu.freq), r16 5 (ofSigned 2 s.tu.utcoff)]
        s (exec (.timeGet c) s)) ∧
    (Ready 0x0602 c s → c.pkt.expert = true ∨ s.tu.state = 0 → argN c 2 = none → ∀ b, argOf c 1 = some b →
      leNat (slice b 6 4) < 1000000000 →
      ∃ d, exec (.timeSet c) s = .next (answered 0x0602 c stOk [rtime 1 (ptp16 d)] d) ∧ d.tu.time = bytesTime b / 65536 * 2 ^ 48 ∧
        min 0xFFFFFFFF s.tu.uset ≤ d.tu.uset ∧ d.ev.pend.getLsbD 45 = true ∧ d.tu.freq = s.tu.freq ∧ d.tu.state = s.tu.state ∧
        d.nv = s.nv ∧ d.cpuC = s.cpuC) ∧
    (Ready 0x0603 c s → c.pkt.expert = false → s.tu.src = 1 → ∀ b1 b2 m p, argOf c 1 = some b1 → argOf c 2 = some b2 →
      argN c 3 = some m → argN c 4 = some p → leNat (slice b1 6 4) < 1000000000 → leNat (slice b2 6 4) < 1000000000 →
      let o16 : Int := (bytesTime b2 : Int) - bytesTime b1 - toSigned 8 m - toSigned 8 p
      let o := (2 * o16 + 65536) / 131072
      let t : Int := ((bytesTime b2 / 65536 : Nat) : Int)
      o16.natAbs ≤ s.tu.stepThr * 65536 → s.tu.haveLast = true → s.tu.last < t →
      let r := (o * 65536 * 1000000000).tdiv (t - s.tu.last)
      let integ := clampI (s.tu.integ + (s.tu.ki : Int) * r / 65536) (-2147483648) 2147483647
      ∃ d, exec (.timeFeed c) s = .next (answered 0x0603 c stOk [r64 1 (ofSigned 8 o)] d) ∧ d.tu.integ = integ ∧
        d.tu.freq = clampI (-((s.tu.kp : Int) * r / 65536 + integ)) (-2147483648) 2147483647 ∧ d.tu.last = t ∧
        d.tu.offs = (s.tu.offs ++ [o]).drop (s.tu.offs.length - 7) ∧
        d.tu.uset = min 0xFFFFFFFF (max 200 (2 * maxAbs d.tu.offs)) ∧
        (smFind s.clk.turns (turnTime * 2 ^ 32) = none → d.tu.time = s.tu.time) ∧ d.fp = s.fp) ∧
    (Ready 0x0604 c s → ∀ v r, argN c 1 = some v → argN c 2 = some r → argN c 7 ≠ some 0 →
      let x (ty d : Nat) : Nat := if c.pkt.expert then argD c ty d else d
      RepliesWith 0x0604 c [] (fun d =>
        d = { onTu (fun t => { t with
            src := v, ref10 := decide (r = 1), haveLast := false, stepThr := x 3 t.stepThr, kp := x 4 t.kp, ki := x 5 t.ki
            lockThr := x 6 t.lockThr, lockN := x 7 t.lockN, refSel := decide (r = 1), refOk := d.tu.refOk
            refPresent := d.tu.refPresent }) s with free := d.free } ∧
        (r = 0 ∨ s.tu.refPresent = true → d.tu.refOk = decide (r = 1) ∧ d.tu.refPresent = s.tu.refPresent ∧ d.free = s.free) ∧
        (d.tu.refOk = true → d.tu.refPresent = true ∨ r = 0))
        (exec (.timeSrc c) s)) ∧
    (Ready 0x0605 c s → let w := argD c 2 s.tu.ppsWidth
      let off := match argN c 3 with | some v => toSigned 4 v | none => s.tu.ppsOffset
      1000 ≤ w → w ≤ 500000000 → -500000000 ≤ off → off ≤ 500000000 →
      RepliesWith 0x0605 c [] (fun d => d = onTu (fun t => { t with
          ppsWidth := w, ppsOffset := off, ppsInFalling := decide (argD c 4 (b2n t.ppsInFalling) = 1)
          ppsWindow := if c.pkt.expert then argD c 5 t.ppsWindow else t.ppsWindow
          ppsOutEn := (match argN c 1 with | some v => decide (v = 1) | none => t.ppsOutEn), ppsLastEdge := d.tu.ppsLastEdge }) s)
        (exec (.ppsCfg c) s)) ∧
    (Ready 0x0606 c s → ∀ p, argN c 1 = some p → argD c 3 0 ≤ 65535 * 65536 → argD c 4 0 ≤ 65535 * 65536 →
      RepliesWith 0x0606 c [] (fun d =>
        pairOf p d = { pairOf p s with
          tcEn := decide (argD c 2 (b2n (pairOf p s).tcEn) = 1)
          tcMask := if c.pkt.expert then argD c 5 (pairOf p s).tcMask else (pairOf p s).tcMask } ∧
        smGet 0 d.tu.ldelay (2 * p) = argD c 3 (smGet 0 s.tu.ldelay (2 * p)) ∧
        smGet 0 d.tu.ldelay (2 * p + 1) = argD c 4 (smGet 0 s.tu.ldelay (2 * p + 1)) ∧
        d = { s with tu := { s.tu with ldelay := d.tu.ldelay }, fp := { s.fp with pairs := d.fp.pairs } })
        (exec (.tcCfg c) s)) ∧
    (Ready 0x0607 c s → argOf c 2 = none → argD c 3 0 ≤ 65535 → argD c 4 0 ≤ 255 →
      (∀ u, argN c 5 = some u → 1000 ≤ u ∧ (c.pkt.expert = true ∨ u ≤ 1000000)) →
      RepliesWith 0x0607 c [] (fun d => d = onTu (fun t => { t with
          drift := argD c 3 t.drift, holdto := argD c 4 t.holdto, umax := argD c 5 t.umax, hist := d.tu.hist
          utcoff := (match argN c 1 with | some v => toSigned 2 v | none => t.utcoff)
          utcvalid := (match argN c 1 with | some _ => true | none => t.utcvalid)
          utcNext := (match argN c 1 with | some _ => none | none => t.utcNext) }) s)
        (exec (.timeCfg c) s)) ∧
    (Ready 0x0607 c s → argN c 3 = none → argN c 4 = none → argN c 5 = none → ∀ v b, argN c 1 = some v → argOf c 2 = some b →
      leNat (slice b 6 4) < 1000000000 → ptp16 s < bytesTime b →
      RepliesWith 0x0607 c [] (fun d => d = onTu (fun t => { t with utcNext := some (toSigned 2 v, bytesTime b), hist := d.tu.hist }) s)
        (exec (.timeCfg c) s))

/-- Consistency commands: CONS_SET makes a group of the operands given, with the basic form's offsets, deadline 8, no
acceptance and the streams' common rate, and clears its books; CONS_DEL removes the group; CONS_GET answers the group's
counters, CONS_STATUS the rates and the evaluations of the last second (R200, R201, R203, R208, R209). -/
def Obligations.ConsCommands : Prop :=
  ∀ (c : Call) (s : State),
    (Ready 0x0701 c s → c.pkt.expert = false → ∀ g thr prop, argN c 1 = some g → argN c 3 = some thr → argN c 4 = some prop →
      groupOf g s = {} → argsOf c 2 ≠ [] → (∀ b ∈ argsOf c 2, operandBad b s = false) →
      let ops := (argsOf c 2).map parseOperand
      ∀ w, (∀ o ∈ ops, smpWrapOf o.idx s = w) → w ≤ 14400 → rateSum s + w ≤ 58982400 →
      (∀ i, (s.co.groups.map (fun e => e.2.ops.countP (fun o => o.live && o.idx == i))).sum +
        ops.countP (fun o => o.idx == i) ≤ 16) →
      RepliesWith 0x0701 c [] (fun d => groupOf g d = { ops := ops, thr := thr, prop := prop, w := w, rate := w, d := 8 } ∧
          (∀ x, x ≠ g → groupOf x d = groupOf x s) ∧ d = { s with co := { s.co with groups := d.co.groups, queue := d.co.queue } })
        (exec (.consSet c) s)) ∧
    (Ready 0x0702 c s → c.pkt.expert = false → ∀ g, argN c 1 = some g →
      RepliesWith 0x0702 c [] (fun d => groupOf g d = {} ∧ (∀ x, x ≠ g → groupOf x d = groupOf x s) ∧ d.nv = s.nv ∧ d.se = s.se)
        (exec (.consDel c) s)) ∧
    (Ready 0x0703 c s → c.pkt.expert = false → ∀ g, argN c 1 = some g → (groupOf g s).ops ≠ [] → let p := groupOf g s
      ∃ dfn last, RepliesOk 0x0703 c [rtlv 1 dfn, r32 2 p.nCons, r32 3 p.nIncons, r32 4 p.nInc, r32 5 p.nStale, rtlv 6 last] s
        (exec (.consGet c) s)) ∧
    (Ready 0x0704 c s →
      let ev := (s.co.evalTimes.filter (fun t => s.clk.now < t + 250000000)).length
      RepliesOk 0x0704 c ([r32 1 (s.co.groups.map (fun e => e.2.rate)).sum, r32 2 ev] ++
          (if c.pkt.expert then [r32 3 s.co.hwm] else []))
        (if c.pkt.expert then onCo (fun u => { u with hwm := u.queue.length }) s else s) (exec (.consStatus c) s))

/-- Vault key slots: VKEY_GEN and VKEY_IMPORT fill the lowest EMPTY slot from 16 up, or the EMPTY slot the expert form
names, with the basic form's settings, SALT drawn, NEXT 0 and BASESET clear; VKEY_DESTROY with nothing queued erases the
slot; VKEY_INFO answers type, usage, limit and nonce mode (R245 to R249, R284; log 48). -/
def Obligations.VaultKeyCommands : Prop :=
  ∀ (c : Call) (s : State),
    let free (i : Nat) : Prop := 16 ≤ i ∧ i < 256 ∧ (vslot i s).ktype = 255
    let takes (i : Nat) : Prop := free i ∧ (argN c 2 = none ∧ (∀ j, j < i → ¬ free j) ∨ c.pkt.expert = true ∧ argN c 2 = some i)
    let usage (kt : Nat) : Nat := if kt ≤ 1 then 27 else if kt = 2 then 4 else if kt = 6 ∨ kt = 8 then 64 else 32
    let filled (i : Nat) (v : VSlot) (d : State) : Prop := vslot i d = { v with salt := (vslot i d).salt, wrapped := (vslot i d).wrapped } ∧
      (∀ j, j ≠ i → vslot j d = vslot j s) ∧
      d = { s with
        nw := d.nw, free := d.free, clk := d.clk, tu := { s.tu with time := d.tu.time }, nv := { s.nv with slots := d.nv.slots }
        eng := { s.eng with vcCache := d.eng.vcCache, vcGen := d.eng.vcGen } }
    (Ready 0x0801 c s → s.nw.lost = false → ∀ kt i, argN c 1 = some kt → kt ≤ 9 → takes i →
      (argOf c 3 = none → RepliesWith 0x0801 c [r16 1 i]
        (filled i { ktype := kt, usage := usage kt, nmode := 0, slimit := 32, next := 0, baseset := false }) (exec (.vkeyGen c) s)) ∧
      (∀ u m l, c.pkt.expert = true → argOf c 3 = some [u, m, l] → m.toNat ≤ 2 → 12 ≤ l.toNat → l.toNat ≤ 40 →
        RepliesWith 0x0801 c [r16 1 i]
          (filled i { ktype := kt, usage := u.toNat, nmode := m.toNat, slimit := l.toNat, next := 0, baseset := false })
          (exec (.vkeyGen c) s))) ∧
    (Ready 0x0802 c s → ∀ o p i, authArg c 1 [0x13] s = some o → (openPackage c o s).1 = .ok p → takes i →
      RepliesWith 0x0802 c [r16 1 i] (fun d => (vslot i d).wrapped = wrapKey p.key s ∧
        filled i { ktype := p.ktype, usage := usage p.ktype, nmode := 0, slimit := 32, next := 0, baseset := false } d)
        (exec (.vkeyImport c) s)) ∧
    (Ready 0x0803 c s → ∀ i, argN c 1 = some i → 16 ≤ i → (vslot i s).ktype ≠ 255 → s.eng.vcHead = s.eng.vcTail →
      s.eng.vcTail < 256 → s.eng.meHead = s.eng.meTail → s.eng.meTail < 8 →
      RepliesWith 0x0803 c [] (fun d => vslot i d = {} ∧ (∀ j, j ≠ i → vslot j d = vslot j s) ∧ (∀ l ∈ d.eng.vcCache, l.slot ≠ i) ∧
          d = { s with nv := { s.nv with slots := d.nv.slots }, eng := { s.eng with vcCache := d.eng.vcCache } })
        (exec (.vkeyDestroy c) s)) ∧
    (Ready 0x0804 c s → ∀ i, argN c 1 = some i → 16 ≤ i → (vslot i s).ktype ≠ 255 → let v := vslot i s
      RepliesOk 0x0804 c [r8 1 v.ktype, rtlv 2 (natLE 1 v.usage ++ natLE 1 v.slimit), rtlv 3 (natLE 1 v.nmode ++ natLE 1 (b2n v.baseset))] s
        (exec (.vkeyInfo c) s))

/-- The completion of the cipher request at the head over state d: its index, status and nonce at the completion ring's slot, the
head and the count of requests moved on, the interrupt where the descriptor asks for it, and then what the engine does by itself
(R250, R251, R253, R254). -/
def Sys2Proof.Claim.vcDone (r : VcReq) (status : Nat) (nonce : Bytes) (d : State) : State :=
  let i := d.eng.vcHead
  let t := onEng (fun e => { e with vcHead := (i + 1) % 256, vcDone := e.vcDone + 1, vcMine := e.vcMine.filter (fun n => e.vcDone < n) })
    (ramPut .vault (d.eng.vcCBase + 16 * i) (natLE 2 i ++ natLE 2 status ++ nonce) d)
  vcGo 256 (if r.irq then raise 128 [] t else t)

/-- One request of a command has run at the head of the cipher engine's queue, which was empty: head, tail and count have
moved on, and its completion entry stands in vault RAM (R250, R251). -/
def Sys2Proof.Claim.VcRan (s d : State) : Prop :=
  d.eng = { s.eng with
      vcHead := (s.eng.vcHead + 1) % 256, vcTail := (s.eng.vcTail + 1) % 256, vcDone := s.eng.vcDone + 1
      vcMine := d.eng.vcMine, vcCache := d.eng.vcCache, vcGen := d.eng.vcGen, hold := d.eng.hold } ∧
    (∀ a, a + 0x100000 < s.eng.vcCBase + 16 * s.eng.vcHead ∨ s.eng.vcCBase + 16 * s.eng.vcHead + 16 ≤ a + 0x100000 →
      smGet 0 d.me.vaultRam a = smGet 0 s.me.vaultRam a) ∧ ∀ x ∈ d.me.faulty, x ∈ s.me.faulty

/-- The same of the modular engine: the status in the descriptor, the head moved on, the interrupt where asked for (R265). -/
def Sys2Proof.Claim.meDone (r : MeReq) (status : Nat) (d : State) : State :=
  let i := d.eng.meHead
  let t := onEng (fun e => { e with meHead := (i + 1) % 8, meDone := e.meDone + 1, meMine := e.meMine.filter (fun n => e.meDone < n) })
    (ramPut .vault (d.eng.meQBase + 16 * i + 6) (natLE 2 status) d)
  meGo 8 (if r.irq then raise 129 [] t else t)

/-- The same at the modular engine, whose status stands in the two bytes of its descriptor (R265). -/
def Sys2Proof.Claim.MeRan (s d : State) : Prop :=
  d.eng = { s.eng with
      meHead := (s.eng.meHead + 1) % 8, meTail := (s.eng.meTail + 1) % 8, meDone := s.eng.meDone + 1, meMine := d.eng.meMine
      meWork := d.eng.meWork } ∧
    (∀ a, a + 0x100000 < s.eng.meQBase + 16 * s.eng.meHead + 6 ∨ s.eng.meQBase + 16 * s.eng.meHead + 8 ≤ a + 0x100000 →
      smGet 0 d.me.vaultRam a = smGet 0 s.me.vaultRam a) ∧ ∀ x ∈ d.me.faulty, x ∈ s.me.faulty

/-- Vault crypto services, put to engines whose queues are empty, on a usable key: block encryption and decryption,
authenticated decryption with its hold buffer, the hashes, the modular engine's operations, signatures, verification,
random bytes and the noise status; behind descriptors of the vault core a request waits in its place, or is BUSY at a full
queue (R247, R248, R250, R252, R256, R257, R260, R267, R278, R279, R284, R285). Where a request
draws entropy the clock may move on by its turn at the pool (log 101). -/
def Obligations.VaultCryptoCommands : Prop :=
  (∀ (c : Call) (s : State) (m : Bytes), Ready 0x0807 c s → argOf c 3 = none → argOf c 2 = some m → argN c 1 = some 0 →
    s.eng.vcHead < 256 → s.eng.vcTail < 256 → s.eng.vcHead ≠ s.eng.vcTail → s.eng.vcDone ∉ s.eng.vcMine →
    vcOps.contains (vcDescAt s.eng.vcHead s).op = true →
    (vcQueueFull s = true → Refuses 0x0807 c stBusy [] s (exec (.vcHash c) s)) ∧
    (vcQueueFull s = false → exec (.vcHash c) s = .next (waits 0x0807 c (.cipher (vcPlace s))
      (onEng (fun e => { e with vcTail := (e.vcTail + 1) % 256, vcMine := e.vcMine ++ [vcPlace s] }) s)))) ∧
  ∀ (c : Call) (s : State), s.eng.vcHead = s.eng.vcTail → s.eng.meHead = s.eng.meTail →
    let key (i : Nat) (k : Bytes) : Prop := (slotKey i s).1 = some k
    let ram (d : State) : Me := { s.me with vaultRam := d.me.vaultRam, faulty := d.me.faulty }
    let ran (d : State) : Prop := VcRan s d ∧ d = { s with eng := d.eng, me := ram d }
    let refused (opc st : Nat) (p : State → Prop) (r : Res) : Prop := ∃ d, Refuses opc c st [] d r ∧ p d
    (Ready 0x0805 c s → c.pkt.expert = false → ∀ i op data k, argN c 1 = some i → argN c 2 = some op → argOf c 3 = some data →
      16 ≤ i → key i k → (vslot i s).ktype < 2 → (vslot i s).nmode = 0 → 16 ≤ data.length → data.length ≤ 16384 →
      data.length % 16 = 0 → data.length / 16 ≤ 2 ^ (vslot i s).slimit →
      let kk := fit (if (vslot i s).ktype = 0 then 16 else 32) k
      (op = 1 → mayUse (vslot i s) 0 = true →
        RepliesWith 0x0805 c [rtlv 1 ((blocksOf 16 data).map (aesEnc kk)).flatten] ran (exec (.vcBlock c) s)) ∧
      (op = 2 → mayUse (vslot i s) 1 = true →
        RepliesWith 0x0805 c [rtlv 1 ((blocksOf 16 data).map (aesDec kk)).flatten] ran (exec (.vcBlock c) s))) ∧
    (Ready 0x0806 c s → ∀ i iv aad ct tag k, argN c 1 = some i → argOf c 2 = some iv → argOf c 3 = some aad → argOf c 4 = some ct →
      argOf c 5 = some tag → 16 ≤ i → key i k → (vslot i s).ktype < 2 → mayUse (vslot i s) 4 = true →
      iv.length = 12 → tag.length = 16 → ct ≠ [] → aad.length + ct.length ≤ 16000 → (ct.length + 15) / 16 + 1 ≤ 2 ^ (vslot i s).slimit →
      let kk := fit (if (vslot i s).ktype = 0 then 16 else 32) k
      (gcmTag kk iv aad ct = tag →
        RepliesWith 0x0806 c [rtlv 1 (gcmCrypt kk iv ct)] (fun d => ran d ∧ d.eng.hold = gcmCrypt kk iv ct) (exec (.vcDecryptVerify c) s)) ∧
      (gcmTag kk iv aad ct ≠ tag →
        refused 0x0806 stTagMismatch (fun d => ran d ∧ d.eng.hold = []) (exec (.vcDecryptVerify c) s))) ∧
    (Ready 0x0807 c s → argOf c 3 = none → ∀ m, argOf c 2 = some m →
      (argN c 1 = some 0 → RepliesWith 0x0807 c [rtlv 1 (sha256 m)] ran (exec (.vcHash c) s)) ∧
      (argN c 1 = some 1 → RepliesWith 0x0807 c [rtlv 1 (sha384 m)] ran (exec (.vcHash c) s)) ∧
      (argN c 1 = some 2 → RepliesWith 0x0807 c [rtlv 1 (sha512 m)] ran (exec (.vcHash c) s))) ∧
    (Ready 0x0808 c s → ∀ op curve b, argN c 1 = some op → argN c 2 = some curve → argOf c 3 = some b →
      c.pkt.expert = true ∨ (0x10 ≤ op ∧ op ≤ 0x14) → argOf c 4 = none → meFits op curve (leNat (b.take 1)) = true →
      leNat (slice b 1 3) = 0 → (b.drop 4).length = 8 * leNat (b.take 1) * meArity op → s.nw.lost = false →
      let a := meCompute op curve (leNat (b.take 1)) (b.drop 4)
      let did (d : State) : Prop := MeRan s d ∧
        d = { s with nw := d.nw, free := d.free, clk := d.clk, tu := { s.tu with time := d.tu.time }, eng := d.eng, me := ram d }
      (a.status = stOk → RepliesWith 0x0808 c [rtlv 1 a.out] did (exec (.modOp c) s)) ∧
      (a.status = stNotOnCurve → refused 0x0808 stNotOnCurve did (exec (.modOp c) s))) ∧
    (Ready 0x0809 c s → argN c 3 = none → ∀ i m k, argN c 1 = some i → argOf c 2 = some m → 16 ≤ i → (vslot i s).ktype ∈ [3, 4, 5, 7, 9] →
      m.length ≤ 16000 → mayUse (vslot i s) 5 = true → s.nw.lost = false → key i k →
      ∃ r n, RepliesWith 0x0809 c [rtlv 1 (fit n (Config.sign (vslot i s).ktype k m r))]
        (fun d => VcRan s d ∧ d = { s with
          nw := d.nw, free := d.free, clk := d.clk, tu := { s.tu with time := d.tu.time }, eng := d.eng, me := ram d })
        (exec (.vsign c) s) ∧ ((vslot i s).ktype, n) ∈ [(3, 64), (4, 96), (5, 132), (7, 64), (9, 3309)]) ∧
    (Ready 0x080A c s → ∀ pk m sig, argOf c 1 = some pk → argOf c 2 = some m → argOf c 3 = some sig → m.length ≤ 16000 →
      pk.length = 1952 →
      (Config.mlDsaVerify pk m sig = true → RepliesWith 0x080A c [] ran (exec (.vverify c) s)) ∧
      (Config.mlDsaVerify pk m sig = false → refused 0x080A stTagMismatch ran (exec (.vverify c) s))) ∧
    (Ready 0x080A c s → ∀ pk m sig, argOf c 1 = some pk → argOf c 2 = some m → argOf c 3 = some sig → m.length ≤ 16000 →
      pk.length = 65 → leNat (pk.take 1) = 4 → beNat (slice pk 1 32) < p256.p → beNat (slice pk 33 32) < p256.p →
      (onCurve p256 (beNat (slice pk 1 32)) (beNat (slice pk 33 32)) = false →
        refused 0x080A stNotOnCurve ran (exec (.vverify c) s)) ∧
      (onCurve p256 (beNat (slice pk 1 32)) (beNat (slice pk 33 32)) = true → Config.ecdsaVerify 3 pk m sig = true →
        RepliesWith 0x080A c [] ran (exec (.vverify c) s))) ∧
    (Ready 0x080B c s → argN c 2 = none → ∀ n, argN c 1 = some n → n ≠ 0 →
      (s.nw.lost = true → Refuses 0x080B c stEntropyFail [] s (exec (.rngGet c) s)) ∧
      (s.nw.lost = false → ∀ g, s.nw.drbg = some g →
        ∃ b, RepliesWith 0x080B c [rtlv 1 b] (fun d =>
            d = { s with nw := d.nw, free := d.free, clk := d.clk, tu := { s.tu with time := d.tu.time } } ∧ d.nw.drbg ≠ none)
          (exec (.rngGet c) s))) ∧
    (Ready 0x080C c s → c.pkt.expert = false →
      RepliesOk 0x080C c [rtlv 1 (natLE 1 (bankNo s.nw.bank0.st) ++ natLE 1 (bankNo s.nw.bank1.st)),
        rtlv 2 (natLE 4 s.nw.bank0.fails ++ natLE 4 s.nw.bank1.fails)] s (exec (.noiseStatus c) s))

/-- Tag-area and badge commands while no journal group is open: DEFERRED while the field holds the lock, else TAG_READ the pages, TAG_WRITE the pages and nothing beside
them and the journal, TAG_COUNTER both copies, TAG_ACCESS password, key and maps with the failure count at 0, CL_MODE the
role, stored for tag and off, DEFERRED during a field transaction, BADGE_READ waits for its badge (R236, R289, R290, R297,
R300 to R302, R307 to R313, R315). -/
def Obligations.TagCommands : Prop :=
  (∀ (c : Call) (s : State), s.clk.now < s.cl.lockTo →
    (Ready 0x0901 c s → ∀ p n, argN c 1 = some p → argN c 2 = some n → n ≠ 0 → readRange p n = true →
      Refuses 0x0901 c stDeferred [] s (exec (.tagRead c) s)) ∧
    (Ready 0x0902 c s → ∀ p b, argN c 1 = some p → argOf c 2 = some b → b.length % 16 = 0 → 96 ≤ p → p + b.length / 16 ≤ 2048 →
      Refuses 0x0902 c stDeferred [] s (exec (.tagWrite c) s)) ∧
    (Ready 0x0903 c s → argN c 2 ≠ some 0 → Refuses 0x0903 c stDeferred [] s (exec (.tagCounter c) s))) ∧
  ∀ (c : Call) (s : State), jhdrSeq s = jdoneSeq s → s.cl.fuel = none → s.cl.lockTo ≤ s.clk.now →
    let both (n v : Nat) (d : State) : Prop := ctrCopy n false d = some v ∧ ctrCopy n true d = some v
    (Ready 0x0901 c s → ∀ p n, argN c 1 = some p → argN c 2 = some n → n ≠ 0 → readRange p n = true →
      tagTorn (16 * p) (16 * n) s = false → RepliesOk 0x0901 c [rtlv 1 (tagPages p n s)] s (exec (.tagRead c) s)) ∧
    (Ready 0x0902 c s → ∀ p b, argN c 1 = some p → argOf c 2 = some b → b.length % 16 = 0 → b.length ≤ 16000 → 96 ≤ p →
      p + b.length / 16 ≤ 2048 →
      RepliesWith 0x0902 c [] (fun d => tagBytes (16 * p) b.length d = b ∧
          (∀ a, a < 1280 ∨ 1360 ≤ a → a < 16 * p ∨ 16 * p + b.length ≤ a → tagByte a d = tagByte a s) ∧
          jhdrSeq d = jdoneSeq d ∧ d = { s with nv := { s.nv with tag := d.nv.tag, torn := d.nv.torn } })
        (exec (.tagWrite c) s)) ∧
    (Ready 0x0903 c s → ∀ n v, argN c 1 = some n → n < 64 → both n v s →
      (argN c 2 = none → RepliesOk 0x0903 c [r32 1 v] s (exec (.tagCounter c) s)) ∧
      (∀ i, argN c 2 = some i → i ≠ 0 → v + i ≤ 0xFFFFFFFF →
        RepliesWith 0x0903 c [r32 1 (v + i)] (fun d => both n (v + i) d ∧
            (∀ m h, m < 64 → m ≠ n → ctrCopy m h d = ctrCopy m h s) ∧
            d = { s with nv := { s.nv with tag := d.nv.tag, torn := d.nv.torn } }) (exec (.tagCounter c) s)) ∧
      (∀ i, argN c 2 = some i → 0xFFFFFFFF < v + i → i ≤ 255 → Refuses 0x0903 c stWrapRefused [] s (exec (.tagCounter c) s))) ∧
    (Ready 0x0904 c s → ∀ pwd o p maps, argOf c 1 = some pwd → authArg c 2 [0x13] s = some o → (openPackage c o s).1 = .ok p →
      argOf c 3 = some maps → pwd.length = 8 → maps.length = 80 → p.key.length = 16 → p.ktype = 0 → mapsOk maps = true →
      RepliesWith 0x0904 c [] (fun d => tagBytes 64 8 d = pwd ∧ tagBytes 80 16 d = p.key ∧ tagBytes 128 80 d = maps ∧
          pwdFails d = 0 ∧ tctr d = tctr s ∧ storedMode d = storedMode s ∧ (∀ a, 1536 ≤ a → tagByte a d = tagByte a s) ∧
          d = { s with
            nv := { s.nv with tag := d.nv.tag, torn := d.nv.torn }
            eng := { s.eng with vcCache := d.eng.vcCache, vcGen := d.eng.vcGen } }) (exec (.tagAccess c) s)) ∧
    (Ready 0x0905 c s → ∀ m, argN c 1 = some m → m ≤ 2 →
      (s.cl.field = true → s.cl.rndB ≠ none ∨ s.cl.execAt ≠ none ∨ s.clk.now < s.cl.frameTo →
        Refuses 0x0905 c stDeferred [] s (exec (.clMode c) s)) ∧
      (s.cl.field = false ∨ s.cl.rndB = none ∧ s.cl.execAt = none ∧ s.cl.frameTo ≤ s.clk.now →
        RepliesWith 0x0905 c [r8 1 m] (fun d => (s.cl.badge = none → d.cl.role = m) ∧
            (∀ b, s.cl.badge = some b → d.cl.badge = some { b with saved := m } ∧ (b.step ≠ .waiting → d.cl.role = s.cl.role)) ∧ storedMode d = (if m ≤ 1 then m else storedMode s) ∧
            (m ≠ 1 → s.cl.badge = none → d.cl.iso = .idle ∧ d.cl.app = .none ∧ d.cmd.clSess = false) ∧ d.cl.field = s.cl.field ∧
            (c.pkt.expert = false → d.cl.tuning = none)) (exec (.clMode c) s))) ∧
    (Ready 0x0906 c s → ∀ t, argN c 1 = some t → 100 ≤ t → t ≤ 30000 → s.nw.lost = false →
      exec (.badgeRead c) s = .next (waits 0x0906 c .badge (onCl (fun x => { x with badge := some {
        call := c, step := .waiting, startedAt := s.clk.now, timeout := t, pollAt := s.clk.now, saved := s.cl.role
        cert := [], challenge := [] } }) s)))

/-- A command that waited is answered over state d: the status and TLVs, in the version of its session (R217, R232). -/
def Sys2Proof.Claim.ends (opc : Nat) (c : Call) (st : Nat) (tlvs : List Tlv) (d : State) : State :=
  handBack opc c (mkReply c opc st tlvs (replyVersion c d)) d

/-- Tamper, lifecycle, unlock, debug, root and ownership commands: what each answers, the state of the lifecycle it enters, and
the token's counter stored; UNLOCK and DEBUG_AUTH spend their token and take their last step one MRAM write later (log 129), at
which a source active or firing in that clock keeps the part SEALED (R300, R318, R324, R328, R329, R334 to R337, R339, R354, R360, R535). -/
def Obligations.LifecycleCommands : Prop :=
  (∀ (c : Call) (s : State),
    (Ready 0x0A01 c s → c.pkt.expert = false → ∃ sticky : BitVec 32,
      (∀ n, n < 32 → sticky.getLsbD n = (decide (n < 24) && tampSticky n s)) ∧
      RepliesOk 0x0A01 c [r32 1 s.bk.active.toNat, r32 2 sticky.toNat, r8 3 (s.bk.applied.getD 255),
        rtlv 4 ((List.range 24).flatMap (fun n => natLE 2 (smGet 0 s.bk.counts n)))] s (exec (.tamperStatus c) s)) ∧
    (Ready 0x0A02 c s → ∀ n, argN c 1 = some n → n < 24 →
      ∃ v, v ≤ 1 ∧ RepliesOk 0x0A02 c [r8 1 v] { s with free := s.free + 1 } (exec (.tamperTest c) s)) ∧
    (Ready 0x0A03 c s → ∃ r, (r = 255 ∧ (∀ n, n < 4 → rootRevoked n s = true) ∨
        r < 4 ∧ rootRevoked r s = false ∧ ∀ n, n < r → rootRevoked n s = true) ∧
      RepliesOk 0x0A03 c [r8 1 (lifeNo s.nv.life), r8 2 r,
        rtlv 3 (natLE 8 ((monoRead 0 s).getD 0) ++ natLE 8 ((monoRead 1 s).getD 0) ++ natLE 8 ((monoRead 4 s).getD 0))] s
        (exec (.lifecycleGet c) s)) ∧
    (Ready 0x0A04 c s → ∀ n t, argN c 1 = some n → tokenArg c 2 0x22 s = .ok t → t.target = n → badgeNamed t s = true →
      (s.nv.life = .owned ∧ n = 2 ∧ chosenPolicy s ≠ none ∧ s.nv.zeroised = false →
        RepliesWith 0x0A04 c [r8 1 2] (fun d => d.nv.life = .operational ∧ monoRead 0 d = some t.counter ∧ d.cl.mirror = true ∧
          d.nv.slots = s.nv.slots ∧ d.pu = s.pu) (exec (.lifecycleSet c) s)) ∧
      (s.nv.life = .operational ∧ n = 1 →
        RepliesWith 0x0A04 c [r8 1 1] (fun d => d.nv.life = .owned ∧ monoRead 0 d = some t.counter ∧ d.cl.mirror = true ∧
          d.nv.slots = s.nv.slots ∧ d.pu = s.pu) (exec (.lifecycleSet c) s)) ∧
      (s.nv.life ∈ [.owned, .operational, .sealed] ∧ n = 4 →
        RepliesWith 0x0A04 c [r8 1 4] (fun d => d.nv.life = .retired ∧ d.nv.bbram.kek = none ∧ d.nv.slots = [] ∧
          d.pu.rows = [] ∧ d.tap.scope = 0 ∧ d.nv.zeroised = true) (exec (.lifecycleSet c) s))) ∧
    (Ready 0x0A05 c s → s.nv.life = .sealed → ∀ t, tokenArg c 1 0x21 s = .ok t →
      (t.target = 1 ∨ t.target = 2 ∧ s.nv.zeroised = false) → badgeOk t s = true →
      (∀ n, n < 24 → s.bk.active.getLsbD n = true → tampOff n s = true ∨ tampLevel n s < 2) → s.nw.lost = false ∧ s.nw.drbg ≠ none →
      ∃ d, exec (.unlock c) s = .next (waits 0x0A05 c (.unlock t.target (s.clk.now + 50)) d) ∧
        d.nv.life = .sealed ∧ monoRead 0 d = some t.counter ∧ d.bk = s.bk ∧ d.cl.mirror = s.cl.mirror ∧
        (s.nv.zeroised = true → d.nv.bbram.kek ≠ none ∧ d.nv.keeperGen = s.nv.keeperGen + 1) ∧
        (s.nv.zeroised = false → d = onNv (fun n => { n with monos := d.nv.monos }) s)) ∧
    (Ready 0x0A06 c s → ∀ t, tokenArg c 1 0x23 s = .ok t → badgeOk t s = true →
      ∃ d, exec (.debugAuth c) s = .next (waits 0x0A06 c (.debug t.scope t.duration (s.clk.now + 50)) d) ∧
        monoRead 0 d = some t.counter ∧ d = onNv (fun n => { n with monos := d.nv.monos }) s) ∧
    (Ready 0x0A07 c s → ∀ n t, argN c 1 = some n → n < 4 → tokenArg c 2 0x24 s = .ok t → t.target = n → badgeNamed t s = true →
      (∃ i, i < 4 ∧ i ≠ n ∧ rootRevoked i s = false) → (∀ a, a < 4 → areaSigner a s ≠ some n) →
      (∀ x ∈ s.fw.sessions, x.obj.signer ≠ n) →
      RepliesWith 0x0A07 c [] (fun d => rootRevoked n d = true ∧ (∀ i, i ≠ n → rootRevoked i d = rootRevoked i s) ∧
          monoRead 0 d = some t.counter ∧ d = { s with nv := { s.nv with revoked := d.nv.revoked, monos := d.nv.monos } })
        (exec (.rootRevoke c) s)) ∧
    (Ready 0x0A08 c s → s.nv.life = .factory → ∀ o, authArg c 1 [0x11] s = some o → o.body.length = 72 →
      leNat (slice o.body 16 8) = Config.serial % 2 ^ 64 →
      RepliesOk 0x0A08 c [r8 1 1] (onCl (fun x => { x with mirror := true }) (onNv (fun n => { n with
        life := .owned, domain := o.body.take 16, ownerHash := some (o.body.drop 24) }) s)) (exec (.ownTake c) s))) ∧
  ∀ (dt : Nat) (c : Call) (s : State) (at_ : Nat), let a := advance dt s
    let b := onCmd (fun x => { x with owed := [] }) a
    let refused (opc st : Nat) := ends opc c st (refuseTlvs (st, 0, rsRange, 0)) b
    let bars (n : Nat) : Prop := tampOff n a = false ∧ 2 ≤ tampLevel n a ∧
      (a.bk.active.getLsbD n = true ∨ 18 ≤ n ∧ a.bk.disarmed.getLsbD n = true ∧ smGet 0 a.bk.offAt n = a.clk.now)
    Calm b →
    (∀ t, a.cmd.owed = [{ call := c, opcode := 0x0A05, wait := .unlock t at_ }] →
      (a.clk.now < at_ → exec (.fwActivateInstant dt) s = .next a) ∧
      (at_ ≤ a.clk.now → (∃ n, n < 24 ∧ bars n) →
        exec (.fwActivateInstant dt) s = .next (refused 0x0A05 stDenied)) ∧
      (at_ ≤ a.clk.now → (∀ n, n < 24 → ¬ bars n) →
        exec (.fwActivateInstant dt) s = .next (ends 0x0A05 c stOk [r8 1 t] { b with
          nv := { b.nv with life := if t = 1 then .owned else .operational, zeroised := false }
          bk := { b.bk with applied := none }, cl := { b.cl with mirror := true } }))) ∧
    ∀ scope time, a.cmd.owed = [{ call := c, opcode := 0x0A06, wait := .debug scope time at_ }] →
      (a.clk.now < at_ → exec (.fwActivateInstant dt) s = .next a) ∧
      (at_ ≤ a.clk.now → a.nv.life = .sealed → exec (.fwActivateInstant dt) s = .next (refused 0x0A06 stSealed)) ∧
      (at_ ≤ a.clk.now → a.nv.life = .retired → exec (.fwActivateInstant dt) s = .next (refused 0x0A06 stDenied)) ∧
      (at_ ≤ a.clk.now → a.nv.life ≠ .sealed → a.nv.life ≠ .retired →
        ∃ d, exec (.fwActivateInstant dt) s = .next (ends 0x0A06 c stOk [r8 1 scope] d) ∧ d.tap.scope = BitVec.ofNat 4 scope ∧
          d.tap.until_ = a.clk.now + 250000000 * time ∧ d.nv.life = a.nv.life ∧ d.bk = a.bk ∧ d.cmd.owed = [])

/-- Observation and maintenance: SNAPSHOT the counters in the order of R524, SELFTEST a result, PUMP_RESTORE of a pump that
passed 1,000 rounds, MARCH_RUN waits for the blocks of its region, calibration values within their limits, event settings and
pending words, the sump and its log (R85, R177, R346, R379, R504 to R507, R514, R516, R518, R524). -/
def Obligations.MaintenanceCommands : Prop :=
  ∀ (c : Call) (s : State),
    (Ready 0x0B01 c s → RepliesOk 0x0B01 c [rtlv 1 ((
        ([0, 1, 2, 3] : List Nat).flatMap (fun p => cntPort p s) ++ (List.range 64).flatMap (fun q => cntRxq q s) ++
        (List.range 64).flatMap (fun q => cntTxq q s) ++ cntGlobal s).flatMap (natLE 4))] s (exec (.snapshot c) s)) ∧
    (Ready 0x0B02 c s → ∃ v, v ≤ 1 ∧ RepliesOk 0x0B02 c [r8 1 v] { s with free := s.free + 1 } (exec (.selftest c) s)) ∧
    (Ready 0x0B03 c s → ∀ p, argN c 1 = some p → p < 4 →
      ((pump p s).failed = false → RepliesOk 0x0B03 c [] s (exec (.pumpRestore c) s)) ∧
      ((pump p s).failed = true → (pump p s).katPasses < 1000 → Refuses 0x0B03 c stBusy [] s (exec (.pumpRestore c) s)) ∧
      ((pump p s).failed = true → 1000 ≤ (pump p s).katPasses →
        RepliesWith 0x0B03 c [] (fun d => (pump p d).failed = false ∧ (pump p d).katFails = 0 ∧
            (∀ j, j < 4 → j ≠ p → (pump j d).failed = (pump j s).failed ∧ (pump j d).gen = (pump j s).gen) ∧
            (failedPumps d = [] → d.pu.rot = 0) ∧ d.pu.rows = s.pu.rows ∧ d = { s with pu := d.pu })
          (exec (.pumpRestore c) s))) ∧
    (Ready 0x0B04 c s → ∀ a b m, argN c 1 = some a → argN c 2 = some b → marchRegion a b = some m → c.pkt.expert = false →
      (m = .pumpStore → Refuses 0x0B04 c stDenied [] s (exec (.marchRun c) s)) ∧
      (m ≠ .pumpStore → m ≠ .engineBuffers → exec (.marchRun c) s = .next (waits 0x0B04 c (.march m 0 0 []) (lend m 32 s))) ∧
      (m = .engineBuffers → enginesIdle s = true → exec (.marchRun c) s = .next (waits 0x0B04 c (.march m 0 0 []) s)) ∧
      (m = .engineBuffers → enginesIdle s = false → exec (.marchRun c) s = .next (waits 0x0B04 c .marchIdle s))) ∧
    (∀ i r, argN c 1 = some i → calItem i = some r → let f := calFactory i s
      (Ready 0x0D01 c s → RepliesOk 0x0D01 c [r32 1 (ofSigned 4 f), r32 2 (ofSigned 4 (calUser i s)), r32 3 (ofSigned 4 (calEff i s))] s
        (exec (.calGet c) s)) ∧
      (Ready 0x0D02 c s → ∀ v, argN c 2 = some v → let u := toSigned 4 v
        let e := clampI (f + clampI u r.uLo r.uHi) r.eLo r.eHi
        ∃ clamped : Bool, (clamped = false ↔ e = f + u ∧ r.uLo ≤ u ∧ u ≤ r.uHi) ∧
          RepliesWith 0x0D02 c [r32 1 (ofSigned 4 e), r8 2 (b2n clamped)] (fun d => calUser i d = e - f ∧
              (∀ j, j ≠ i → calUser j d = calUser j s) ∧ d = { s with nv := { s.nv with userCal := d.nv.userCal } })
            (exec (.calSet c) s)) ∧
      (Ready 0x0D03 c s → c.pkt.expert = false →
        RepliesWith 0x0D03 c [] (fun d => calUser i d = 0 ∧ (∀ j, j ≠ i → calUser j d = calUser j s) ∧
          d = { s with nv := { s.nv with userCal := d.nv.userCal } }) (exec (.calClear c) s))) ∧
    (Ready 0x0E01 c s → argN c 4 = none → ∀ a, argN c 1 = some a → evListed a = true → a < 256 →
      RepliesWith 0x0E01 c [] (fun d => (∀ l, argN c 2 = some l → evLevel d.ev a = l) ∧
          (argN c 2 = none → evLevel d.ev a = evLevel s.ev a) ∧ (∀ m, argN c 3 = some m → (d.ev.mask.getLsbD a = true ↔ m = 1)) ∧
          (∀ n, n ≠ a → evLevel d.ev n = evLevel s.ev n ∧ d.ev.mask.getLsbD n = s.ev.mask.getLsbD n) ∧ d.ev.pend = s.ev.pend)
        (exec (.evCfg c) s)) ∧
    (Ready 0x0E02 c s → ∀ b, argN c 1 = some b → b < 8 → ∃ w : BitVec 32,
      (∀ i, i < 32 → w.getLsbD i = s.ev.pend.getLsbD (32 * b + i)) ∧ RepliesOk 0x0E02 c [r32 1 w.toNat] s (exec (.evRead c) s)) ∧
    (Ready 0x0E03 c s → ∀ i, argN c 2 = some i →
      (argN c 1 = some 0 → RepliesOk 0x0E03 c [rtlv 1 (natLE 32 s.ev.sumpP.toNat)] s (exec (.sumpRead c) s)) ∧
      (argN c 1 = some 1 → RepliesOk 0x0E03 c [rtlv 1 (natLE 32 s.ev.sumpW.toNat)] s (exec (.sumpRead c) s)) ∧
      (argN c 1 = some 2 → let b := s.nv.bbram
        RepliesOk 0x0E03 c [rtlv 1 (natLE 4 b.sticky.toNat ++ natLE 1 b.pending ++
          (List.range 24).flatMap (fun n => natLE 8 (smGet 0 b.times n)))] s (exec (.sumpRead c) s)) ∧
      (argN c 1 = some 3 → i < 4096 → RepliesOk 0x0E03 c [
        rtlv 1 ((List.range (min 128 (4096 - i))).flatMap (fun j => logBytes (smGet {} s.nv.log (i + j)))), r32 2 s.nv.lostRecs] s
        (exec (.sumpRead c) s))) ∧
    (Ready 0x0E04 c s →
      (∀ b, argOf c 2 = some b → b.length = 32 →
        (argN c 1 = some 0 → RepliesWith 0x0E04 c [] (fun d =>
          (∀ n, n < 256 → d.ev.sumpP.getLsbD n = (s.ev.sumpP.getLsbD n && !(leNat b).testBit n)) ∧
          d = onEv (fun e => { e with sumpP := d.ev.sumpP }) s) (exec (.sumpClear c) s)) ∧
        (argN c 1 = some 1 → RepliesWith 0x0E04 c [] (fun d =>
          (∀ n, n < 256 → d.ev.sumpW.getLsbD n = (s.ev.sumpW.getLsbD n && !(leNat b).testBit n)) ∧
          d = onCl (fun x => { x with mirror := true }) (onEv (fun e => { e with sumpW := d.ev.sumpW }) s)) (exec (.sumpClear c) s)) ∧
        (argN c 1 = some 2 → RepliesWith 0x0E04 c [] (fun d =>
          (∀ n, n < 32 → d.nv.bbram.sticky.getLsbD n = (s.nv.bbram.sticky.getLsbD n && !(leNat b).testBit n)) ∧
          d.nv.bbram.kek = s.nv.bbram.kek ∧ d.ev = s.ev) (exec (.sumpClear c) s))) ∧
      (argN c 1 = some 3 → ∀ a b, argN c 3 = some a → argN c 4 = some b → a ≤ b → b ≤ 4095 →
        RepliesWith 0x0E04 c [] (fun d => (∀ i, smGet ({} : LogRec) d.nv.log i = if a ≤ i ∧ i ≤ b then {} else smGet {} s.nv.log i) ∧
          d.nv.lostRecs = 0 ∧ d.ev.sumpP = s.ev.sumpP ∧ d.ev.sumpW = s.ev.sumpW) (exec (.sumpClear c) s))) ∧
    (Ready 0x0E05 c s → ∀ off n, argN c tyOffset = some off → argN c 1 = some n → n ≤ 16000 → off + n ≤ 0x10000000 → off < 0x10000000 →
      (dmaGranted s.vtP 1 (0xA0000000 + off) n .read = false →
        Refuses 0x0E05 c stHwFault [] (dmaRefused s) (exec (.logRead c) s)) ∧
      (dmaGranted s.vtP 1 (0xA0000000 + off) n .read = true → RepliesOk 0x0E05 c [rtlv 1 ((List.range n).map (fun i => logByte (off + i) s))] s (exec (.logRead c) s)))

/-- Firmware: FW_INFO reads records and areas; FW_BEGIN opens a session on the inactive bank or an applet area, makes the area
hold the object and starts erasing; FW_CHUNK waits for its sectors, then programs; FW_ACTIVATE and FW_ROLLBACK start a swap and
wait for it; applets are installed, started, stopped and removed (R348, R363 to R366, R368 to R370, R391). -/
def Obligations.FirmwareCommands : Prop :=
  ∀ (c : Call) (s : State),
    (Ready 0x0C01 c s →
      let core (k : CoreId) (a : Nat) : Tlv := rtlv 1 (natLE 8 (recWord (recOf k s)) ++ natLE 1 ((chosenOf k s).getD 255) ++
        areaInfo a s ++ areaInfo (a + 1) s)
      RepliesOk 0x0C01 c [core .control 0, core .vault 2, rtlv 1 ((s.cmd.applets.filter (fun e => e.2.installed)).flatMap
        (fun e => natLE 4 e.1 ++ natLE 4 e.2.id ++ natLE 4 e.2.version))] s (exec (.fwInfo c) s)) ∧
    (Ready 0x0C02 c s → ∀ n ob o, argN c 1 = some n → n < 4 → argOf c 3 = some ob → parseAuth ob = some o → accepted o s = true →
      let k : CoreId := if n % 2 = 0 then .control else .vault
      let applet := decide (2 ≤ n)
      let b := fwBodyOf o.body
      o.kind = (if 2 ≤ n then 3 else n % 2 + 1) → o.body.length = 76 → b.target = n % 2 → b.isa = 1 ∨ b.isa = 2 →
      (n < 2 → (recOf k s).floor ≤ b.svn) → argN c 2 = some b.size → b.size ≤ (if 2 ≤ n then areaLimit 4 else areaLimit 0) →
      ∀ a, beginArea k applet b s = some a → s.fw.sessions = [] → s.me.erase = none → (sectorOf (areaFirst a) s).bad = false →
      RepliesWith 0x0C02 c [r32 1 s.fw.nextSess] (fun d =>
          d.fw.sessions = [{ id := s.fw.nextSess, core := k, applet := applet, area := a, obj := o, body := b, done := []
                             toErase := (List.range (1 + (b.size + 8191) / 8192)).map (areaFirst a + ·) }] ∧
          areaOf a d = .loaded o b ∧ (sectorOf (areaFirst a) d).flag = true ∧ (∃ e, d.me.erase = some e ∧ e.sector = areaFirst a) ∧
          (n < 2 → recOf k d = { recOf k s with prev := false }) ∧ (2 ≤ n → (appletOf (areaApplet a) d).installed = false))
        (exec (.fwBegin c) s)) ∧
    (Ready 0x0C03 c s → ∀ id off data x, argN c 1 = some id → argN c tyOffset = some off → argOf c 2 = some data →
      sessOfId id s = some x → off % 32 = 0 → off + data.length ≤ x.body.size →
      let secs := rangeSectors (areaCode x.area + off) data.length
      ((∃ y ∈ secs, y ∈ x.toErase) → exec (.fwChunk c) s = .next (waits 0x0C03 c (.chunk id off data) s)) ∧
      ((∀ y ∈ secs, y ∉ x.toErase ∧ (sectorOf y s).bad = false ∧ (sectorOf y s).flag = false) →
        (∀ p n, (p, n) ∈ x.done → p + n ≤ off ∨ off + data.length ≤ p) →
        RepliesOk 0x0C03 c [] (flashPut (areaCode x.area + off) data (onFwSess id (fun y => { y with done := y.done ++ [(off, data.length)] }) s))
          (exec (.fwChunk c) s))) ∧
    (Ready 0x0C04 c s → c.pkt.expert = false → ∀ id x, argN c 1 = some id → sessOfId id s = some x → x.applet = false → fwComplete x = true →
      sha384 (flashRange (areaCode x.area) x.body.size s) = x.body.hash →
      exec (.fwActivate c) s = .next (waits 0x0C04 c (.swap x.core (some id)) (onPlat (fun p => { p with
        swap := some {
          core := x.core, sess := some id, cause := (cpu x.core s).ecause, pointAt := s.clk.now + pointTicks x.core
          commitAt := s.clk.now + commitTicks x.core, endsAt := s.clk.now + swapTicks x.core } }) s))) ∧
    (Ready 0x0C05 c s → s.fw.trialWas = none → ∀ n, argN c 1 = some n → let k : CoreId := if n = 0 then .control else .vault
      ((recOf k s).prev = false → Refuses 0x0C05 c stDenied [] s (exec (.fwRollback c) s)) ∧
      ((recOf k s).prev = true → imageValid k (1 - (recOf k s).active) s = true → (recOf k s).floor ≤ imageSvn k (1 - (recOf k s).active) s →
        exec (.fwRollback c) s = .next (waits 0x0C05 c (.swap k none) (onPlat (fun p => { p with
          swap := some {
            core := k, sess := none, cause := (cpu k s).ecause, pointAt := s.clk.now + pointTicks k
            commitAt := s.clk.now + commitTicks k, endsAt := s.clk.now + swapTicks k } }) s)))) ∧
    (Ready 0x0C06 c s → ∀ id x, argN c 1 = some id → sessOfId id s = some x → x.applet = true → x.body.abi = 1 → fwComplete x = true →
      sha384 (flashRange (areaCode x.area) x.body.size s) = x.body.hash →
      RepliesWith 0x0C06 c [r32 1 (x.area - 4)] (fun d => appletOf (areaApplet x.area) d = { ({} : Applet) with
          bufs := (appletOf (areaApplet x.area) s).bufs, id := x.body.applet, tid := areaTid x.area, installed := true, quota := x.body.quota, version := x.body.version } ∧
        sessOfId id d = none ∧ x.area ∈ d.nv.installed) (exec (.appletLoad c) s)) ∧
    (Ready 0x0C07 c s → argN c 3 = none → ∀ n op, argN c 1 = some n → argN c 2 = some op → n < 16 →
      let i := areaApplet (4 + n)
      (appletOf i s).installed = true →
      (op = 0 → (appletOf i s).running = false → RepliesWith 0x0C07 c [] (fun d => (appletOf i d).running = true ∧
        (appletOf i d).sess = {} ∧ (appletOf i d).installed = true ∧ ∀ j, j ≠ i → appletOf j d = appletOf j s) (exec (.appletCtl c) s)) ∧
      (op = 1 → RepliesWith 0x0C07 c [] (fun d => (appletOf i d).running = false ∧ (appletOf i d).installed = true ∧
        ∀ j, j ≠ i → appletOf j d = appletOf j s) (exec (.appletCtl c) s)) ∧
      (op = 2 → RepliesWith 0x0C07 c [] (fun d => appletOf i d = { ({} : Applet) with bufs := (appletOf i s).bufs } ∧ areaOf (4 + n) d = .empty ∧
        ∀ j, j ≠ i → appletOf j d = appletOf j s) (exec (.appletCtl c) s)))

/-- FRAME_RECEIVE on a port that is up, outside an HSR pair: a frame with a MAC error moves one counter of its port only, the
first of R43's order that applies; an admitted frame takes the next ticket in its turn (R96) with its arrival timestamp, and a
bypass or malformed one is at once done as UNPROTECTED or MALFORMED; without a ticket or cells it is counted starved with the port's
event (R43, R44, R47, R60, R66, R183). -/
def Obligations.FrameArrival : Prop :=
  ∀ (dt sof : Nat) (port : Fin 4) (f : Frame) (s : State), let a := pass dt s
    let b := inTurn turnTicket 0 port a
    let p := portOf port a
    let c := classify port (pairOf (port / 2) a).mode f a
    portUp port a = true → a.plat.dpReleased = true → a.plat.pwrOk = true → (pairOf (port / 2) a).mode ≠ .hsr →
    (f.codingError = true →
      exec (.frameReceive dt port sof f) s = .next (onPort port (fun _ => { p with coding := (p.coding + 1) % 2 ^ 32 }) a)) ∧
    (f.codingError = false → f.len < 64 →
      exec (.frameReceive dt port sof f) s = .next (onPort port (fun _ => { p with runts := (p.runts + 1) % 2 ^ 32 }) a)) ∧
    (f.codingError = false → 2000 < f.len →
      exec (.frameReceive dt port sof f) s = .next (onPort port (fun _ => { p with oversize := (p.oversize + 1) % 2 ^ 32 }) a)) ∧
    (f.codingError = false → 64 ≤ f.len → f.len ≤ 2000 → f.fcsOk = false →
      exec (.frameReceive dt port sof f) s = .next (onPort port (fun _ => { p with fcsErr := (p.fcsErr + 1) % 2 ^ 32 }) a)) ∧
    (f.codingError = false → 64 ≤ f.len → f.len ≤ 2000 → f.fcsOk = true →
      (ingressMayTake b = true → (16 + c.view.len + 63) / 64 ≤ freeDelivery b → ∀ code,
        (c.fclass = .bypass ∧ code = .unprotected ∨ c.fclass ≠ .bypass ∧ c.parseOk = false ∧ code = .malformed) →
        ∃ d x, exec (.frameReceive dt port sof f) s = .next d ∧ d.fp.ing = a.fp.ing ++ [x] ∧ x.ticket = a.fp.nextTicket ∧
          d.fp.nextTicket = a.fp.nextTicket + 1 ∧ x.port = port ∧ x.frame = c.view ∧ x.stage = .done ∧ x.code = some code ∧
          x.ts = ((sof : Int) - rxLat port p.mode a).toNat ∧ x.lastBit = b.clk.now ∧ x.rclass = c.rclass ∧
          (portOf port d).admitted = (p.admitted + 1) % 2 ^ 32 ∧ d.se = a.se ∧ d.nv = a.nv ∧ d.ev = a.ev) ∧
      (ingressMayTake b = false ∨ freeDelivery b < (16 + c.view.len + 63) / 64 →
        ∃ d, exec (.frameReceive dt port sof f) s = .next d ∧ d.fp.ing = a.fp.ing ∧ d.ev.pend.getLsbD (36 + port) = true ∧
          portOf port d = { p with admitted := (p.admitted + 1) % 2 ^ 32, starved := (p.starved + 1) % 2 ^ 32 } ∧ d.se = a.se))

/-- Tag work: INGRESS_STEP_6 gives the code of R77, LANE_MISMATCH where two lanes differ in tag or pass bit, AUTH_OK where the
tag is the frame's and the named profile fits, else AUTH_FAIL, and PROF 3 decrypts with the first lane's key (R79, R80, R149,
R150, R155, R160, R164); an evaluator answers a complete instant by R204's inequality and counts it (R204, R205, R207, R209). -/
def Obligations.TagWork : Prop :=
  (∀ (dt ticket : Nat) (errA errB : LaneFault) (s : State) (x : Ing) (b : Bank) (p : Apdu),
    let a := pass dt s
    ingOf ticket a = some x → x.bank = some b → x.frame.apdu = some p → x.stage = .working → x.lanes ≠ [] →
    let key (lane : Nat) : Bytes := match x.latched[lane]? with
      | some l => (bytes256 (l.share0 ^^^ l.share1)).drop (if b.prof = 1 then 16 else 0)
      | none => List.replicate (if b.prof = 1 then 16 else 32) 0
    let tagA := frameTag b.prof (key 0) p.segs x.sec ^^^ errA.tag
    let tagB := frameTag b.prof (key 1) p.segs x.sec ^^^ errB.tag
    let okA := (tagA == extTag x.sec) != errA.pass
    let okB := (tagB == extTag x.sec) != errB.pass
    let differ : Prop := x.lanes.length = 2 ∧ (tagA ≠ tagB ∨ okA ≠ okB)
    let ok : Prop := okA = true ∧ extFitsProf b.prof x.sec = true
    ∃ d y, exec (.ingressStep6 dt ticket errA errB) s = .next d ∧ ingOf ticket d = some y ∧ y.stage = .done ∧
      y.doneAt = a.clk.now ∧ y.entry = x.entry ∧ (differ → y.code = some .laneMismatch ∧ d.ev.pend.getLsbD 71 = true) ∧
      (¬ differ → ok → y.code = some .authOk) ∧ (¬ differ → ¬ ok → y.code = some .authFail) ∧
      (b.prof ≠ 3 → y.frame = x.frame) ∧
      (b.prof = 3 → y.frame.apdu = some { p with segs := cryptSegs (key 0) x.sec p.segs })) ∧
  ∀ (dt : Nat) (r : EvalReq) (rest : List EvalReq) (c : CSlot) (s : State), let a := pass dt s
    let g := r.group
    let p := groupOf g a
    a.co.queue = r :: rest → p.slots.find? (fun c => c.n == r.n && c.queued) = some c → c.bad = 0 →
    let total := ((p.ops.zipIdx.map (fun e => e.1.gain * smGet 0 c.xs e.2)).sum).natAbs
    let size := (p.ops.zipIdx.map (fun e => (e.1.gain * smGet 0 c.xs e.2).natAbs)).sum
    ∃ d, exec (.consistencyEvaluation dt) s = .next d ∧ d.co.queue = rest ∧
      (65536 * total ≤ 2 ^ 32 * p.thr + p.prop * size →
        (groupOf g d).nCons = (p.nCons + 1) % 2 ^ 32 ∧ (groupOf g d).nIncons = p.nIncons ∧ (groupOf g d).pend = p.pend ∧ d.ev = a.ev) ∧
      (2 ^ 32 * p.thr + p.prop * size < 65536 * total →
        (groupOf g d).nIncons = (p.nIncons + 1) % 2 ^ 32 ∧ (groupOf g d).nCons = p.nCons ∧ d.ev.pend.getLsbD 76 = true ∧
        ∀ k t, (k, t) ∈ c.from_ → (∀ y ∈ a.fp.ing, y.ticket ≠ t) → k ∈ (groupOf g d).pend)

/-- The verdict, at the release instant or late: the record enters the queue of its entry or of its port's map with the word
of R75, unless the queue's mask drops it by its code; a frame that an uncorrectable error struck is MALFORMED; of PROF 3 every
encrypted byte is zero but under AUTH_OK; a late verdict raises its event and is counted; the frame's key reference ends (R54,
R55, R68, R73 to R77, R82, R133, R155; for a struck bypass frame log 115). -/
def Obligations.VerdictRelease : Prop :=
  ∀ (dt ticket : Nat) (late : Bool) (s : State) (x : Ing), let a := pass dt s
    let row : Instr := if late then .lateVerdict dt ticket else .verdictRelease dt ticket
    ingOf ticket a = some x → x.stage = .done → x.committed = false → ∀ c0, x.code = some c0 →
    (if late then x.lastBit + 284 < x.doneAt else x.lastBit + 276 ≤ a.clk.now ∧ x.doneAt ≤ x.lastBit + 284) →
    let code : Code := if x.memErr then .malformed else c0
    let q := match x.bank with
      | some b => b.rxq
      | none => if code = .unknownStream then (portOf x.port a).mapUnknown else if code = .malformed then (portOf x.port a).mapMalformed
          else (portOf x.port a).mapUnprot
    let o := rxqOf q a
    let hidden : Prop := (∃ b, x.bank = some b ∧ b.prof = 3) ∧ code ≠ .authOk
    ∃ d, exec row s = .next d ∧ ingOf ticket d = none ∧ (late = true → d.ev.pend.getLsbD 64 = true) ∧
      (rxqOf q d).late = (if late then (o.late + 1) % 2 ^ 32 else o.late) ∧
      (rxqOf q d).corrected = (if x.corrs = 0 then o.corrected else (o.corrected + x.corrs) % 2 ^ 32) ∧
      (∀ i, x.slot = some i → (kslot i d).ref = (kslot i a).ref - 1) ∧
      (o.size ≠ 0 → o.drop.testBit (codeNo code) = true →
        smGet 0 (rxqOf q d).dropCode (codeNo code) = (smGet 0 o.dropCode (codeNo code) + 1) % 2 ^ 32 ∧ (rxqOf q d).recs = o.recs) ∧
      (o.size ≠ 0 → (∀ i, i < 16 → o.drop.testBit i = false) → o.spilling = false →
        ∃ r ∈ (rxqOf q d).recs ++ (rxqOf q d).staged, (¬ hidden → r.frame = x.frame) ∧
          (hidden → ∀ p, r.frame.apdu = some p → ∀ g ∈ p.segs, g.secret = true → ∀ z ∈ g.bytes, z = 0) ∧
          r.flen = x.flen ∧ r.rel = x.lastBit ∧ r.at_ = a.clk.now ∧ r.port = x.port.val ∧ r.verdict = {
            ver := o.vfmt, code := code, flags := x.flags, corr := decide (o.vfmt = 2 ∧ x.corrs ≠ 0), cinc := false
            memerr := decide (o.vfmt = 2) && x.memErr, len := x.flen, ts := x.ts
            stream := x.entry.getD 0xFFFFFF, port := x.port, rclass := x.rclass, fclass := fclassNo x.fclass, vtag := x.vtag
            epoch := if x.slot.isSome then x.slotEpoch % 65536 else 0 })

/-- Delivery: the record whose turn it is goes to the open buffer with its verdict word, then its completion goes to the ring,
and the queue's pointers move on; a corrected word is counted and marked; an uncorrectable one rewrites the word as MALFORMED; a
record behind a frame that has no verdict yet waits (log 109); one that waited 2 µs for space begins the spill of its queue, whose
records are drawn from staging in the same order (R56, R57, R67 to R71, R75, R96, R237 to R239). -/
def Obligations.DeliveryAndSpill : Prop :=
  ∀ (dt : Nat) (q : Fin 64) (r : Rec) (rest : List Rec) (s : State),
    let x := rxqOf q s
    let full (y : RxQ) : Prop := ringSpace y ((16 + r.flen + 15) / 16 * 16) = false
    let bit (b : Bool) (n : Nat) : Nat := if b then 2 ^ n else 0
    let word (v : Verdict) : Bytes := natLE 1 (v.ver + 16 * codeNo v.code) ++
      natLE 1 (v.flags.toNat + bit v.corr 5 + bit v.cinc 6 + bit v.memerr 7) ++ natLE 2 (if v.ver = 2 then v.ts % 65536 else v.len) ++
      natLE 4 (v.ts / 65536 % 1000000000) ++ natLE 2 (v.ts / 65536 / 1000000000) ++ natLE 3 v.stream ++
      natLE 1 (v.port + 4 * v.rclass + 16 * v.fclass + bit v.vtag 7) ++ natLE 2 v.epoch
    let delivered (v : Verdict) (f : Frame) (w : Option Verdict) (d : State) : Prop :=
      (∃ desc fin o, let addr := (x.bufs.headD (0, 0)).1 + x.bufUsed
        let offs := x.bufUsed / 16
        d.out = s.out ++ o ∧ .record addr q.val desc offs r.flen x.phase fin v f ∈ o ∧ .dma addr (word v) ∈ o ∧
        (∀ e, w = some e → .rewrite q.val e ∈ o ∧ .dma addr (word e) ∈ o) ∧ .dma (x.cbase + 8 * x.ctail)
          (natLE 2 desc ++ natLE 2 offs ++ natLE 2 r.flen ++ natLE 1 (bit x.phase 0 + bit fin 1) ++ [0]) ∈ o) ∧
      (rxqOf q d).ctail = (x.ctail + 1) % x.csize ∧ (rxqOf q d).delivered = (x.delivered + 1) % 2 ^ 32
    (x.recs = r :: rest → x.staged = [] → nextQueue s = some q.val →
      (∃ d, exec (.recordDelivery q .clean) s = .next d ∧ delivered r.verdict r.frame none d ∧ (rxqOf q d).recs = rest ∧ d.nv = s.nv) ∧
      (∃ d, exec (.recordDelivery q .corrected) s = .next d ∧ (rxqOf q d).corrected = (x.corrected + 1) % 2 ^ 32 ∧
        delivered { r.verdict with corr := decide (r.verdict.ver = 2) } r.frame none d) ∧
      (∃ d, exec (.recordDelivery q .uncorrectable) s = .next d ∧ d.ev.pend.getLsbD 66 = true ∧
        d.fp.wdDelivery = min 32768 (s.fp.wdDelivery + 1) ∧
        ∃ f, delivered r.verdict f (some { r.verdict with code := .malformed, memerr := decide (r.verdict.ver = 2) }) d)) ∧
    (x.recs = r :: rest → x.staged = [] → (∃ y ∈ s.fp.ing, y.lastBit < r.rel ∧ y.bank = none ∧ y.code = none ∧ y.memErr = false) →
      ∀ e, exec (.recordDelivery q e) s = .next s) ∧
    (x.staged = r :: rest → nextQueue s = some q.val →
      ∃ d, exec (.stagingDraw q true) s = .next d ∧ delivered r.verdict r.frame none d ∧ (rxqOf q d).staged = rest ∧
        (rxqOf q d).spilling = decide (rest ≠ []) ∧ (rxqOf q d).recs = x.recs) ∧
    (let a := pass dt s;
      (rxqOf q a).recs = r :: rest → (rxqOf q a).staged = [] → (r :: rest).Pairwise (fun a b => recBefore a b = true) →
      r.at_ + 500 ≤ a.clk.now → full (rxqOf q a) → (rxqOf q a).spilling = false →
      ∃ d, exec (.spillStart dt q) s = .next d ∧ (rxqOf q d).spilling = true ∧ (rxqOf q d).recs = [] ∧
        (rxqOf q d).staged = (r :: rest).map (fun y => { y with ticket := none, cells := 0 }) ∧ d.out = a.out)

/-- Transmit: a descriptor takes the next ticket in its turn, or waits for one and is retried; a bypass frame stands padded with
zero bytes when its data are complete and is released at its instant, or late with the event, to its port if that is up, else refused
PORT_DOWN; its last bit, in the port's order of release, completes it with its port and timestamp (R61, R86 to R90, R183, R240, R241). -/
def Obligations.TransmitPath : Prop :=
  (∀ (q : Fin 64) (d : TxDesc) (rest : List TxDesc) (s : State) (i : Instr), let x := txqOf q s
    let b := inTurn turnTicket 0 (4 + q) s
    x.descs = d :: rest → x.size ≠ 0 → pcieDown s = false →
    (i = .txDescriptorFetch q ∧ x.waiting = false ∧ (∀ y ∈ s.fp.egr, y.q = q → y.cells ≠ 0) ∨ i = .ticketRetry q ∧ x.waiting = true) →
    (egressMayTake b = false → exec i s = .next (onTxq q (fun x => { x with waiting := true }) b)) ∧
    (egressMayTake b = true → d.bypass = true → descBad d s = false →
      ∃ t e, exec i s = .next t ∧ t.fp.egr = s.fp.egr ++ [e] ∧ e.ticket = s.fp.nextTicket ∧ e.q = q ∧ e.d = d ∧ e.stage = .fetching ∧
        e.desc = x.dhead ∧ e.refusal = none ∧ t.fp.nextTicket = s.fp.nextTicket + 1 ∧ (txqOf q t).descs = rest ∧
        (txqOf q t).dhead = (x.dhead + 1) % x.size ∧ (txqOf q t).order = x.order ++ [(x.dhead, none)] ∧ t.se = s.se)) ∧
  ∀ (dt ticket stamp : Nat) (ea eb : BitVec 128) (s : State) (x : Egr), let a := pass dt s
    egrOf ticket a = some x → x.d.bypass = true → x.refusal = none →
    (x.stage = .fetching → x.cells ≠ 0 → x.lastByte = none → let len := wireLen x.d x.d.len a
      let zeros : Bytes := List.replicate (len - 4 - fieldRoom x.d a - x.d.len) 0
      len ≤ 2000 →
      ∃ t y, exec (.txDataComplete dt ticket ea eb false false) s = .next t ∧ egrOf ticket t = some y ∧ y.stage = .signed ∧
        y.out = some { x.d.frame with len := len, fcsOk := true, pad := x.d.frame.pad ++ zeros } ∧ y.doneAt = a.clk.now ∧ y.lastByte.isSome = true ∧
        t.out = a.out ∧ t.se = a.se) ∧
    (∀ late l, x.stage = .signed → x.d.pair = false → (pairOf (x.d.port / 2) a).mode = .independent → x.lastByte = some l →
      (if late then l + 194 < x.doneAt else l + 186 ≤ a.clk.now ∧ x.doneAt ≤ l + 194) →
      let row : Instr := if late then .lateRelease dt ticket else .egressRelease dt ticket
      (portUp x.d.port a = true → ∃ t, exec row s = .next t ∧
        egrOf ticket t = some { x with stage := .released, toSend := [x.d.port.val] } ∧ (late = true → t.ev.pend.getLsbD 64 = true) ∧
        (txqOf x.q t).lateRel = (if late then ((txqOf x.q a).lateRel + 1) % 2 ^ 32 else (txqOf x.q a).lateRel) ∧ t.se = a.se) ∧
      (portUp x.d.port a = false → (txqOf x.q a).order = [(x.desc, none)] → pcieDown a = false → (txqOf x.q a).csize ≠ 0 →
        ((txqOf x.q a).ctail + 1) % (txqOf x.q a).csize ≠ (txqOf x.q a).chead → x.entry = none →
        ∃ t o ph, exec row s = .next t ∧ t.out = a.out ++ o ∧
          .txComp x.q.val ph { desc := x.desc, status := .portDown, ports := [], tsA := 0, tsB := 0, counter := x.counter } ∈ o)) ∧
    (∀ f, x.stage = .released → x.toSend = [x.d.port.val] → x.sent = [] → x.d.pair = false → x.d.oneStep = false → x.out = some f → x.entry = none →
      (portOf x.d.port a).line.head?.map (·.item) = some (.mine ticket) →
      (txqOf x.q a).order = [(x.desc, none)] → pcieDown a = false → (txqOf x.q a).csize ≠ 0 →
      ((txqOf x.q a).ctail + 1) % (txqOf x.q a).csize ≠ (txqOf x.q a).chead →
      let ts := ((stamp : Int) + txLat x.d.port (portOf x.d.port a).mode a).toNat
      ∃ t o ph, exec (.transmitComplete dt ticket x.d.port stamp) s = .next t ∧ egrOf ticket t = none ∧
        t.out = a.out ++ [.wire x.d.port false (forPort x.d.port f)] ++ o ∧
        .txComp x.q.val ph { desc := x.desc, status := .sent, ports := [x.d.port.val], tsA := ts, tsB := 0, counter := x.counter } ∈ o ∧
        .dma ((txqOf x.q a).cbase + 32 * (txqOf x.q a).ctail) (natLE 2 x.desc ++ natLE 1 0 ++ natLE 1 (2 ^ x.d.port.val + if ph then 16 else 0) ++ natLE 4 (ts / 65536 % 1000000000) ++
          natLE 2 (ts / 65536 / 1000000000) ++ natLE 2 ts ++ List.replicate 8 0 ++ natLE 8 x.counter ++ List.replicate 4 0) ∈ o ∧
        (txqOf x.q t).order = [] ∧ (txqOf x.q t).ctail = ((txqOf x.q a).ctail + 1) % (txqOf x.q a).csize)

/-- Doorbells and the exchanges of the frame path: DTAIL posts buffers and descriptors up to the tail, CHEAD returns completion
entries, an entry read is installed, counter blocks of 2^20 are reserved in the line and then granted to its entry, a link change
raises the port's event (R43, R62, R91, R112, R113, R125, R126, R237, R240, R523). -/
def Obligations.QueuesAndExchanges : Prop :=
  (∀ (n : Fin 64) (v : Nat) (l : List Desc) (s : State), pcieDown s = false →
    ((rxqOf n s).size ≠ 0 → let x := rxqOf n s
      let t := v % 65536 % x.size
      ∃ d, exec (.dtail (.rx n) v l) s = .next d ∧ d.fp = (onRxq n (fun x => { x with
        dtail := t, bufs := x.bufs ++ (l.take ((t + x.size - x.dtail % x.size) % x.size)).filterMap (fun d =>
          match d with | .rx b => some (leNat (b.take 8), leNat ((b.drop 8).take 4)) | .tx _ _ => none) }) s).fp ∧
        d.nv = s.nv ∧ d.ev = s.ev ∧ d.out = s.out) ∧
    ((txqOf n s).size ≠ 0 → let x := txqOf n s
      let t := v % 65536 % x.size
      exec (.dtail (.tx n) v l) s = .next (onTxq n (fun x => { x with
        dtail := t, descs := x.descs ++ (l.take ((t + x.size - x.dtail % x.size) % x.size)).filterMap (fun d =>
          match d with | .tx b f => some (txDesc b f) | .rx _ => none) }) s)) ∧
    ((rxqOf n s).csize ≠ 0 →
      ∃ d, exec (.chead (.rx n) v) s = .next d ∧ d.fp = (onRxq n (fun x => { x with chead := v % 65536 % x.csize }) s).fp ∧
        d.nv = s.nv ∧ d.ev = s.ev ∧ d.out = s.out) ∧
    ((txqOf n s).csize ≠ 0 → (txqOf n s).order = [] →
      exec (.chead (.tx n) v) s = .next (onTxq n (fun x => { x with chead := v % 65536 % x.csize }) s))) ∧
  (∀ (dt i : Nat) (s : State), let a := pass dt s
    i ∈ a.se.reads → cacheLine i a = none → a.se.wdWays.length < 16 → a.fp.ing = [] → a.fp.egr = [] →
    ∃ d l, exec (.entryReadComplete dt i 0 0) s = .next d ∧ i ∉ d.se.reads ∧ cacheLine i d = some l ∧
      l.entry = entryOfTable i a ∧ l.dirty = false ∧ d.nv = a.nv ∧ d.ev = a.ev) ∧
  (∀ (i : Nat) (r : List Nat) (s : State), s.se.blockReqs = i :: r → riserUp s = true → vaultDown s = false →
    let v := min (2 ^ 64 - 1) ((ctrLine i s).resend + 2 ^ 20)
    ∃ d, exec .counterBlockRequest s = .next d ∧ d.se.blockReqs = r ∧ d.se.grants = s.se.grants ++ [(i, v)] ∧
      d.nv = (onLine i (fun l => { l with resend := v }) s).nv ∧ d.fp = s.fp ∧ d.ev = s.ev) ∧
  (∀ (i v n : Nat) (r : List (Nat × Nat)) (s : State), s.se.grants = (i, v) :: r → riserUp s = true → (ctrLine i s).entry = some n →
    ∃ d, exec .blockGrant s = .next d ∧ d.se.grants = r ∧ curEntry n d = { curEntry n s with resend := v, req := false } ∧
      d.nv = s.nv ∧ d.fp = s.fp) ∧
  ∀ (p : Fin 4) (up : Bool) (s : State), let a := pass 0 s
    let x := portOf p a
    let link := decide (x.mode ≠ 0) && up && a.plat.refLine && !pinsTaken a
    ∃ d, exec (.linkChange p up) s = .next d ∧ (portOf p d).linkIn = up ∧ (portOf p d).link = link ∧ (portOf p d).mode = x.mode ∧
      (link ≠ x.link → d.ev.pend.getLsbD (32 + p) = true) ∧ (link = x.link → d = onPort p (fun y => { y with linkIn := up }) a)

/-- Pumps and the key store: known-answer rounds count and the second failure in a row declares the pump failed, the pairs rotate
every 100 ms, mask generators take entropy when due and raise their event when overdue, the sweep re-masks a row without changing
its key and an uncorrectable row drains its slot (R146, R162, R165, R166, R171, R175, R176); a load writes row and descriptor and
its KEY_LOAD replies, a drained slot is erased and EMPTY (R133, R163, R168). -/
def Obligations.PumpsAndKeyStore : Prop :=
  (∀ (dt : Nat) (p : Fin 4) (err : BitVec 384) (s : State), let a := pass dt s
    let x := pump p a
    running a = true →
    ((x.katNow = true ∨ x.katAt ≤ a.clk.now) → (∀ k, smFind a.pu.testRows k = none) → ∃ d, exec (.knownAnswerTest dt p err) s = .next d ∧
      (pump p d).katAt = a.clk.now + 250000 ∧ (pump p d).katNow = false ∧ (∀ j, j ≠ p → (pump j d).failed = (pump j a).failed) ∧
      (err = 0 → (pump p d).katFails = 0 ∧ (pump p d).katPasses = x.katPasses + 1 ∧ (pump p d).failed = x.failed) ∧
      (err ≠ 0 → (pump p d).katFails = x.katFails + 1 ∧ (pump p d).katPasses = 0 ∧ d.ev.pend.getLsbD 74 = true ∧
        (pump p d).failed = (x.failed || decide (1 ≤ x.katFails)))) ∧
    (x.katNow = false → a.clk.now < x.katAt → exec (.knownAnswerTest dt p err) s = .next a) ∧
    (a.pu.rotAt ≤ a.clk.now → ∃ d, exec (.pairingRotation dt) s = .next d ∧ d.pu.rotAt = a.clk.now + 25000000 ∧
      d.pu.rot = (if failedPumps a = [] then (a.pu.rot + 1) % 3 else a.pu.rot) ∧ d.pu.rows = a.pu.rows ∧ d.se = a.se) ∧
    (a.clk.now < a.pu.rotAt → exec (.pairingRotation dt) s = .next a) ∧
    (a.pu.sweepAt + 26 ≤ a.clk.now → let i := a.pu.sweep
      (∃ d, exec (.remaskSweep dt .clean) s = .next d ∧ (∀ j, rowKey j d = rowKey j a) ∧ d.pu.sweep = (i + 1) % 32836 ∧ d.free = a.free + 1 ∧
        d.se = a.se) ∧
      (i < 32768 → (kslot i a).spare = none → (kslot i a).state = 1 →
        ∃ d, exec (.remaskSweep dt .uncorrectable) s = .next d ∧ (kslot i d).drainBad = true ∧ d.ev.pend.getLsbD 72 = true ∧
          (kslot i d).state = 2))) ∧
  (∀ (dt : Nat) (p : Fin 4) (s : State), let a := advance dt s
    let x := pump p a
    running a = true →
    (x.reseedAt + 419431 ≤ a.clk.now → a.nw.lost = false → riserUp a = true → ∀ v r, a.nw.pool = v :: r →
      ∃ d, exec (.maskReseed dt p) s = .next d ∧ pump p d = { x with gen := v, reseedAt := d.clk.now, overdue := false } ∧
        d.nw = { a.nw with pool := r } ∧ d.se = a.se ∧ d.fp = a.fp ∧ a.clk.now ≤ d.clk.now ∧ d.clk.now ≤ a.clk.now + 1) ∧
    (x.reseedAt + 419431 + 6710887 ≤ a.clk.now → x.overdue = false →
      ∃ d, exec (.maskReseedOverdue dt p) s = .next d ∧ (pump p d).overdue = true ∧ d.ev.pend.getLsbD 73 = true ∧ (pump p d).gen = x.gen)) ∧
  ∀ (s : State), running s = true → s.ri.st = .up → vaultDown s = false → s.plat.swap = none → s.cpuC.restarting = none →
    s.cpuV.restarting = none → Quiet s → NothingDue s →
    (∀ i j n, (kslot i s).spare = some n → (kslot j s).spare = some n → i = j) →
    (∀ m r, s.pu.keyChan = m :: r → m.slot < 32768 → (kslot m.slot s).drainBad = false →
      (s.cmd.owed = [] ∨ ∃ c, s.cmd.owed = [{ call := c, opcode := 0x0401, wait := .keyLoaded m.slot }]) →
      ∃ d, exec .keyStoreLoad s = .next d ∧ d.pu.keyChan = r ∧ rowKey m.slot d = m.share0 ^^^ m.share1 ∧
        (∀ j, j < 32768 → j ≠ m.slot → rowKey j d = rowKey j s) ∧
        kslot m.slot d = { kslot m.slot s with state := 1, ktype := m.ktype, keyId := m.keyId, epoch := m.epoch, notAfter := m.notAfter } ∧
        (∀ j, j ≠ m.slot → kslot j d = kslot j s) ∧ slotLoads m.slot d = s.nv.loads + 1 ∧ d.cmd.owed = [] ∧
        (∀ c, s.cmd.owed = [{ call := c, opcode := 0x0401, wait := .keyLoaded m.slot }] → c.via = .spi →
          ∃ y, d.cmd.spiReplies = s.cmd.spiReplies ++ [y] ∧ y.status = stOk ∧ y.tag = c.pkt.tag ∧ y.tlvs = [r16 1 m.slot, r32 2 m.keyId, r32 3 m.epoch])) ∧
    (∀ i, i ∈ s.pu.drained → (kslot i s).drainBad = false → (kslot i s).drainAt ≠ some s.clk.now → (∀ m ∈ s.pu.queued, m.slot ≠ i) →
      (s.cmd.owed = [] ∨ ∃ c, s.cmd.owed = [{ call := c, opcode := 0x0402, wait := .slotEmpty [i] }]) →
      ∃ d, exec (.slotDrained i) s = .next d ∧ (kslot i d).state = 0 ∧ rowKey i d = 0 ∧ i ∉ d.pu.drained ∧ (∀ j, j ≠ i → kslot j d = kslot j s) ∧
        d.cmd.owed = [] ∧ d.pu.keyChan = s.pu.keyChan)

/-- The riser: a group that arrives whole is taken and acknowledged by the number its direction expects next; one with its tag or
its sequence number struck is discarded and counted, and the fourth failure of a group, with its event, retrains the link; the link comes
up again with each further attempt of 20 µs counted, or is down 10 ms after its retrain began; its session key is replaced after
2^40 groups of either direction and the old one kept for the group that bears the mark (R16 to R19, R22, R283; log 103). -/
def Obligations.RiserLink : Prop :=
  ∀ (dt : Nat) (s : State), let a := advance dt s
    Calm a →
    (a.ri.st = .up → a.ri.at_ + 4 ≤ a.clk.now → a.clk.now < a.ri.at_ + 8 → ∀ w : Bool,
      let x := riserDir w a.ri
      (∃ d, exec (.riserGroupReceived dt w 0) s = .next d ∧ d = { a with ri := d.ri } ∧ d.ri.st = .up ∧ d.ri.at_ = a.ri.at_ + 4 ∧
        (∀ e, (riserDir e d.ri).next = ((riserDir e a.ri).next + 1) % 2 ^ 48) ∧ (riserDir w d.ri).failed = 0 ∧
        d.ri.discards = a.ri.discards ∧ d.ri.retrains = a.ri.retrains) ∧
      (∀ flips : BitVec 1024, (flips.toNat / 2 ^ 16 % 2 ^ 48 ≠ 0 ∨ (flips.toNat < 2 ^ 128 ∧ flips.toNat % 2 ^ 64 = 0 ∧ flips ≠ 0)) →
        (a.ri.recent.filter (fun t => a.clk.now < t + 250000000)).length < 15 →
        ∃ d, exec (.riserGroupReceived dt w flips) s = .next d ∧ d.ri.discards = min 4294967295 (a.ri.discards + 1) ∧
          (riserDir w d.ri).next = x.next ∧
          (x.failed < 3 → d.ri.st = .up ∧ d.ri.retrains = a.ri.retrains ∧ (riserDir w d.ri).failed = x.failed + 1) ∧
          (3 ≤ x.failed → d.ri.st = .retraining ∧ d.ri.since = a.clk.now ∧
            d.ri.retrains = min 4294967295 (a.ri.retrains + 1) ∧ d.ev.pend.getLsbD 78 = true))) ∧
    (a.ri.st ≠ .up → ∃ d, exec (.retrainComplete dt) s = .next d ∧ d.ri.st = .up ∧ d.ri.at_ = a.clk.now ∧
      d.ri.retrains = min 4294967295 (a.ri.retrains + (a.clk.now - a.ri.since - 1) / 5000) ∧ d.ri.key = a.ri.key ∧
      d.ev.waitToP = [] ∧ d.ev.waitToV = [] ∧ (∀ n ∈ a.ev.waitToP, n < 256 → d.ev.pend.getLsbD n = true)) ∧
    (a.ri.st = .retraining → a.ri.since + 2500000 ≤ a.clk.now →
      ∃ d, exec (.riserDown dt) s = .next d ∧ d.ri.st = .down ∧ d.pu.keyChan = [] ∧ d.pu.rows = a.pu.rows) ∧
    (a.ri.st = .up → vaultDown a = false → linkQuiet a.ri = true →
      let due := (a.clk.now - a.ri.at_) / 4
      let under (n k : Nat) : Nat := ((n + due) % 2 ^ 48 + 2 ^ 48 - k) % 2 ^ 48
      let full : Prop := 2 ^ 40 ≤ under a.ri.toW.seq a.ri.keySeqW ∨ 2 ^ 40 ≤ under a.ri.toP.seq a.ri.keySeqP
      (full → ∃ d, exec (.riserKeyReplacement dt) s = .next d ∧ d.ri.keyGen = a.ri.keyGen + 1 ∧ d.ri.oldKey = a.ri.key ∧
        d.ri.keySeqW = d.ri.toW.seq ∧ d.ri.keySeqP = d.ri.toP.seq ∧ d.ri.st = .up ∧ d.fp = a.fp) ∧
      (¬ full → exec (.riserKeyReplacement dt) s = .next a))

/-- Transactions: an ARMED one commits at its instant, with the epoch if that is staged; settling begins 2 ms later; each settling
step makes a PENDING bank ACTIVE, its publish line following the bank's pair (log 108), or frees a deleted entry; each cleanup step of an aborted one puts its banks back to IDLE; the slot
is FREE at the end (R130, R138, R141). -/
def Obligations.TransactionEvents : Prop :=
  (∀ (dt : Nat) (k : Fin 8) (s : State), let a := advance dt s
    running a = true →
    ((txnOf k a).st = .armed → (txnOf k a).instant ≤ ptp16 a → a.fp.ing = [] → a.fp.egr = [] →
      (∀ j ∈ txnNos, j ≠ k.val → (txnOf j a).st ≠ .armed) →
      ∃ d, exec (.txnArmedInstant dt k) s = .next d ∧ (txnOf k d).st = .committed ∧ (txnOf k d).instant = (txnOf k a).instant ∧
        (txnOf k d).staged = (txnOf k a).staged ∧ (Change.epoch ∉ (txnOf k a).staged → d.se.epoch = a.se.epoch ∧ d.nv = a.nv) ∧
        (Change.epoch ∈ (txnOf k a).staged → d.se.epoch = a.se.epoch + 1 ∧ d.se.epochPrev = a.se.epoch ∧ d.se.epochAt = (txnOf k a).instant ∧
          (vaultReached a = false → d.ev.waitKey = a.ev.waitKey ++ [.epoch (a.se.epoch + 1)]) ∧
          (vaultReached a = true → a.ev.waitKey = [] →
            monoRead 4 d = some (a.se.epoch + 1)))) ∧
    ((txnOf k a).st = .armed → NothingDue a → exec (.txnArmedInstant dt k) s = .next a) ∧
    (NothingDue a → (txnOf k a).st = .committed → (txnOf k a).settling = false → (txnOf k a).wallAt + 500000 ≤ a.clk.now →
      (toSettle (txnOf k a) = true → exec (.settlingStart dt k) s = .next (onTxn k (fun t => { t with settling := true }) a)) ∧
      (toSettle (txnOf k a) = false → ∃ d, exec (.settlingStart dt k) s = .next d ∧ (txnOf k d).st = .free ∧ d.nv = a.nv ∧ d.fp = a.fp))) ∧
  ∀ (k : Fin 8) (i : Nat) (s : State), running s = true → let t := txnOf k s
    let e := curEntry i s
    (t.st = .committed → t.settling = true →
      (t.staged[t.settled]? = some (.control i) ∨ t.staged[t.settled]? = some (.add i) → e.stb = .pending → e.txb = k.val → e.sta = .active →
        ∃ d, exec (.settleEntry k) s = .next d ∧ curEntry i d = { e with stb := .active, sta := .idle, version := e.version + 1 } ∧
          (txnOf k d).st = (if t.settled + 1 < t.staged.length then .committed else .free) ∧ (e.publish = false → d.nv = s.nv) ∧
          (e.publish = true → t.staged[t.settled]? = some (.control i) → (ctrLine e.wrapLine d).pair = e.bankB.kpair)) ∧
      (t.staged[t.settled]? = some (.delete i false) → e.publish = false →
        ∃ d, exec (.settleEntry k) s = .next d ∧ (curEntry i d).used = false ∧ (curEntry i d).sta = .idle ∧ (curEntry i d).stb = .idle ∧
          (∀ g o, o ∈ (groupOf g d).ops → o.idx = i → o.live = false) ∧ d.nv = s.nv)) ∧
    (t.st = .aborting →
      (t.staged[t.settled]? = some (.control i) ∨ t.staged[t.settled]? = some (.delete i false) → bankPend e.stb = true → e.txb = k.val →
        bankPend e.sta = false →
        ∃ d, exec (.cleanupEntry k) s = .next d ∧ curEntry i d = { e with stb := .idle } ∧
          (txnOf k d).st = (if t.settled + 1 < t.staged.length then .aborting else .free) ∧ d.nv = s.nv) ∧
      (t.staged.length ≤ t.settled → ∃ d, exec (.cleanupEntry k) s = .next d ∧ (txnOf k d).st = .free ∧ d.nv = s.nv ∧ d.fp = s.fp))

/-- The time unit: TU_CTL snapshots and steps the time, TU_UNCERT takes the uncertainty and its time, STATE falls to HOLDOVER and FREERUN,
the lost reference clears REFSEL and REFOK, PPS edges are taken outside the window and given at whole seconds with the calibrated
delays, the replicas are re-anchored to within 0.5 ns, a UTC offset comes into
force at its instant (R179, R181, R182, R185 to R189, R194, R195). -/
def Obligations.TimeUnitEvents : Prop :=
  (∀ (v : Word) (s : State), running s = true →
    (v.getLsbD 5 = false → v.toNat % 4 = s.tu.state → (v.getLsbD 2 = true → s.tu.refPresent = true) → ∃ d, exec (.tuCtlSnap v) s = .next d ∧ d = onTu (fun t => { t with
      snap := ptp16 s, refSel := v.getLsbD 2, refOk := v.getLsbD 2, ppsOutEn := v.getLsbD 4, abs := v.getLsbD 6, ppsLastEdge := d.tu.ppsLastEdge }) s) ∧
    (v.toNat % 4 = s.tu.state → v.getLsbD 6 = true → ∃ d, exec (.tuCtlStep v) s = .next d ∧
      d.tu.time = (s.tu.stepLo.toNat + 2 ^ 32 * s.tu.stepHi.toNat) % (2 ^ 48 * 1000000000) * 2 ^ 48 ∧ d.ev.pend.getLsbD 45 = true ∧
      d.tu.refSel = v.getLsbD 2 ∧ d.nv = s.nv ∧ ∀ k, (txnOf k s).st = .committed → (txnOf k d).instant = 0) ∧
    let b := inTurn turnTime 0 0 s
    ∃ h, exec (.tuUncert v) s = .next (onTu (fun t => { t with uset := v.toNat, tset := ptp16 b, tsetAt := b.clk.now, hist := h }) b)) ∧
  ∀ (dt sub : Nat) (s : State), let a := advance dt s
    running a = true →
    (a.tu.state = 1 → a.tu.tsetAt + 25000000 * a.tu.holdto ≤ a.clk.now →
      ∃ d, exec (.holdoverEntry dt) s = .next d ∧ d.tu.state = 2 ∧ d.ev.pend.getLsbD 44 = true ∧ d.tu.uset = a.tu.uset ∧ d.nv = a.nv) ∧
    (a.tu.state = 2 → (a.tu.umax : Int) * uScale < uEff (timeSnap a.tu) (ptp16 a) →
      ∃ d, exec (.freerunEntry dt) s = .next d ∧ d.tu.state = 0 ∧ d.ev.pend.getLsbD 44 = true ∧ d.tu.uset = a.tu.uset ∧ d.nv = a.nv) ∧
    (a.tu.refSel = true → riserUp a = true →
      ∃ d, exec (.referenceLost dt) s = .next d ∧ d.tu.refSel = false ∧ d.tu.refOk = false ∧ d.tu.refPresent = false ∧ d.ev.pend.getLsbD 42 = true ∧ d.ev.sumpP.getLsbD 42 = true) ∧
    (pinsTaken a = false → a.tu.src ≠ 2 → sub < 8 → let b := inTurn turnTime 0 0 a
      let cap := ((ptp16 b : Int) + sub * 32768 - calEff 0x0300 b).toNat
      (a.tu.ppsLast = none ∨ a.tu.ppsLastAt + 250000 * a.tu.ppsWindow ≤ b.clk.now →
        exec (.ppsInEdge dt (!a.tu.ppsInFalling) sub) s = .next (onTu (fun t => { t with ppsLast := some cap, ppsLastAt := b.clk.now, ppsMissing := false }) b)) ∧
      (a.tu.ppsLast ≠ none → b.clk.now < a.tu.ppsLastAt + 250000 * a.tu.ppsWindow →
        exec (.ppsInEdge dt (!a.tu.ppsInFalling) sub) s = .next (onTu (fun t => { t with ppsIgnored := t.ppsIgnored + 1 }) b))) ∧
    (a.tu.ppsMissing = false → a.tu.ppsLastAt + 275000000 ≤ a.clk.now →
      ∃ d, exec (.ppsInMissing dt) s = .next d ∧ d.tu = { a.tu with ppsMissing := true } ∧ d.ev.pend.getLsbD 43 = true ∧ d.nv = a.nv) ∧
    (let n := (((ptp16 a : Nat) : Int) + calEff 0x0301 a - a.tu.ppsOffset * 65536) / 65536000000000;
      a.tu.ppsOutEn = true → a.tu.ppsLastEdge < n →
      exec (.ppsOutEdge dt) s = .next (onTu (fun t => { t with ppsOut := true, ppsOutAt := a.clk.now, ppsLastEdge := n }) a)) ∧
    (a.tu.ppsOut = true → a.tu.ppsOutAt + a.tu.ppsWidth / 4 ≤ a.clk.now →
      exec (.ppsOutPulseEnd dt) s = .next (onTu (fun t => { t with ppsOut := false }) a)) ∧
    (a.tu.reanchorAt + 250 ≤ a.clk.now → ∃ d, exec (.replicaReanchor dt) s = .next d ∧
      d.tu = { a.tu with reanchorAt := a.clk.now, replicas := d.tu.replicas } ∧ d.nv = a.nv ∧ d.fp = a.fp ∧
      ∀ p, p < 5 → (smGet 0 d.tu.replicas p).natAbs ≤ 32768) ∧
    (∀ off at_, a.tu.utcNext = some (off, at_) →
      (at_ ≤ ptp16 a → ∃ h, exec (.utcoffEffective dt) s = .next (onTu (fun t => { t with utcoff := off, utcvalid := true, utcNext := none, hist := h }) a)) ∧
      (ptp16 a < at_ → exec (.utcoffEffective dt) s = .next a))

/-- The noise well: a bank in service gives blocks to a pool of 16; a health failure takes a bank back to testing, a third within a
second or one in testing fails it, and with both failed the generator is gone; estimates beyond their limits raise the event; the
generators are reseeded when due (R262, R275 to R279, R282). -/
def Obligations.NoiseWell : Prop :=
  (∀ (b : Fin 2) (s : State), running s = true →
    let t := inTurn turnPool 1 b.val s
    ((bankOf b s).st = .inService → s.nw.pool.length < 16 →
      ∃ v, exec (.conditioningBlock b) s = .next { onNw (fun n => { n with pool := n.pool ++ [v] }) t with free := s.free + 1 }) ∧
    ((bankOf b s).st ≠ .inService → exec (.conditioningBlock b) s = .next t) ∧
    ((bankOf b s).st = .testing → exec (.startupTestComplete b) s = .next (onBank b (fun x => { x with st := .inService }) s)) ∧
    ∀ (o : Fin 8) (bias : Int) (lags : List Int), lags.length = 4 →
      ∃ d, exec (.noiseEstimate o bias lags) s = .next d ∧ smGet {} d.nw.ests o.val = { bias := bias, lags := lags } ∧
        (4096 < bias.natAbs ∨ (∃ x ∈ lags, 8192 < x.natAbs) → d.ev.intcPendV.getLsbD 133 = true) ∧
        (bias.natAbs ≤ 4096 → (∀ x ∈ lags, x.natAbs ≤ 8192) → d.ev = s.ev) ∧ d.nv = s.nv) ∧
  ∀ (dt : Nat) (o : Fin 8) (h : Bool) (s : State), let a := advance dt s
    let b : Fin 2 := if o.val < 4 then 0 else 1
    let c : Fin 2 := if o.val < 4 then 1 else 0
    let near := ((bankOf b a).recent.filter (fun t => a.clk.now < t + 250000000)).length
    running a = true →
    ((bankOf b a).st = .inService → near < 2 → ∃ d, exec (.healthTestFailure dt o h) s = .next d ∧ (bankOf b d).st = .testing ∧
      (bankOf b d).fails = (bankOf b a).fails + 1 ∧ bankOf c d = bankOf c a ∧ d.ev = a.ev) ∧
    ((bankOf b a).st = .inService ∧ 2 ≤ near ∨ (bankOf b a).st = .testing → ∃ d, exec (.healthTestFailure dt o h) s = .next d ∧
      (bankOf b d).st = .failed ∧ (bankOf b d).fails = (bankOf b a).fails + 1 ∧ d.ev.sumpW.getLsbD 132 = true ∧
      ((bankOf c a).st = .failed → d.nw.drbg = none ∧ d.nw.lost = true ∧ d.ev.sumpW.getLsbD 134 = true) ∧
      ((bankOf c a).st ≠ .failed → d.nw.drbg = a.nw.drbg ∧ d.nw.lost = a.nw.lost)) ∧
    (∀ g, a.nw.drbg = some g → (g.reseedAt + 25000000 ≤ a.clk.now → ∃ d x, exec (.drbgReseed dt) s = .next d ∧ d.nw.drbg = some x ∧
        x.served = 0 ∧ x.reseedAt = d.clk.now ∧ d = { a with nw := d.nw, free := d.free, clk := d.clk, tu := d.tu }) ∧
      (a.clk.now < g.reseedAt + 25000000 → exec (.drbgReseed dt) s = .next a)) ∧
    (a.eng.vcReseedAt + 250000 ≤ a.clk.now → a.nw.lost = false → ∀ v w r, a.nw.pool = v :: w :: r →
      ∃ d, exec (.engineMaskReseed dt) s = .next d ∧ d.eng = { a.eng with vcGen := v, meGen := w, vcReseedAt := d.clk.now } ∧
        d.nw = { a.nw with pool := r } ∧ d.fp = a.fp)

/-- The row that runs a cipher operation. -/
def Sys2Proof.Claim.cipherRow (op : Nat) : Option Instr :=
  match op with
  | 0x01 => some .vcEnc
  | 0x02 => some .vcDec
  | 0x03 => some .keystream
  | 0x04 => some .vdec
  | 0x05 => some .nonceBase
  | 0x10 => some .sha256
  | 0x11 => some .sha512
  | 0x12 => some .hkey
  | _ => none

/-- The eight operations of the cipher engine on the request at the head of its queue: a request that fails a check, the valve
table's among them, is completed with the status and without other effect; one that passes writes its result at DST, counts in its
session and in its slot, and is completed OK, a KEYSTREAM with its nonce; the key comes from the cache or is unwrapped, and its line is
the most recent one, under shares; a wrong tag releases no byte; a key that does not unwrap is a hardware fault (R247 to R260, R262,
R465); so is an input word with an uncorrectable error (log 124). -/
def Obligations.CipherEngine : Prop :=
  ∀ (s : State) (i : Instr), Calm s → s.eng.vcHead ≠ s.eng.vcTail → Unserved (turnMram * 2 ^ 32) s →
    let r := vcDescAt s.eng.vcHead s
    let v := vslot r.slot s
    let zero : Bytes := List.replicate 12 0
    let src := ramGet .vault r.src (srcLen r) s
    let key? : Option Bytes := match s.eng.vcCache.find? (fun l => l.slot == r.slot) with
      | some l => some (xorBytes l.share0 l.share1)
      | none => s.nv.bbram.kek.bind (fun k => kwpUnwrap (bytes256 k) v.wrapped)
    let sum (p : Byte) (k : Bytes) := compress256 (shaBytes h256) ((fit 64 k).map (· ^^^ p))
    cipherRow r.op = some i →
    (∀ e, vcRefuse true r s = some e → exec i s = .next (vcDone r e zero s)) ∧
    (vcBad true r v = false → (vcGranted r s = false ∨ r.op = 1 ∧ (bitN v.usage 0 = false ∨ v.nmode ≠ 0) ∨
        r.op = 2 ∧ (bitN v.usage 1 = false ∨ v.nmode ≠ 0) ∨ (r.op = 3 ∨ r.op = 5) ∧ bitN v.usage 3 = false ∨
        r.op = 4 ∧ bitN v.usage 4 = false ∨ r.op = 0x12 ∧ bitN v.usage 2 = false) →
      exec i s = .next (vcDone r stDenied zero s)) ∧
    (vcRefuse true r s = none → (∃ e ∈ s.me.faulty, ramWordIn .vault e.1 e.2 r.src (srcLen r) = true) →
      exec i s = .next (vcDone r stHwFault zero (raise 140 [] s))) ∧
    (vcRefuse true r s = none → s.me.faulty = [] →
      (r.op = 5 → exec i s = .next (vcDone r stOk zero (sessAfter r
        (onVslot r.slot (fun v => { v with baseset := true, salt := beNat (r.arg.take 4), next := beNat (slice r.arg 4 8) })
          (mramTurn 0 mramCipher s))))) ∧
      (r.op = 0x10 → exec i s = .next (vcDone r stOk zero (ramPut .vault r.dst (compress256 (ramGet .vault r.dst 32 s) src) (sessAfter r s)))) ∧
      (r.op = 0x11 → exec i s = .next (vcDone r stOk zero (ramPut .vault r.dst (compress512 (ramGet .vault r.dst 64 s) src) (sessAfter r s)))) ∧
      (key? = none → r.op ≠ 5 → r.op ≠ 0x10 → r.op ≠ 0x11 → exec i s = .next (vcDone r stHwFault zero (raise 131 [r.slot] s))) ∧
      ∀ k, key? = some k → r.op ≠ 5 → r.op ≠ 0x10 → r.op ≠ 0x11 → let key := fit (if v.ktype = 0 then 16 else 32) k
        ∃ u l, u = { s with eng := { s.eng with vcGen := u.eng.vcGen, vcCache := l :: (s.eng.vcCache.filter (fun l => l.slot ≠ r.slot)).take 7 } } ∧
        l.slot = r.slot ∧ xorBytes l.share0 l.share1 = k ∧
        (r.op = 1 → exec i s = .next (vcDone r stOk zero (ramPut .vault r.dst ((blocksOf 16 src).map (aesEnc key)).flatten (sessAfter r u)))) ∧
        (r.op = 2 → exec i s = .next (vcDone r stOk zero (ramPut .vault r.dst ((blocksOf 16 src).map (aesDec key)).flatten (sessAfter r u)))) ∧
        (r.op = 3 → let n := natBE 4 v.salt ++ natBE 8 v.next
          exec i s = .next (vcDone r stOk n (ramPut .vault r.dst
            ((List.range (r.len / 16 + 1)).map (fun j => aesEnc key (n ++ natBE 4 (j + 1)))).flatten
            (onVslot r.slot (fun v => { v with next := v.next + 1 }) (mramTurn 0 mramCipher (sessAfter r u)))))) ∧
        (r.op = 4 → let iv := r.arg.take 12
          let aad := src.take (aadLen r)
          let ct := slice src (aadLen r) r.len
          let good : Prop := gcmTag key iv aad ct = slice src (aadLen r + r.len) 16
          let held (b : Bytes) := onEng (fun e => { e with hold := b }) (sessAfter r u)
          (good → exec i s = .next (vcDone r stOk zero (ramPut .vault r.dst (gcmCrypt key iv ct) (held (gcmCrypt key iv ct))))) ∧
          (¬ good → exec i s = .next (vcDone r stTagMismatch zero (held [])))) ∧
        (r.op = 0x12 → exec i s = .next (vcDone r stOk zero
          (ramPut .vault r.dst (sum (BitVec.ofNat 8 (leNat (r.arg.take 1))) k) (sessAfter r u)))))

/-- The row that runs a modular operation; the flag says that the result check fails. -/
def Sys2Proof.Claim.modularRow (faulty : Bool) (op : Nat) : Option Instr :=
  match op with
  | 0x01 => some .modadd
  | 0x02 => some .modsub
  | 0x03 => some .modmul
  | 0x04 => some .modexp
  | 0x05 => some .modinv
  | 0x10 => some (.ecbase faulty)
  | 0x11 => some (.ecmul faulty)
  | 0x12 => some (.ecmul2 faulty)
  | 0x13 => some .eccheck
  | 0x14 => some (.x25519 faulty)
  | 0x20 => some .ntt
  | 0x21 => some .intt
  | 0x22 => some .pmul
  | 0x23 => some .padd
  | 0x24 => some .psub
  | _ => none

/-- The fifteen operations of the modular engine on the descriptor at the head of its queue, operands from SRC: a CURVE, L or address
that does not fit is BAD_PARAM; a range that the valve table does not grant, or a key that its slot does not lend, is DENIED; a
blinding draw that cannot be served clears the workspace with ENTROPY_FAIL; else the workspace holds the operands and the operation's
status is written, with a result at RES only where it is OK; the modular numbers of CURVE 0; a curve result that fails its check is
HW_FAULT with the event and nothing at RES (R265 to R273, R280, R465). -/
def Sys2Proof.Claim.ModularEngine : Prop :=
  (∀ (s : State) (i : Instr) (faulty : Bool), Calm s → s.eng.meHead ≠ s.eng.meTail → Unserved (turnPool * 2 ^ 32) s →
    let r := meDescAt s.eng.meHead s
    let v := vslot r.slot s
    let src := ramGet .vault r.src (meSrcLen r) s
    let bits := if r.verify then 0 else blindBits r.op r.len
    let a := meCompute r.op r.curve r.len src
    let clear (d : State) := onEng (fun e => { e with meWork := [] }) d
    let checked : Prop := r.op = 0x10 ∨ r.op = 0x11 ∨ r.op = 0x12 ∨ r.op = 0x14
    modularRow faulty r.op = some i →
    (meFits r.op r.curve r.len = false ∨ meAddrOk r = false ∨ r.keySrc = true ∧ r.verify = true → exec i s = .next (meDone r stBadParam s)) ∧
    (meFits r.op r.curve r.len = true → meAddrOk r = true → ¬ (r.keySrc = true ∧ r.verify = true) →
      (meGranted r s = false → exec i s = .next (meDone r stDenied s)) ∧
      (r.keySrc = true → s.me.faulty = [] → bitN v.usage 5 = false ∧ bitN v.usage 6 = false ∨ curveKtype r.curve ≠ some v.ktype →
        exec i s = .next (meDone r stDenied s)) ∧
      (meGranted r s = true → r.keySrc = false → s.me.faulty = [] →
        (bits ≠ 0 → s.nw.lost = true → exec i s = .next (meDone r stEntropyFail (clear s))) ∧
        (bits = 0 ∨ s.nw.lost = false →
          ∃ d, d = { s with nw := d.nw, free := d.free, clk := { s.clk with turns := d.clk.turns }, eng := { s.eng with meWork := src } } ∧
            d.nw = { s.nw with pool := s.nw.pool.drop ((bits + 255) / 256) } ∧
            (a.status ≠ stOk → exec i s = .next (meDone r a.status d)) ∧
            (a.status = stOk → ¬ (faulty = true ∧ checked) → exec i s = .next (meDone r stOk (ramPut .vault r.res a.out d))) ∧
            (a.status = stOk → faulty = true → checked → exec i s = .next (meDone r stHwFault (raise 130 [] (clear d)))))))) ∧
  ∀ (len : Nat) (b : Bytes), let l := operandsOf len b
    let m := l.getLastD 0
    let x := l.getD 0 0
    let y := l.getD 1 0
    (m < 3 → ∀ op, (meCompute op 0 len b).status = stBadParam) ∧
    (3 ≤ m → x < m →
      (y < m → meCompute 1 0 len b = { status := stOk, out := natLE (8 * len) ((x + y) % m) } ∧
        meCompute 2 0 len b = { status := stOk, out := natLE (8 * len) ((x + m - y) % m) }) ∧
      (y < m → m % 2 = 1 → meCompute 3 0 len b = { status := stOk, out := natLE (8 * len) (x * y % m) } ∧
        (x ≠ 0 → l.getD 2 0 < m → meCompute 4 0 len b = { status := stOk, out := natLE (8 * len) (x ^ y % m) })) ∧
      (m % 2 = 1 → x ≠ 0 → meCompute 5 0 len b = { status := stOk, out := natLE (8 * len) (x ^ (m - 2) % m) }) ∧
      (m % 2 = 0 → ∀ op, op = 3 ∨ op = 4 ∨ op = 5 → (meCompute op 0 len b).status = stBadParam) ∧
      (m ≤ y → ∀ op, op = 1 ∨ op = 2 ∨ op = 3 ∧ m % 2 = 1 → (meCompute op 0 len b).status = stInputGeModulus) ∧
      (m % 2 = 1 → x = 0 → ∀ op, op = 4 ∨ op = 5 → (meCompute op 0 len b).status = stInputZero)) ∧
    (3 ≤ m → m ≤ x → m % 2 = 1 → ∀ op, 1 ≤ op → op ≤ 5 → (meCompute op 0 len b).status = stInputGeModulus)

/-- The doorbells of the engines: VC_QTAIL and ME_QTAIL take the tail modulo the queue's size, and a descriptor with a known operation
then waits for its turn while one with an unknown operation is completed BAD_PARAM at once; the abort clears the workspace and
completes the descriptor at the head with HW_FAULT, the result area untouched (R250, R254, R265, R267, R273, R529). -/
def Sys2Proof.Claim.EngineDoorbells : Prop :=
  ∀ (v : Word) (s : State), Calm s → s.eng.vcMine = [] → s.eng.meMine = [] →
    (let t := onEng (fun e => { e with vcTail := v.toNat % 256 }) s
      let r := vcDescAt s.eng.vcHead s
      (v.toNat % 256 = s.eng.vcHead ∨ r.op ∈ [1, 2, 3, 4, 5, 0x10, 0x11, 0x12] → exec (.vcQtail v) s = .next t) ∧
      (v.toNat % 256 = (s.eng.vcHead + 1) % 256 → s.eng.vcHead < 256 → r.op ∉ [1, 2, 3, 4, 5, 0x10, 0x11, 0x12] → r.irq = false →
        exec (.vcQtail v) s = .next (onEng (fun e => { e with vcHead := v.toNat % 256, vcDone := e.vcDone + 1 })
          (ramPut .vault (s.eng.vcCBase + 16 * s.eng.vcHead)
            (natLE 2 s.eng.vcHead ++ natLE 2 stBadParam ++ List.replicate 12 0) t)))) ∧
    (let t := onEng (fun e => { e with meTail := v.toNat % 8 }) s
      let r := meDescAt s.eng.meHead s
      let known := r.op ∈ [1, 2, 3, 4, 5, 0x10, 0x11, 0x12, 0x13, 0x14, 0x20, 0x21, 0x22, 0x23, 0x24]
      (v.toNat % 8 = s.eng.meHead ∨ known → exec (.meQtail v) s = .next t) ∧
      (v.toNat % 8 = (s.eng.meHead + 1) % 8 → s.eng.meHead < 8 → ¬ known → r.irq = false →
        exec (.meQtail v) s = .next (onEng (fun e => { e with meHead := v.toNat % 8, meDone := e.meDone + 1 })
          (ramPut .vault (s.eng.meQBase + 16 * s.eng.meHead + 6) (natLE 2 stBadParam) t)))) ∧
    (s.eng.meHead ≠ s.eng.meTail →
      exec (.meCtlAbort v) s = .next (meDone (meDescAt s.eng.meHead s) stHwFault (onEng (fun e => { e with meWork := [] }) s))) ∧
    (s.eng.meHead = s.eng.meTail → exec (.meCtlAbort v) s = .next s)

/-- The fifteen operations of the modular engine, and the doorbells of both engines: the parts together. -/
def Obligations.ModularEngine : Prop :=
  Claim.ModularEngine ∧ Claim.EngineDoorbells

/-- The tag's own state after field-on, HLTA, S(DESELECT), field loss or an error, and the contactless session closed: what it had
taken runs on without a sender (R232, R291, R298). -/
def Sys2Proof.Claim.quieted (iso : Iso) (s : State) : State :=
  onCmd (fun c => { c with clSess := false, stuck := c.stuck.filter (fun e => e.1 ≠ .contactless) })
    (onCl (fun c => { c with execAt := none }) (orphan .contactless (onCl (fun c => { c with
      iso := iso, fromHalted := false, rats := false, dsi := 0, dri := 0, app := .none, sec := .closed, rndB := none, cc := 0 }) s)))

/-- A reader frame for the tag application, with the lock of the tag memory, in the tag engine's turn at the MRAM (R290, R313, R406). -/
def Sys2Proof.Claim.framed (s : State) : State :=
  onCl (fun c => { c with frameTo := s.clk.now + 295, lockTo := s.clk.now + 295 }) (mramTurn 0 mramTag s)

/-- The field and activation: FIELD_ON writes the tag counter on and forms the identifier of the field, an answered REQA, WUPA, SELECT,
RATS, PPS or S(DESELECT) is heard in the field and moves the tag on as R291 sends; an error in ready or active quiets it; SELECT of an
application and EXEC answer by status word or offer the packet; a running EXEC asks for more time; at field loss what the field had
taken runs on without a sender (R232, R287, R291 to R299). -/
def Obligations.CardActivation : Prop :=
  (∀ s : State, s.cl.field = false →
    let v := (tctr s + 1) % 2 ^ 64
    let w := tagPut 112 (natLE 8 v) s
    let b := aesEnc (tagBytes 96 16 w) (natBE 8 v ++ List.replicate 8 0xA5)
    let d := onCl (fun c => { c with field := true, uid := BitVec.ofNat 32 (beNat (0x08#8 :: b.take 3)) }) (quieted .idle w)
    (running s = false → exec .fieldOn s = .next d) ∧ (running s = true → exec .fieldOn s = .next (raise 151 [] d))) ∧
  (∀ s : State, s.cl.field = true → exec .fieldOn s = .next s ∧
    let d := quieted .idle (onCl (fun c => { c with field := false }) s)
    exec .fieldLoss s = .next d ∧ d.cmd.owed.length = s.cmd.owed.length ∧ ∀ o ∈ d.cmd.owed, o.call.via ≠ .contactless) ∧
  ∀ s : State, s.cl.field = true → (if s.plat.pwrOk then s.cl.role else storedMode s) = 1 →
    let quiet (iso : Iso) := quieted iso s
    let error := quiet (if s.cl.fromHalted then .halted else .idle)
    let heard (b : Bytes) (d : State) := emit (.field b) d
    let framed (d : State) := onCl (fun c => { c with frameTo := s.clk.now + 295 }) d
    let crc (b : Bytes) := b ++ crcA b
    let open_ (f : Cl → Cl) := onCl f s
    let to4 : Prop := s.cl.iso = .active ∧ s.cl.rats = true
    (s.cl.iso = .idle → ∀ i, i = .reqa ∨ i = .wupa →
      exec i s = .next (heard [0x04, 0x00] (open_ (fun c => { c with iso := .ready, fromHalted := false })))) ∧
    (s.cl.iso = .halted → exec .reqa s = .next s ∧
      exec .wupa s = .next (heard [0x04, 0x00] (open_ (fun c => { c with iso := .ready, fromHalted := true })))) ∧
    (s.cl.iso = .ready ∨ s.cl.iso = .active → exec .reqa s = .next error ∧ exec .wupa s = .next error) ∧
    (s.cl.iso = .ready → ∀ u, (u = s.cl.uid → jhdrSeq s = jdoneSeq s →
        exec (.selectCard u) s = .next (heard (crc [0x20]) (open_ (fun c => { c with iso := .active })))) ∧
      (u ≠ s.cl.uid → exec (.selectCard u) s = .next error) ∧ exec .hlta s = .next error) ∧
    (s.cl.iso = .active → exec .hlta s = .next (quiet .halted) ∧ (∀ u, exec (.selectCard u) s = .next error) ∧
      (s.cl.rats = false → exec .rats s = .next (heard (crc [0x05, 0x78, 0x33, 0x60, 0x02]) (framed (open_ (fun c => { c with rats := true })))))) ∧
    (to4 → s.cl.app = .none → ∀ dsi dri, dsi ≤ 2 → dri ≤ 2 →
      exec (.pps dsi dri) s = .next (heard (crc [0xD0]) (framed (open_ (fun c => { c with dsi := dsi, dri := dri }))))) ∧
    (to4 → exec .sDeselect s = .next (heard (crc [0xC2]) (framed (quiet .halted)))) ∧
    (to4 → let up : Prop := s.plat.pwrOk = true ∧ isReady s = true ∧ s.cpuV.stopped = false ∧ s.cpuV.halted = false
      let cl (app : TagApp) := open_ (fun c => { c with sec := .closed, rndB := none, frameTo := s.clk.now + 295, app := app })
      exec (.selectApplication [0xF0, 0x45, 0x42, 0x5A, 0x54, 0x01]) s = .next (emit (.sw 0x9000 []) (cl .tag)) ∧
      (up → exec (.selectApplication [0xF0, 0x45, 0x42, 0x5A, 0x43, 0x01]) s =
        .next (emit (.sw 0x9000 []) (onCmd (fun c => { c with clSess := true }) (cl .command)))) ∧
      (¬ up → exec (.selectApplication [0xF0, 0x45, 0x42, 0x5A, 0x43, 0x01]) s = .next (emit (.sw 0x6985 []) (cl s.cl.app))) ∧
      (∀ aid, aid ≠ [0xF0, 0x45, 0x42, 0x5A, 0x54, 0x01] → aid ≠ [0xF0, 0x45, 0x42, 0x5A, 0x43, 0x01] →
        exec (.selectApplication aid) s = .next (emit (.sw 0x6A82 []) (cl s.cl.app))) ∧
      (s.cl.app = .command → s.cl.execAt = none → ∀ pkt,
        (up → exec (.exec7816 pkt) s = 
          .next (settle (offer .contactless pkt (open_ (fun c => { c with execAt := some s.clk.now, frameTo := s.clk.now + 295 }))))) ∧
        (¬ up → exec (.exec7816 pkt) s = .next (emit (.sw 0x6985 []) s)))) ∧
    ∀ dt at_, let a := advance dt s
      a.cl.execAt = some at_ → a.cmd.clSess = true → at_ + 3866430 ≤ a.clk.now → ∃ m, 1 ≤ m ∧ m ≤ 16 ∧ exec (.sWtx dt) s =
        .next (emit (.field (crc [0xF2, BitVec.ofNat 8 m])) (onCl (fun c => { c with execAt := some a.clk.now }) { a with free := a.free + 1 }))

/-- A word in one of the ranges, each an address and a length, has an uncorrectable error (R404). -/
def Sys2Proof.Claim.Torn (l : List (Nat × Nat)) (t : State) : Bool :=
  l.any (fun e => t.nv.torn.any (fun w => decide (e.1 < 8 * w + 8 ∧ 8 * w < e.1 + e.2)))

/-- The tag answers a command of the tag application whose meaning on plain data is given as a relation of data, state, status word,
response data and next state: plainly outside secured; in secured with its MAC and, for pages, enciphered both ways, CC moving on; a
wrong MAC is 6988 and closes the state; a collapse of the field leaves it quiet and unanswered (R288, R296, R305, R306). -/
def Sys2Proof.Claim.TagAnswers (i : Instr) (a : Apdu7816) (ins : Nat) (pages keep : Bool)
    (plain : Bytes → State → Nat → Bytes → State → Prop) (s : State) : Prop :=
  let s1 := onCl (fun c => { c with rndB := if keep then c.rndB else none }) (framed s)
  let s2 := onCl (fun c => { c with fuel := none }) s1
  let mac (c : Cl) (m : Bytes) := (cmac (bytes128 c.skMac) (natBE 2 c.cc ++ m)).take 8
  let key := bytes128 s.cl.skEnc
  let iv (c : Cl) := aesEnc (bytes128 c.skEnc) (natBE 2 c.cc ++ List.replicate 14 0)
  let good : Prop := a.mac = mac s.cl ([0x80] ++ natBE 1 ins ++ natBE 1 a.p1 ++ natBE 1 a.p2 ++ a.data)
  let data := if pages = true ∧ a.data.length % 16 = 0 then cbcDec key (iv s.cl) (blocksOf 16 a.data) else a.data
  (a.collapse = none → s.cl.sec ≠ .secured → ∀ code out t, plain a.data s2 code out t → exec i s = .next (emit (.sw code out) t)) ∧
  (a.collapse = none → s.cl.sec = .secured → good → ∀ code out t, plain data s2 code out t →
    let body := if pages then cbcEnc key (iv t.cl) (blocksOf 16 out) else out
    exec i s = .next (onCl (fun c => if c.cc = 0xFFFF then { c with sec := .closed, cc := 0 } else { c with cc := c.cc + 1 })
      (emit (.sw code (body ++ mac t.cl (natBE 2 code ++ body))) t))) ∧
  (s.cl.sec = .secured → ¬ good → exec i s = .next (emit (.sw 0x6988 []) (onCl (fun c => { c with sec := .closed, cc := 0 }) s1))) ∧
  (a.collapse ≠ none → s.cl.sec ≠ .secured ∨ good → ∃ d, exec i s = .next d ∧ d.cl.field = false ∧ d.cl.iso = .idle ∧ d.cl.sec = .closed ∧
    d.cl.fuel = none ∧ d.cmd.clSess = false)

/-- The commands of the tag application: VERIFY_PWD counts before it compares and refuses at 16; AUTH1 answers an enciphered RndB under a
fresh tag counter and AUTH2 enters secured with its session keys; READ and WRITE of pages, CTR_READ and CTR_INC in the ranges and under
the maps of R301 and R302; a word that does not read is 6581; a tag application not selected answers 6D00; the vault core rewrites page 1 when the lock is free (R288,
R296, R297, R300 to R309, R313, R404). -/
def Obligations.TagCommandsInTheField : Prop :=
  (∀ (s : State) (a : Apdu7816), s.cl.field = true → (if s.plat.pwrOk then s.cl.role else storedMode s) = 1 → s.cl.iso = .active →
    s.cl.rats = true →
    let p := 256 * a.p1 + a.p2
    let same (t u : State) (code : Nat) (out : Bytes) (want : Nat) : Prop := code = want ∧ out = [] ∧ u = t
    let lost (t u : State) (code : Nat) (out : Bytes) : Prop := code = 0x6581 ∧ out = [] ∧ u = (if t.plat.pwrOk then raise 138 [] t else t)
    let maps (n : Nat) : List (Nat × Nat) := (List.range n).map (fun j => (16 * (8 + (p + j) / 16 / 32) + (p + j) / 16 % 32 / 2, 1))
    let heard := onCl (fun c => { c with frameTo := s.clk.now + 295 }) s
    (s.cl.app ≠ .tag → ∀ i, i = .verifyPwd a ∨ i = .auth1 a ∨ i = .tagApduRead a ∨ i = .tagApduWrite a ∨ i = .ctrRead a ∨ i = .ctrInc a →
      exec i s = .next (emit (.sw 0x6D00 []) (onCl (fun c => { c with rndB := none }) heard))) ∧
    (s.cl.app ≠ .tag → exec (.auth2 a) s = .next (emit (.sw 0x6D00 []) heard)) ∧
    (s.cl.app = .tag →
      TagAnswers (.verifyPwd a) a 0x20 false false (fun d t code out u =>
        if d.length ≠ 8 then same t u code out 0x6700 else if Torn [(64, 8), (120, 2)] t then lost t u code out else if 16 ≤ pwdFails t then same t u code out 0x6983
        else out = [] ∧ if d = tagBytes 64 8 t
          then code = 0x9000 ∧ u = onCl (fun c => { c with sec := .open_ }) (setPwdFails 0 (setPwdFails (pwdFails t + 1) t))
          else code = 0x6982 ∧ u = setPwdFails (pwdFails t + 1) t) s ∧
      TagAnswers (.auth1 a) a 0x82 false false (fun d t code out u =>
        if d ≠ [] then same t u code out 0x6700 else if Torn [(80, 16), (96, 16), (112, 8)] t then lost t u code out else
          let v := (tctr t + 1) % 2 ^ 64
          let w := tagPut 112 (natLE 8 v) t
          let b := aesEnc (tagBytes 96 16 w) (natBE 8 v ++ List.replicate 8 0x5A)
          code = 0x9000 ∧ out = aesEnc (tagBytes 80 16 w) b ∧ u = onCl (fun c => { c with rndB := some (of128 b) }) w) s ∧
      TagAnswers (.auth2 a) a 0x84 false true (fun d t code out u =>
        let k := tagBytes 80 16 t
        let w := onCl (fun c => { c with rndB := none }) t
        if d.length ≠ 32 then same w u code out 0x6700
        else match t.cl.rndB with
          | none => same w u code out 0x6982
          | some r => if Torn [(80, 16)] w then lost w u code out else
            let b := bytes128 r
            let x := aesDec k (d.take 16)
            let rot (l : Bytes) := l.drop 1 ++ l.take 1
            if t.cl.sec = .secured ∨ xorBytes (aesDec k (d.drop 16)) (d.take 16) ≠ rot b then same w u code out 0x6982
            else code = 0x9000 ∧ out = aesEnc k (xorBytes (rot x) (d.drop 16)) ∧ u = onCl (fun c => { c with
              sec := .secured, skEnc := of128 (aesEnc k (x.take 8 ++ b.take 8)), skMac := of128 (aesEnc k (b.drop 8 ++ x.drop 8)), cc := 0 })
              (setPwdFails 0 w)) s ∧
      TagAnswers (.tagApduRead a) a 0xB0 true false (fun d t code out u =>
        let n := a.le / 16
        if d ≠ [] ∨ a.le % 16 ≠ 0 ∨ n = 0 ∨ 8 < n then same t u code out 0x6700
        else if ¬ (p + n ≤ 4 ∨ 8 ≤ p ∧ p + n ≤ 13 ∨ 96 ≤ p ∧ p + n ≤ 2048) then same t u code out 0x6A86
        else if Torn (maps n) t then lost t u code out
        else if ¬ (∀ j < n, p + j ≤ 3 ∨ t.cl.sec = .secured ∧ (p + j ≤ 12 ∨ bitN (pageEntry (p + j) t) 1 = true) ∨
            12 < p + j ∧ t.cl.sec ≠ .closed ∧ bitN (pageEntry (p + j) t) 0 = true) then same t u code out 0x6982
        else if Torn [(16 * p, 16 * n)] t then lost t u code out
        else code = 0x9000 ∧ out = tagBytes (16 * p) (16 * n) t ∧ u = t) s ∧
      TagAnswers (.tagApduWrite a) a 0xD6 true false (fun d t code out u =>
        let n := d.length / 16
        out = [] ∧ if d.length % 16 ≠ 0 ∨ n = 0 ∨ 4 < n then same t u code out 0x6700
        else if p < 96 ∨ 2048 < p + n then same t u code out 0x6A86
        else if t.cl.sec ≠ .secured then same t u code out 0x6982
        else if Torn (maps n) t then lost t u code out
        else if ¬ (∀ j < n, bitN (pageEntry (p + j) t) 2 = true) then same t u code out 0x6982
        else if Torn [(1352, 8)] t then lost t u code out
        else code = 0x9000 ∧ u = tagGroup p d t) s ∧
      TagAnswers (.ctrRead a) a 0xA0 false false (fun d t code out u =>
        if d ≠ [] then same t u code out 0x6700 else if 63 < p then same t u code out 0x6A86
        else if ¬ (t.cl.sec = .secured ∨ t.cl.sec = .open_ ∧ bitN (ctrEntry p t) 0 = true) then same t u code out 0x6982
        else u = (ctrValue p t).2 ∧ match (ctrValue p t).1 with
          | none => code = 0x6981 ∧ out = []
          | some v => code = 0x9000 ∧ out = natLE 4 v) s ∧
      TagAnswers (.ctrInc a) a 0xA2 false false (fun d t code out u =>
        if d.length ≠ 1 ∨ leNat d = 0 then same t u code out 0x6700 else if 63 < p then same t u code out 0x6A86
        else if ¬ (t.cl.sec = .secured ∧ bitN (ctrEntry p t) 1 = true) then same t u code out 0x6982
        else match ctrValue p t with
          | (none, w) => same w u code out 0x6981
          | (some v, w) =>
            if 0xFFFFFFFF < v + leNat d then same w u code out 0x6A84
            else code = 0x9000 ∧ out = natLE 4 (v + leNat d) ∧ u = ctrPut p true (v + leNat d) (ctrPut p false (v + leNat d) w)) s)) ∧
  (∀ s : State, (s.clk.now < s.cl.lockTo → exec .mirrorUpdate s = .next s) ∧ (s.plat.pwrOk = false ∨ s.plat.stage = .reset ∨ s.cpuV.stopped = true → exec .mirrorUpdate s = .next s) ∧
    (s.cl.mirror = true → s.plat.pwrOk = true → isReady s = true → s.cpuV.stopped = false → s.cpuV.halted = false →
    s.cl.lockTo ≤ s.clk.now → exec .mirrorUpdate s = .next (tagGroup 1 (natLE 1 (lifeNo s.nv.life) ++ natLE 1 (tampSummary s) ++
      natLE 6 (ptp16 s / 65536 / 1000000000) ++ List.replicate 8 0) (onCl (fun c => { c with mirror := false }) s)))) ∧
  ∀ (p : Nat) (d : Bytes) (s : State), s.cl.fuel = none → d.length = 16 → p < 80 ∨ 85 ≤ p ∧ p < 2048 →
    jhdrSeq (tagGroup p d s) = jdoneSeq (tagGroup p d s) ∧ tagBytes (16 * p) 16 (tagGroup p d s) = d ∧
    ∀ j, j < 16 * p ∨ 16 * p + 16 ≤ j → j < 1280 ∨ 1360 ≤ j → tagByte j (tagGroup p d s) = tagByte j s

/-- A badge read: 5 ms of sensing once no field transaction runs, then REQA, again every 20 ms; one card that accepts the application gives its certificate and is
challenged; the reply names the result of R315 and turns the reader off; no card by the timeout, or a silent one 500 ms later,
ends it (R289, R314, R315). -/
def Obligations.BadgeReader : Prop :=
  ∀ (dt : Nat) (s : State) (b : BadgeRun), let a := advance dt s
    Calm (onCmd (fun c => { c with owed := [] }) a) → a.cmd.owed = [{ call := b.call, opcode := 0x0906, wait := .badge }] →
    a.cl.badge = some b → b.call.via ≠ .contactless →
    let owedNone (d : State) := onCmd (fun c => { c with owed := [] }) d
    let off (d : State) := owedNone (onCl (fun c => { c with badge := none, role := b.saved }) d)
    let sends (st : Nat) (tlvs : List Tlv) (d : State) := handBack 0x0906 b.call (mkReply b.call 0x0906 st tlvs (replyVersion b.call d)) d
    let ends (result : Nat) (d : State) := sends stOk [rtlv 1 (List.replicate 16 0), r8 2 result] (off d)
    let goes (n : BadgeRun) (bytes : Bytes) (d : State) := emit (.reader bytes) (onCl (fun c => { c with badge := some n }) d)
    let fin := b.startedAt + 250000 * b.timeout
    let busy : Prop := a.cl.field = true ∧ (a.cl.rndB ≠ none ∨ a.cl.execAt ≠ none ∨ a.clk.now < a.cl.frameTo)
    (b.step = .waiting → (busy → ∀ x, exec (.badgePoll dt x) s = .next a) ∧
      (¬ busy → ∀ x, exec (.badgePoll dt x) s = .next (onCl (fun c => { c with
        role := 2, badge := some { b with step := .sensing, pollAt := a.clk.now } }) (quieted .idle a)))) ∧
    (b.step = .sensing →
      (∀ x, a.clk.now < b.pollAt + 1250000 → exec (.badgePoll dt x) s = .next a) ∧
      (b.pollAt + 1250000 ≤ a.clk.now → exec (.badgePoll dt true) s = .next (ends 6 a) ∧ (a.cl.field = false →
        exec (.badgePoll dt false) s = .next (goes { b with step := .polling, pollAt := a.clk.now } [0x26] a)))) ∧
    (b.step = .polling →
      (∀ x, b.pollAt + 5000000 ≤ a.clk.now → exec (.badgePoll dt x) s = .next (goes { b with pollAt := a.clk.now } [0x26] a)) ∧
      (∀ x, a.clk.now < b.pollAt + 5000000 → exec (.badgePoll dt x) s = .next a) ∧
      exec (.badgeResponse dt (.answered true)) s = .next (ends 2 a) ∧
      exec (.badgeResponse dt (.answered false)) s = .next (goes { b with step := .selecting }
        [0x00, 0xA4, 0x04, 0x00, 0x06, 0xF0, 0x45, 0x42, 0x5A, 0x42, 0x01] a)) ∧
    (b.step = .selecting →
      exec (.badgeResponse dt (.aid true)) s = .next (goes { b with step := .reading } [0x80, 0xCA, 0x00, 0x00] a) ∧
      exec (.badgeResponse dt (.aid false)) s = .next (ends 3 a)) ∧
    (b.step = .reading →
      (∀ o ch t, drbgGenerate 32 a = (some ch, t) → t.clk.now = a.clk.now → exec (.badgeResponse dt (.certificate o)) s =
        .next (goes { b with step := .challenged, cert := o, challenge := ch } ([0x80, 0x88, 0x00, 0x00, 0x20] ++ ch) t)) ∧
      (∀ o t, drbgGenerate 32 a = (none, t) → exec (.badgeResponse dt (.certificate o)) s =
        .next (sends stEntropyFail (refuseTlvs (stEntropyFail, 0, rsRange, 0)) (off t))) ∧
      (∀ r, exec (.badgeResponse dt (.signature r)) s = .next (ends 3 a))) ∧
    (b.step = .challenged → ∀ r, exec (.badgeResponse dt (.signature r)) s = match badgeCert b.cert a with
      | none => .next (ends 4 a)
      | some (id, pub) =>
        if Config.ecdsaVerify 3 pub (b.challenge ++ natLE 8 Config.serial) r then
          .next (sends stOk [rtlv 1 (fit 16 id), r8 2 0] (onCl (fun c => { c with lastBadge := some (id, ptp16 a) }) (off a)))
        else .next (ends 5 a)) ∧
    (b.step = .waiting ∨ b.step = .sensing ∨ b.step = .polling → (fin ≤ a.clk.now → exec (.badgeTimeout dt) s = .next (ends 1 a)) ∧
      (a.clk.now < fin → exec (.badgeTimeout dt) s = .next a)) ∧
    (b.step ≠ .waiting → b.step ≠ .sensing → b.step ≠ .polling → (fin + 125000000 ≤ a.clk.now → exec (.badgeTimeout dt) s = .next (ends 3 a)) ∧
      (a.clk.now < fin + 125000000 → exec (.badgeTimeout dt) s = .next a))

/-- Source n fires when its detector reports: it is not OFF, was inactive and is armed (R323, R327, R328). -/
def Sys2Proof.Claim.Armed (n : Nat) (s : State) : Prop :=
  tampOff n s = false ∧ s.bk.active.getLsbD n = false ∧ s.bk.disarmed.getLsbD n = false

/-- Source n has fired between the two states: counted, sticky in both sumps, active where it lasts, no longer armed, the level
applied at least its own, its event from level 1 on (R324, R327, R328, R515, R516). -/
def Sys2Proof.Claim.Fired (n : Nat) (s d : State) : Prop :=
  d.ev.sumpW.getLsbD n = true ∧ d.nv.bbram.sticky.getLsbD n = true ∧ d.bk.disarmed.getLsbD n = true ∧
  smGet 0 d.bk.counts n = min 65535 (smGet 0 s.bk.counts n + 1) ∧ (n < 18 → d.bk.active.getLsbD n = true) ∧
  (∃ l, d.bk.applied = some l ∧ tampLevel n s ≤ l) ∧ (1 ≤ tampLevel n s → d.ev.intcPendV.getLsbD n = true)

/-- Tamper: detectors that report fire their armed sources at once and the highest of their levels is answered, from SEALED at 2 over the
drop of every pump key at 3 to the zeroised vault at 4, in reset too; a source that is OFF, active or not yet re-armed becomes active
without firing; without main power its condition waits;
an inactive source is armed again after 10 ms; on backup power a sample every 15.625 ms records firings in BBRAM and only level 4
acts at once (R317 to R332). -/
def Obligations.TamperLogic : Prop :=
  (∀ (dt : Nat) (srcs : BitVec 32) (s : State), let a := advance dt s
    Calm a → Unserved (turnMram * 2 ^ 32) a → Unserved (turnMram * 2 ^ 32 + 2) a → ∃ d, exec (.tamperFire dt srcs) s = .next d ∧ d.bk.cond = a.bk.cond ||| srcs ∧
      (∀ n, n < 24 → srcs.getLsbD n = true → Armed n a → Fired n a d ∧
        (2 ≤ tampLevel n a → d.tap.scope = 0 ∧ (a.nv.life = .owned ∨ a.nv.life = .operational → d.nv.life = .sealed)) ∧
        (3 ≤ tampLevel n a → d.pu.rows = [] ∧ d.pu.keyChan = [] ∧ ∀ i, (kslot i d).state = 0) ∧
        (4 ≤ tampLevel n a → d.nv.bbram.kek = none ∧ d.nv.slots = [] ∧ d.nv.zeroised = true ∧ d.eng.vcCache = [] ∧ d.eng.meWork = [])) ∧
      ((∀ n, n < 24 → srcs.getLsbD n = true → ¬ Armed n a) → d = onBk (fun b => { b with
        cond := b.cond ||| srcs, caseLvl := d.bk.caseLvl, active := b.active ||| (srcs &&& 0x3FFFF), disarmed := b.disarmed ||| (srcs &&& 0x3FFFF) }) a) ∧
      (∀ n, n < 18 → srcs.getLsbD n = true → d.bk.active.getLsbD n = true ∧ d.bk.disarmed.getLsbD n = true) ∧
      ((∀ n, n < 24 → srcs.getLsbD n = true → Armed n a → tampLevel n a ≤ 1) →
        d.tap = a.tap ∧ d.nv.life = a.nv.life ∧ d.nv.slots = a.nv.slots ∧ d.nv.bbram.kek = a.nv.bbram.kek ∧ d.pu = a.pu ∧ d.se = a.se ∧ d.me = a.me) ∧
      d.fp.ing = a.fp.ing ∧ d.fw = a.fw ∧ d.cpuC.regs = a.cpuC.regs) ∧
  (∀ (dt : Nat) (srcs : BitVec 32) (s : State), let a := advance dt s
    running a = false → ∃ d, exec (.tamperFire dt srcs) s = .next d ∧ d.bk.cond = a.bk.cond ||| srcs ∧
      (∀ n, n < 4 → srcs.getLsbD n = true → d.bk.caseLvl.getLsbD n = !tampRest n a) ∧
      (a.plat.pwrOk = false → d = onBk (fun b => { b with cond := b.cond ||| srcs, caseLvl := d.bk.caseLvl }) a) ∧
      (a.plat.pwrOk = true → Unserved (turnMram * 2 ^ 32) a → Unserved (turnMram * 2 ^ 32 + 2) a →
        ∀ n, n < 24 → srcs.getLsbD n = true → Armed n a → Fired n a d)) ∧
  (∀ (dt : Nat) (src : Fin 24) (s : State), let a := advance dt s
    let n := src.val
    (4 ≤ n → a.bk.active.getLsbD n = true → exec (.tamperSourceInactive dt src) s = .next (onBk (fun b => { b with
      active := b.active &&& ~~~ BitVec.twoPow 32 n, cond := b.cond &&& ~~~ BitVec.twoPow 32 n, offAt := smSet 0 b.offAt n a.clk.now }) a)) ∧
    (4 ≤ n → a.bk.active.getLsbD n = false → exec (.tamperSourceInactive dt src) s =
      .next (onBk (fun b => { b with cond := b.cond &&& ~~~ BitVec.twoPow 32 n }) a)) ∧
    (n < 4 → ∃ d, exec (.tamperSourceInactive dt src) s = .next d ∧ d.bk.caseLvl.getLsbD n = tampRest n a ∧
      d.bk.active.getLsbD n = false ∧ d.bk.cond.getLsbD n = false ∧ d.nv = a.nv ∧ d.ev = a.ev) ∧
    (a.bk.active.getLsbD n = false → smGet 0 a.bk.offAt n + 2500000 ≤ a.clk.now → exec (.tamperRearm dt src) s =
      .next (onBk (fun b => { b with disarmed := b.disarmed &&& ~~~ BitVec.twoPow 32 n, offAt := smSet 0 b.offAt n 0 }) a)) ∧
    (a.bk.active.getLsbD n = true ∨ a.clk.now < smGet 0 a.bk.offAt n + 2500000 → exec (.tamperRearm dt src) s = .next a)) ∧
  ∀ (dt : Nat) (conds : BitVec 32) (s : State), let a := advance dt s
    (a.plat.pwrOk = true ∨ a.plat.vbat = false ∨ a.clk.now < a.bk.sampleAt + 3906250 → exec (.backupSample dt conds) s = .next a) ∧
    (a.plat.pwrOk = false → a.plat.vbat = true → a.bk.sampleAt + 3906250 ≤ a.clk.now →
      ∃ d, exec (.backupSample dt conds) s = .next d ∧ d.bk.sampleAt = a.clk.now ∧ d.bk.lfsr = a.bk.lfsr.map lfsrStep ∧ d.bk.shield = a.bk.shield.map lfsrStep ∧ d.ev = a.ev ∧
        d.nv.log = a.nv.log ∧ d.nv.slots = a.nv.slots ∧ d.bk.applied = a.bk.applied ∧
        (∀ n, n ∈ [4, 5, 6, 7] → d.bk.loopMiss.getLsbD (n - 4) = conds.getLsbD n) ∧
        ∀ n, n < 24 → (n ≤ 7 ∨ n = 11 ∨ n = 12 ∨ 14 ≤ n ∧ n ≤ 17) → (conds.getLsbD n = true ∨ n = 12 ∧ a.plat.xtal32 = false) → Armed n a →
          (4 ≤ n → n ≤ 7 → a.bk.loopMiss.getLsbD (n - 4) = true) →
          d.nv.bbram.sticky.getLsbD n = true ∧ d.bk.active.getLsbD n = true ∧ d.bk.raiseLater.getLsbD n = true ∧
          smGet 0 d.bk.counts n = min 65535 (smGet 0 a.bk.counts n + 1) ∧
          (smGet 0 a.nv.bbram.times n = 0 → smGet 0 d.nv.bbram.times n = a.clk.rtc) ∧
          (1 ≤ tampLevel n a → tampLevel n a ≤ d.nv.bbram.pending) ∧ (tampLevel n a = 4 → d.nv.bbram.kek = none))

/-- The TAP: an instruction loads when its scope is open, and ports whose pins it takes lose their links; IDCODE shifts out the
identification, SAMPLE/PRELOAD captures the pins; without its scope an instruction acts as BYPASS and DBG_DENIED fires; TRST_N and
the end of the scope take instructions, halts and scope back (R339 to R342, R499 to R503). -/
def Obligations.TestAccess : Prop :=
  (∀ (s : State) (i : Instr) (x : TapIns), let b := s.tap.scope.getLsbD 0
    let t := relinkAll (onTap (fun t => { t with ins := x }) s)
    let z := relinkAll (onTap (fun t => { t with ins := .bypass }) s)
    (exec .bypass s = .next (relinkAll (onTap (fun t => { t with ins := .bypass }) s))) ∧
    (exec .idcode s = .next (emit (.tapData 0x14016B73 false) (relinkAll (onTap (fun t => { t with ins := .idcode }) s)))) ∧
    (let u := relinkAll (onTap (fun t => { t with ins := .sample }) s)
      ∃ v, exec .samplePreload s = .next (onTap (fun t => { t with bsr := v }) { u with free := u.free + 1 })) ∧
    ((i, x) ∈ [(.extest, TapIns.extest), (.intest, .intest), (.clamp, .clamp), (.highz, .highz), (.extestPulse, .extestPulse),
        (.extestTrain, .extestTrain)] → b = true → exec i s = .next t) ∧
    (s.tap.scope.getLsbD 1 = true ∨ s.tap.scope.getLsbD 2 = true → exec .tapDebug s = .next (relinkAll (onTap (fun t => { t with ins := .debug }) s))) ∧
    (i ∈ [.extest, .intest, .clamp, .highz, .extestPulse, .extestTrain] ∧ b = false ∨
        i = .tapDebug ∧ s.tap.scope.getLsbD 1 = false ∧ s.tap.scope.getLsbD 2 = false →
      (s.plat.pwrOk = false → exec i s = .next z) ∧
      (s.plat.pwrOk = true → ∃ d, exec i s = .next d ∧ d.tap.ins = .bypass ∧ (Armed 23 s → d.ev.sumpW.getLsbD 23 = true ∧ d.nv.bbram.sticky.getLsbD 23 = true) ∧
        (¬ Armed 23 s → d = z)))) ∧
  (∀ s : State, let d := relinkAll s
    d.plat.pcieL0 = (s.plat.pcieRef && !s.plat.pcieReset && !pinsTaken s) ∧ d.tap = s.tap ∧ d.pu = s.pu ∧ d.bk = s.bk ∧ (s.fp.egr = [] → d.se = s.se) ∧
    (∀ p : Fin 4, (portOf p d).link = ((portOf p s).mode != 0 && (portOf p s).linkIn && s.plat.refLine && !pinsTaken s)) ∧
    ∀ p : Fin 4, (portOf p d).link ≠ (portOf p s).link → d.ev.pend.getLsbD (32 + p) = true) ∧
  ∀ (dt : Nat) (s : State), let a := advance dt s
    let free_ (d : State) := onCpu .control (fun c => { c with halted := false }) (onCpu .vault (fun c => { c with halted := false }) d)
    let noScope : Prop := a.tap.ins = .bypass ∨ a.tap.ins = .idcode ∨ a.tap.ins = .sample
    (a.tap.scope ≠ 0 → a.tap.until_ ≤ a.clk.now →
      (noScope → exec (.debugScopeExpiry dt) s = .next (onTap (fun t => { t with scope := 0 }) (free_ a))) ∧
      (¬ noScope → exec (.debugScopeExpiry dt) s = .next (relinkAll (onTap (fun t => { t with scope := 0, ins := .bypass }) (free_ a))))) ∧
    (a.tap.scope = 0 ∨ a.clk.now < a.tap.until_ → exec (.debugScopeExpiry dt) s = .next a) ∧
    ∃ d, exec .trstN s = .next d ∧ d.tap = { s.tap with ins := .idcode, scope := 0, errorBit := false, data := 0 } ∧
      d.cpuC = { s.cpuC with halted := false } ∧ d.cpuV = { s.cpuV with halted := false } ∧ d.nv.slots = s.nv.slots ∧ d.pu = s.pu

/-- The device in cold or warm reset over state a: the cores, the frame path, the entries, pumps, time, groups, sessions, engines, noise
well, riser, valve tables and RAMs as at reset; the non-volatile memories, the tamper logic, the clocks and the pins kept; over a warm
reset also SUMP and the post-mortem area (R345, R486). -/
def Sys2Proof.Claim.InReset (kind : ResetKind) (a d : State) : Prop :=
  let z := State.reset
  d.plat.stage = .reset ∧ d.plat.resetKind = kind ∧ d.plat.resetAt = a.clk.now ∧ d.plat.dpReleased = false ∧
  d.cpuC = z.cpuC ∧ d.cpuV = z.cpuV ∧ d.vtP = z.vtP ∧ d.vtW = z.vtW ∧ d.fp = z.fp ∧ d.se = z.se ∧ d.pu = z.pu ∧ d.tu = z.tu ∧
  d.co = z.co ∧ d.cmd = z.cmd ∧ d.eng = z.eng ∧ d.nw = z.nw ∧ d.fw = z.fw ∧ d.ri = z.ri ∧ d.cdc = z.cdc ∧ d.nv = a.nv ∧
  d.bk = { a.bk with resetLevel := none } ∧ d.clk = a.clk ∧
  d.tap.scope = 0 ∧ d.ev.pend = 0 ∧ d.ev.sumpP = (if kind = .warm then a.ev.sumpP else 0) ∧
  d.ev.sumpW = (if kind = .warm then a.ev.sumpW else 0) ∧ d.me.vaultRam = [] ∧
  (∀ x, smFind d.me.ctrlRam x = if kind = .warm ∧ 0x1F0000 ≤ x then smFind a.me.ctrlRam x else none) ∧
  d.cl.field = a.cl.field ∧ d.cl.iso = a.cl.iso ∧ d.cl.role = storedMode a ∧ d.pending = a.pending ∧
  d.out = a.out ++ (if a.cl.execAt.isSome then [.sw 0x6985 []] else [])

/-- Power and resets: RESET_N and the loss of power reset the device cold and WRST_N warm, a start in progress and TESTMODE excepted;
TESTMODE holds it in reset; with power gone the backup domain lives on VBAT, or is lost (log 128), and with power back the sources whose
condition stands are judged; PERST# takes the rings, queues, event registers and the link; reset
release, once power, clocks and TESTMODE allow it, starts the device from the non-volatile state (R332, R333, R344 to R352, R408,
R470 to R476, R485 to R489). -/
def Sys2Proof.Claim.PowerAndResets : Prop :=
  (∀ (dt : Nat) (s : State), let a := advance dt s
    (a.plat.pwrOk = false → exec (.resetN dt) s = .next a ∧ exec (.wrstN dt) s = .next a ∧ exec (.pwrOkFall dt) s = .next a ∧
      ∃ d, exec (.pwrOkRise dt) s = .next d ∧ d.plat = { a.plat with pwrOk := true, pwrOkAt := a.clk.now, pcieL0 := d.plat.pcieL0 } ∧
        d.clk.rtcRuns = a.plat.xtal32 ∧ d.bk.lfsrAt = a.clk.now ∧ d.bk.cond = a.bk.cond ∧
        (Unserved (turnMram * 2 ^ 32) a → Unserved (turnMram * 2 ^ 32 + 2) a →
          ∀ n, n < 24 → a.bk.cond.getLsbD n = true → Armed n a → Fired n a d) ∧
        ((∀ n, n < 24 → a.bk.cond.getLsbD n = true → ¬ Armed n a) → d.nv = a.nv ∧ d.ev = a.ev ∧ d.tap = a.tap ∧ d.pu = a.pu ∧
          d.cmd = a.cmd ∧ d.clk = { a.clk with rtcRuns := a.plat.xtal32 } ∧ d.bk.counts = a.bk.counts ∧ d.bk.applied = a.bk.applied)) ∧
    (a.plat.pwrOk = true → exec (.pwrOkRise dt) s = .next a ∧
      (∃ d, exec (.resetN dt) s = .next d ∧ InReset .cold a d ∧ d.plat.pwrOk = true ∧ d.plat.testMode = a.plat.testMode) ∧
      (starting a = false → a.plat.testMode = false →
        ∃ d, exec (.wrstN dt) s = .next d ∧ InReset .warm a d ∧ d.plat.pwrOk = true) ∧
      (starting a = true ∨ a.plat.testMode = true → exec (.wrstN dt) s = .next a) ∧
      ∃ d e, exec (.pwrOkFall dt) s = .next e ∧ InReset .cold a d ∧
        let n := (a.clk.now - a.bk.lfsrAt) / 250
        let bits (v : Word) : Word := lfsrStep^[n] v
        (a.plat.vbat = true → e = { d with
          plat := { d.plat with pwrOk := false }
          bk := { d.bk with
            active := d.bk.active &&& 0xFF03D8FF, offAt := e.bk.offAt, sampleAt := a.clk.now, loopMiss := 0
            lfsrAt := d.bk.lfsrAt + 250 * n, lfsr := d.bk.lfsr.map bits, shield := d.bk.shield.map bits } } ∧
          ∀ m, smGet 0 e.bk.offAt m = if m ∈ [8, 9, 10, 13, 18, 19, 20, 21, 22, 23] ∧ d.bk.active.getLsbD m = true then a.clk.now else smGet 0 d.bk.offAt m) ∧
        (a.plat.vbat = false → ∃ v, e = { d with
          plat := { d.plat with pwrOk := false }, free := d.free + 1
          clk := { d.clk with rtc := v, rtcRem := 0, rtcRuns := false }
          nv := { d.nv with bbram := { kek := none, lost := true } }
          bk := { ({} : Bk) with caseLvl := d.bk.caseLvl, cond := d.bk.cond, sampleAt := a.clk.now, lfsrAt := d.bk.lfsrAt + 250 * n } }))) ∧
  (∀ (level : Bool) (s : State), (level = false ∨ s.plat.pwrOk = false → exec (.testmode level) s = .next (onPlat (fun p => { p with testMode := level }) s)) ∧
    (level = true → s.plat.pwrOk = true → ∃ d, exec (.testmode level) s = .next d ∧ InReset .cold s d ∧ d.plat.testMode = true)) ∧
  (∀ (dt : Nat) (s : State), let a := advance dt s
    ∃ d, exec (.perst dt) s = .next d ∧ d.plat = { a.plat with pcieReset := true, pcieL0 := false } ∧ d.cmd.rings = [] ∧
      d.ev.pend = 0 ∧ d.ev.mask = BitVec.allOnes 256 ∧ d.ev.lvl = [] ∧ d.ev.alertLvl = 3 ∧ d.ev.sumpP = a.ev.sumpP ∧ d.ev.intcPendC = a.ev.intcPendC ∧
      (∀ q : Fin 64, (rxqOf q d).size = 0 ∧ (rxqOf q d).recs = [] ∧ (txqOf q d).size = 0 ∧
        (txqOf q d).descs = []) ∧ d.se = a.se ∧ d.nv = a.nv ∧ d.cpuC = a.cpuC ∧ d.cpuV = a.cpuV ∧ d.pu = a.pu ∧ d.fp.ing = a.fp.ing) ∧
  (∀ s : State, exec .perstRelease s = .next (relinkAll (onPlat (fun p => { p with pcieReset := false }) s))) ∧
  ∀ (dt : Nat) (env : BootEnv) (s : State), let a := advance dt s
    let may : Prop := a.plat.stage = .reset ∧ a.plat.pwrOk = true ∧ a.plat.testMode = false ∧ a.plat.refLine = true ∧ a.plat.pcieRef = true ∧
      a.plat.xtal25 = true ∧ a.plat.pwrOkAt + 500000 ≤ a.clk.now ∧ a.plat.resetAt + 2500 ≤ a.clk.now
    (¬ may → exec (.resetRelease dt env) s = .next a) ∧
    (may → ∃ d, exec (.resetRelease dt env) s = .next d ∧ (d.plat.stage = .ready ∨ d.plat.stage = .recovery) ∧ d.plat.dpReleased = true ∧
      d.plat.readyAt = d.clk.now ∧ a.clk.now ≤ d.clk.now ∧ d.clk.now ≤ a.clk.now + 1 ∧ d.cl.role = storedMode d ∧ d.nv.bbram.pending = 255 ∧ d.bk.raiseLater = 0 ∧
      d.factoryPageOk = env.factoryPageOk ∧ (env.bank0Ok = true → d.nw.bank0.st = .inService) ∧ (env.bank0Ok = false → d.nw.bank0.st = .failed) ∧
      (a.nv.bbram.kek = none → d.nv.slots = [] ∧ (a.nv.life = .owned ∨ a.nv.life = .operational → d.nv.life = .sealed ∧ d.nv.zeroised = true)) ∧
      (env.factoryPageOk = false → d.ev.sumpW.getLsbD 150 = true) ∧ d.pending = a.pending ∧
      ((valves .vault d).map (·.1) = [0, 1, 2, 3, 255] ∧ ∀ e ∈ valves .vault d, e.1 < 4 → e.2.lock = true))

/-- Clocks and temperature: the loss of REFCLK_LINE fires CLK_PH and takes every port's link, its return brings them back; the PCIe
reference carries the host link; the 25 MHz crystal fires CLK_WH; the RTC stops and goes on with its crystal; a sensor at its threshold
raises the event once until it reads below (R43, R318, R330, R484, R497). -/
def Sys2Proof.Claim.ClocksAndTemperature : Prop :=
  (∀ (dt : Nat) (s : State), let a := advance dt s
    let b := pass dt s
    let inactive (n : Nat) (d : State) := onBk (fun b => { b with
      active := b.active &&& ~~~ BitVec.twoPow 32 n, cond := b.cond &&& ~~~ BitVec.twoPow 32 n
      offAt := if b.active.getLsbD n then smSet 0 b.offAt n a.clk.now else b.offAt }) d
    (running b = false → exec (.refclkLineLost dt) s = .next (onPlat (fun p => { p with refLine := false }) b)) ∧
    (running b = true → ∃ d, exec (.refclkLineLost dt) s = .next d ∧ d.plat.refLine = false ∧ d.plat.lostAt = b.clk.now ∧
      (∀ p : Fin 4, (portOf p d).link = false) ∧ (Armed 13 b → Fired 13 b d) ∧ d.bk.cond.getLsbD 13 = true) ∧
    exec (.refclkLineReturn dt) s = .next (relinkAll (inactive 13 (onPlat (fun p => { p with refLine := true }) a))) ∧
    exec (.pcieRefclkLost dt) s = .next (relinkAll (onPlat (fun p => { p with pcieRef := false }) a)) ∧
    exec (.pcieRefclkReturn dt) s = .next (relinkAll (onPlat (fun p => { p with pcieRef := true }) a)) ∧
    (a.plat.pwrOk = false → exec (.xtal25Lost dt) s = .next (onPlat (fun p => { p with xtal25 := false }) a)) ∧
    (a.plat.pwrOk = true → ∃ d, exec (.xtal25Lost dt) s = .next d ∧ d.plat = { a.plat with xtal25 := false, pcieL0 := d.plat.pcieL0 } ∧
      (Armed 12 a → Fired 12 a d) ∧ d.bk.cond.getLsbD 12 = true ∧ d.clk.rtcRuns = a.clk.rtcRuns) ∧
    exec (.xtal25Return dt) s = .next (inactive 12 (onPlat (fun p => { p with xtal25 := true }) a)) ∧
    exec (.xtal32Stopped dt) s = .next (onClk (fun c => { c with rtcRuns := false }) (onPlat (fun p => { p with xtal32 := false }) a)) ∧
    exec (.xtal32Restart dt) s = .next (onClk (fun c => { c with rtcRuns := a.plat.pwrOk || a.plat.vbat }) (onPlat (fun p => { p with xtal32 := true }) a))) ∧
  ∀ (n : Fin 4) (t : Int) (s : State), let hot : Prop := 10 * calEff 0x0800 s ≤ t + calEff (0x0600 + n) s
    (running s = false → exec (.overtemp n t) s = .next s) ∧
    (running s = true → (¬ hot → exec (.overtemp n t) s = .next (onPlat (fun p => { p with overtemp := p.overtemp.filter (· ≠ n.val) }) s)) ∧
      (hot → n.val ∈ s.plat.overtemp → exec (.overtemp n t) s = .next s) ∧
      (hot → n.val ∉ s.plat.overtemp → exec (.overtemp n t) s = .next (raise 46 [] (onPlat (fun p => { p with overtemp := p.overtemp ++ [n.val] }) s))))

/-- Power, resets, clocks and temperature: the parts together. -/
def Obligations.PowerAndClocks : Prop :=
  Claim.PowerAndResets ∧ Claim.ClocksAndTemperature

/-- A ROM routine runs: the vault core runs, in the keeper's mode (R394). -/
def Sys2Proof.Claim.RoutineRuns (s : State) : Prop :=
  running s = true ∧ s.cpuV.stopped = false ∧ s.cpuV.halted = false ∧ s.cpuV.priv = true

/-- A routine returns: the status in g1, a result in g2 where it has one, over state d (R394). -/
def Sys2Proof.Claim.returns (st : Nat) (result : Option Nat) (d : State) : State :=
  onCpu .vault (fun c => { c with regs := match result with
    | some v => (c.regs.set 1 (BitVec.ofNat 32 st)).set 2 (BitVec.ofNat 32 v)
    | none => c.regs.set 1 (BitVec.ofNat 32 st) }) d

/-- The routines that read and program: FL_READ copies a clean range to vault RAM, FL_PROGRAM programs erased units of one sector,
FL_BLANK finds the first programmed unit; each refuses, in this order, what its range or its sector does not allow; tenant code is answered
DENIED (R382 to R387, R389, R394, R395). -/
def Sys2Proof.Claim.FlashReadAndProgram : Prop :=
  ∀ (s : State), let off := (s.cpuV.regs[1]).toNat
    let r2 := (s.cpuV.regs[2]).toNat
    let n := (s.cpuV.regs[3]).toNat
    (running s = true → s.cpuV.stopped = false → s.cpuV.halted = false → s.cpuV.priv = false →
      ∀ i, i ∈ [Instr.flRead [], .flProgram true, .flErase, .flPoll, .flBlank, .flInfo, .flConfig, .flRefresh true true] →
        exec i s = .next (returns stDenied none s)) ∧
    (RoutineRuns s →
      -- FL_READ
      (let bad : Prop := n = 0 ∨ 65536 < n ∨ 16777216 < off + n ∨ inVaultRam r2 n = false;
        let secs := rangeSectors off n;
        (bad → exec (.flRead []) s = .next (returns stBadParam none s)) ∧
        (¬ bad → (∃ x ∈ secs, (sectorOf (redirect x s) s).flag = true) → exec (.flRead []) s = .next (returns stEraseInterrupted none s)) ∧
        (¬ bad → (∀ x ∈ secs, (sectorOf (redirect x s) s).flag = false) → s.me.erase = none → s.nv.flashTorn = [] →
          exec (.flRead []) s = .next (returns stOk none (ramPut .vault r2 (flashRange off n s) s))) ∧
        (¬ bad → (∀ x ∈ secs, (sectorOf (redirect x s) s).flag = false) → s.me.erase = none → s.nv.flashTorn = [] → off % 32 + n ≤ 32 →
          ∀ e : FlashErr, e.unit = off / 32 →
            (e.firstRetry = 0 → exec (.flRead [e]) s = .next (returns stHwFault (some (32 * (off / 32))) (raise 137 [] s))) ∧
            (e.firstRetry ≠ 0 → ∃ d, exec (.flRead [e]) s = .next (returns stOk none (ramPut .vault r2 (flashRange off n s) d)) ∧
              d = onNv (fun v => { v with sectors := d.nv.sectors }) s ∧
              sectorOf (redirect (off / 8192) s) d = { sectorOf (redirect (off / 8192) s) s with
                refreshQ := true, retries := (sectorOf (redirect (off / 8192) s) s).retries + 1 }))) ∧
      -- FL_PROGRAM
      (let sec := off / 8192;
        let bad : Prop := off % 32 ≠ 0 ∨ n = 0 ∨ n % 32 ≠ 0 ∨ 16777216 < off + n ∨ (off + n - 1) / 8192 ≠ sec ∨ flSource r2 n s = none;
        (bad → ∀ v, exec (.flProgram v) s = .next (returns stBadParam none s)) ∧
        (¬ bad → protectedSector sec s = true → ∀ v, exec (.flProgram v) s = .next (returns stDenied none s)) ∧
        (¬ bad → protectedSector sec s = false → (s.me.erase.any (fun e => e.sector = sec)) = true →
          ∀ v, exec (.flProgram v) s = .next (returns stBusy none s)) ∧
        ∀ b, ¬ bad → flSource r2 n s = some b → b.length = n → protectedSector sec s = false → (s.me.erase.any (fun e => e.sector = sec)) = false →
          ((sectorOf sec s).flag = true → ∀ v, exec (.flProgram v) s = .next (returns stEraseInterrupted none s)) ∧
          ((sectorOf sec s).flag = false → (∃ j < n / 32, unitErased (off / 32 + j) s = false) →
            ∀ v, exec (.flProgram v) s = .next (returns stNotErased none s)) ∧
          ((sectorOf sec s).flag = false → (∀ j < n / 32, unitErased (off / 32 + j) s = true) →
            ∃ d, exec (.flProgram true) s = .next (returns stOk none d) ∧ (s.me.erase = none → d.me = s.me) ∧
              (∀ j < n / 32, smFind d.nv.units (off / 32 + j) = some (slice b (32 * j) 32)) ∧
              (∀ u, u < off / 32 ∨ off / 32 + n / 32 ≤ u → smFind d.nv.units u = smFind s.nv.units u) ∧
              d = { s with nv := { s.nv with units := d.nv.units }, me := d.me } ∧
              ∃ e, exec (.flProgram false) s = .next (returns stHwFault none e) ∧ e.nv.flashTorn = s.nv.flashTorn ++ [(off + n) / 32 - 1] ∧
                ∀ u, u < off / 32 ∨ off / 32 + n / 32 - 1 ≤ u → smFind e.nv.units u = smFind s.nv.units u)) ∧
      -- FL_BLANK
      (let bad : Prop := off % 32 ≠ 0 ∨ r2 = 0 ∨ r2 % 32 ≠ 0 ∨ 16777216 < off + r2;
        (bad → exec .flBlank s = .next (returns stBadParam none s)) ∧
        (¬ bad → (∃ x ∈ rangeSectors off r2, (sectorOf x s).flag = true) → exec .flBlank s = .next (returns stEraseInterrupted none s)) ∧
        (¬ bad → (∀ x ∈ rangeSectors off r2, (sectorOf x s).flag = false) →
          ((∀ j < r2 / 32, unitErased (off / 32 + j) s = true) → exec .flBlank s = .next (returns stOk none s)) ∧
          (∀ j < r2 / 32, unitErased (off / 32 + j) s = false → (∀ h < j, unitErased (off / 32 + h) s = true) →
            exec .flBlank s = .next (returns stNotErased (some (off + 32 * j)) s)))))

/-- Erases: FL_ERASE sets the sector's flag, counts it and starts; FL_POLL, FL_INFO and FL_CONFIG answer; a read that meets it requests a
suspend, accepted at once or 500 µs after the last resume, and it resumes after 2 µs without a read or 2 ms after the suspend; its end
clears the flag or marks the sector bad and raises the event; FL_REFRESH reads the next sector's margin (R384, R387 to R398). -/
def Sys2Proof.Claim.FlashErase : Prop :=
  (∀ s : State, RoutineRuns s → let r1 := (s.cpuV.regs[1]).toNat
    (2048 ≤ r1 → exec .flErase s = .next (returns stBadParam none s) ∧ exec .flInfo s = .next (returns stBadParam none s)) ∧
    (r1 < 2048 → protectedSector r1 s = true → exec .flErase s = .next (returns stDenied none s)) ∧
    (r1 < 2048 → protectedSector r1 s = false → s.me.erase.isSome = true → exec .flErase s = .next (returns stBusy none s)) ∧
    (r1 < 2048 → protectedSector r1 s = false → s.me.erase = none → (sectorOf r1 s).bad = true → exec .flErase s = .next (returns stHwFault none s)) ∧
    (r1 < 2048 → protectedSector r1 s = false → s.me.erase = none → (sectorOf r1 s).bad = false →
      ∃ d, exec .flErase s = .next (returns stOk none d) ∧ (d.me.erase.map (·.sector)) = some r1 ∧ (d.me.erase.map (·.suspended)) = some false ∧
        sectorOf r1 d = { sectorOf r1 s with flag := true, erases := (sectorOf r1 s).erases + 1 } ∧
        (∀ x, x ≠ r1 → sectorOf x d = sectorOf x s) ∧ (∀ u, u / 256 = r1 → unitErased u d = true) ∧
        ((sectorOf r1 s).erases + 1 = 100000 → d.ev.sumpW.getLsbD 136 = true) ∧
        ((sectorOf r1 s).erases + 1 ≠ 100000 → d.ev = s.ev) ∧ d.se = s.se ∧ d.nv.tag = s.nv.tag) ∧
    (r1 < 2048 → exec .flInfo s = .next (returns stOk (some (b2n (sectorOf r1 s).flag + 2 * b2n (sectorOf r1 s).bad +
      4 * b2n (sectorOf r1 s).refreshQ + 256 * min 0xFFFFFF (sectorOf r1 s).erases)) s)) ∧
    exec .flPoll s = .next (returns stOk (some ((match s.me.erase with
      | some e => (if e.suspended then 2 else 1) + 16 * e.sector
      | none => 16 * s.me.lastSector) + 65536 * s.me.lastErase)) s) ∧
    (1 < r1 → exec .flConfig s = .next (returns stBadParam none s)) ∧
    (r1 ≤ 1 → s.me.erase.isSome = true → exec .flConfig s = .next (returns stBusy none s)) ∧
    (r1 ≤ 1 → s.me.erase = none → exec .flConfig s = .next (returns stOk none (onMe (fun m => { m with unified := decide (r1 = 1) }) s))) ∧
    (s.nv.refresh = .none → (∀ e ∈ s.nv.sectors, e.2.refreshQ = false ∨ e.2.flag = true) → ∀ done_,
      let m := s.me.margin
      let d := onMe (fun x => { x with margin := (m + 1) % 2048 }) s
      exec (.flRefresh true done_) s = .next (returns stOk none d) ∧
      ((sectorOf m s).flag = false → exec (.flRefresh false done_) s = .next (returns stOk none (onSector m (fun x => { x with refreshQ := true }) d)))) ∧
    (∀ e r, e < 2048 → s.nv.refresh = .copied e r → s.nv.refreshStage = 5 → s.me.erase = none → (sectorOf e s).flag = false → ∀ m x,
      exec (.flRefresh m x) s = .next (returns stOk none (onNv (fun v => { v with refresh := .done e r, refreshStage := 6 }) s)))) ∧
  ∀ (dt addr : Nat) (s : State) (e : Erase), let a := advance dt s
    let put (f : Erase) := onMe (fun m => { m with erase := some f }) a
    a.me.erase = some e →
    (addr < 16777216 → let meets : Prop := a.me.unified = true ∨ e.sector / 1024 = redirect (addr / 8192) a / 1024;
      (meets → e.suspended = false → exec (.eraseSuspendRequest dt addr) s =
        .next (put { e with requestedAt := some (e.requestedAt.getD a.clk.now) })) ∧
      (meets → e.suspended = true → exec (.eraseSuspendRequest dt addr) s = .next (put { e with lastRead := a.clk.now })) ∧
      (¬ meets → exec (.eraseSuspendRequest dt addr) s = .next a)) ∧
    (e.suspended = false → e.requestedAt.isSome = true → (e.everResumed = true → e.resumedAt + 125000 ≤ a.clk.now) →
      exec (.suspendAccept dt) s = .next (put { e with
        suspended := true, haltedAt := a.clk.now, lastRead := a.clk.now, requestedAt := none })) ∧
    (e.suspended = true ∨ e.requestedAt = none ∨ e.everResumed = true ∧ a.clk.now < e.resumedAt + 125000 → exec (.suspendAccept dt) s = .next a) ∧
    (e.suspended = true → e.lastRead + 500 ≤ a.clk.now ∨ e.haltedAt + 500000 ≤ a.clk.now →
      exec (.eraseResume dt) s = .next (put { e with suspended := false, everResumed := true, resumedAt := a.clk.now, requestedAt := none })) ∧
    (e.suspended = false ∨ a.clk.now < e.lastRead + 500 ∧ a.clk.now < e.haltedAt + 500000 → exec (.eraseResume dt) s = .next a) ∧
    (Calm a → a.fw.sessions = [] → e.suspended = false →
      exec (.flashDone dt true) s = .next (raise 135 [] (onSector e.sector (fun x => { x with flag := false })
        (onMe (fun m => { m with erase := none, lastErase := stOk, lastSector := e.sector }) a))) ∧
      exec (.flashDone dt false) s = .next (raise 135 [] (onSector e.sector (fun x => { x with bad := true })
        (onMe (fun m => { m with erase := none, lastErase := stHwFault, lastSector := e.sector }) a)))) ∧
    (Calm a → e.suspended = true → ∀ v, exec (.flashDone dt v) s = .next a)

/-- The flash routines and the erase with its suspends: the parts together. -/
def Obligations.FlashRoutines : Prop :=
  Claim.FlashReadAndProgram ∧ Claim.FlashErase

/-- A swap that begins at a tick: its swap point, its commit point and its end, at the maxima of the spec (R369, R370; log 54). -/
def Sys2Proof.Claim.swapAt (k : CoreId) (sess : Option Nat) (cause : Word) (now : Nat) : Swap :=
  { core := k, sess := sess, cause := cause
    pointAt := now + (match k with | .control => 2000000 | .vault => 750000)
    commitAt := now + (match k with | .control => 5275000 | .vault => 5025000)
    endsAt := now + (match k with | .control => 11775000 | .vault => 15525000) }

/-- The scrubbers and the march tests: a corrected word is counted; an uncorrectable one stays faulty with its event, an MRAM word with its
own; a corrected word of delivery memory may lie in a record held there, which then counts it in its queue and shows CORR; 64 corrected
errors or an uncorrectable one withdraw a way of the cache, but the last one is counted and stays in use; a block's failing cells are mapped
out with the event, and a commanded run goes on to the next block and ends with its result; ROM, the pump keys and MRAM are not march-tested (R65, R115,
R374 to R379, R404). -/
def Sys2Proof.Claim.MemoryTests : Prop :=
  (∀ (m : MemId) (w : Nat) (s : State), running s = true → w < memWords m →
    (∀ e, m = .controlRom ∨ m = .vaultRom ∨ m = .pumpStore ∨ e = .clean → exec (.scrub m w e) s = .next s) ∧
    (m ≠ .controlRom → m ≠ .vaultRom → m ≠ .pumpStore → m ≠ .streamCache → m ≠ .delivery →
      exec (.scrub m w .corrected) s = .next (onMe (fun x => { x with corrected := smMod 0 x.corrected (memNo m) (· + 1) }) s)) ∧
    (m ∈ [.controlRam, .controlBit, .vaultX, .vaultY, .mailbox, .vaultBit, .engineBuffers] → (m, w) ∉ s.me.faulty →
      exec (.scrub m w .uncorrectable) s = .next (raise (if memWell m then 140 else 96) []
        (onMe (fun x => { x with faulty := x.faulty ++ [(m, w)] }) s))) ∧
    (m = .mram → w ∉ s.nv.torn → exec (.scrub m w .uncorrectable) s = .next (raise 138 [] (onNv (fun n => { n with torn := n.torn ++ [w] }) s))) ∧
    (m = .transmit → exec (.scrub m w .uncorrectable) s =
      .next (raise 66 [] (onFp (fun f => { f with wdTransmit := min 32768 (f.wdTransmit + 1) }) s))) ∧
    (m = .delivery → let d := onMe (fun x => { x with corrected := smMod 0 x.corrected (memNo m) (· + 1) }) { s with free := s.free + 1 }
      (rxRecs s = [] → s.fp.ing = [] → exec (.scrub m w .corrected) s = .next d) ∧
      ∀ q x r, s.fp.rxq = [(q, x)] → x.recs = [r] → s.fp.ing = [] → exec (.scrub m w .corrected) s = .next d ∨
        exec (.scrub m w .corrected) s = .next (onFp (fun f => { f with rxq := [(q, { x with
          recs := [{ r with verdict := { r.verdict with corr := decide (r.verdict.ver = 2) } }], corrected := wrap1 x.corrected })] }) d)) ∧
    (m = .delivery → ∃ d, exec (.scrub m w .uncorrectable) s = .next d ∧ d.fp.wdDelivery = min 32768 (s.fp.wdDelivery + 1) ∧
      d.ev.pend.getLsbD 66 = true ∧ d.se = s.se ∧ d.free = s.free + 1) ∧
    (m = .streamCache → let way := w % 256 / 16;
      (smGet 0 s.se.corrWays way + 1 < 64 → exec (.scrub m w .corrected) s = .next (onSe (fun x => { x with
        corrWays := smSet 0 x.corrWays way (smGet 0 x.corrWays way + 1) })
        (onMe (fun x => { x with corrected := smMod 0 x.corrected (memNo m) (· + 1) }) s))) ∧
      (way ∉ s.se.wdWays → s.se.wdWays.length < 15 → ∃ d, exec (.scrub m w .uncorrectable) s = .next d ∧ way ∈ d.se.wdWays ∧ d.fp.ing = s.fp.ing) ∧
      (way ∉ s.se.wdWays → 15 ≤ s.se.wdWays.length → ∃ d, exec (.scrub m w .uncorrectable) s = .next d ∧ d.se.wdWays = s.se.wdWays ∧
        smGet 0 d.se.corrWays way = smGet 0 s.se.corrWays way + 1 ∧ d.ev.pend.getLsbD 67 = true))) ∧
  ∀ (dt : Nat) (m : MemId) (b : Nat) (s : State), let a := advance dt s
    let last := if memWell m then a.me.marchAtW else a.me.marchAtP
    let stamp (d : State) := onMe (fun x => if memWell m then { x with marchAtW := a.clk.now } else { x with marchAtP := a.clk.now }) d
    let tested : Prop := m ≠ .pumpStore ∧ m ≠ .controlRom ∧ m ≠ .vaultRom ∧ m ≠ .mram
    Calm (onCmd (fun c => { c with owed := [] }) a) →
    (a.cmd.owed = [] → (¬ tested ∨ memBlocks m ≤ b ∨ last ≠ 0 ∧ a.clk.now < last + 25000) → ∀ f, exec (.marchBlock dt m b f) s = .next a) ∧
    (tested → b < memBlocks m → (last = 0 ∨ last + 25000 ≤ a.clk.now) → m ≠ .streamCache →
      (a.cmd.owed = [] → exec (.marchBlock dt m b []) s = .next (stamp a)) ∧
      (a.cmd.owed = [] → ∀ f, f < 256 → b * 256 + f < memWords m → ∃ d, exec (.marchBlock dt m b [f]) s = .next d ∧
        (if m = .delivery ∨ m = .transmit then (m, b * 256 + f) ∈ d.me.withdrawn else d.me.withdrawn = a.me.withdrawn) ∧ (if memWell m then d.ev.sumpW.getLsbD 141 = true else d.ev.sumpP.getLsbD 97 = true) ∧
        (m = .delivery → d.fp.wdDelivery = min 32768 (a.fp.wdDelivery + 1)) ∧ (m = .transmit → d.fp.wdTransmit = min 32768 (a.fp.wdTransmit + 1)) ∧
        d.se = a.se ∧ d.nv.tag = a.nv.tag) ∧
      ∀ c n first, a.cmd.owed = [{ call := c, opcode := 0x0B04, wait := .march m b n first }] →
        (b + 1 < memBlocks m → exec (.marchBlock dt m b []) s =
          .next (stamp (onCmd (fun x => { x with owed := [{ call := c, opcode := 0x0B04, wait := .march m (b + 1) n (first.take 8) }] }) a))) ∧
        (b + 1 = memBlocks m → m ≠ .delivery → m ≠ .transmit → exec (.marchBlock dt m b []) s =
          .next (ends 0x0B04 c stOk [rtlv 1 (natLE 4 n ++ ((first.take 8 ++ List.replicate 8 0).take 8).flatMap (fun w => natLE 4 w))]
            (stamp (onCmd (fun x => { x with owed := [] }) a)))))

/-- Firmware: a trial that lasts its time on the running bank is over and raises the floor to its SVN; an armed swap waits for its instant and
then begins, unless another runs; a running swap clears LOCK and VSEL at its swap point, changes the image record and drops the session at
its commit point, and starts the new image at its end; before each instant nothing changes (R235, R366 to R372, R443; log 54). -/
def Sys2Proof.Claim.FirmwareEvents : Prop :=
  (∀ (dt : Nat) (k : CoreId) (s : State), let a := advance dt s
    let r := recOf k a
    let at_ := match k with
      | .control => a.fw.trialAtC
      | .vault => a.fw.trialAtV
    let due : Prop := running a = true ∧ r.trial = true ∧ chosenOf k a = some r.active ∧ (cpu k a).stopped = false ∧
      at_ + 250000000 * a.pol.trial ≤ a.clk.now
    (¬ due → exec (.trialEnd dt k) s = .next a) ∧
    (due → exec (.trialEnd dt k) s = .next (setRec k { r with trial := false, floor := max r.floor (imageSvn k r.active a) }
      (onFw (fun f => { f with trialWas := some (k, a.clk.now, r) }) a)))) ∧
  (∀ (dt : Nat) (s : State) (c : Call) (id t : Nat) (x : FwSess), let a := advance dt s
    Calm (onCmd (fun c => { c with owed := [] }) a) → a.cmd.owed = [{ call := c, opcode := 0x0C04, wait := .armedSwap id t }] →
    (ptp16 a < t → exec (.fwActivateInstant dt) s = .next a) ∧
    (t ≤ ptp16 a → sessOfId id a = some x → exec (.fwActivateInstant dt) s = .next (onPlat (fun p => { p with
      swap := some (swapAt x.core (some id) (cpu x.core a).ecause a.clk.now) })
      (onCmd (fun y => { y with owed := [{ call := c, opcode := 0x0C04, wait := .swap x.core (some id) }] }) a))) ∧
    (t ≤ ptp16 a → sessOfId id a = none → exec (.fwActivateInstant dt) s =
      .next (ends 0x0C04 c stBadParam (refuseTlvs (stBadParam, tlvOffset c.pkt 1 0, rsRange, 1)) (onCmd (fun y => { y with owed := [] }) a)))) ∧
  ∀ (dt : Nat) (s : State) (w : Swap), let a := advance dt s
    a.plat.swap = some w → Calm (onPlat (fun p => { p with swap := none }) a) →
    (w.pointed = false → a.clk.now < w.pointAt → exec (.fwActivateInstant dt) s = .next a) ∧
    (w.pointed = false → w.committed = false → w.pointAt ≤ a.clk.now → a.clk.now < w.commitAt → exec (.fwActivateInstant dt) s =
      .next (onCpu w.core (fun c => { c with lock := false, vsel := false }) (onPlat (fun p => { p with
        stage := match w.core with | .control => .swapC | .vault => .swapV
        swap := some { w with pointed := true } }) a))) ∧
    (w.pointed = true → w.committed = false → a.clk.now < w.commitAt → exec (.fwActivateInstant dt) s = .next a) ∧
    (w.pointed = true → w.committed = false → w.commitAt ≤ a.clk.now → a.clk.now < w.endsAt → w.core = .vault →
      (∀ i, (appletOf i a).running = false) → exec (.fwActivateInstant dt) s =
        .next (onPlat (fun p => { p with swap := some { w with committed := true, apps := [] } })
          (match w.sess with
            | some id => onFw (fun f => { f with sessions := f.sessions.filter (fun x => x.id ≠ id) }) (setRec .vault
                { recOf .vault a with active := 1 - (recOf .vault a).active, trial := true, prev := true } a)
            | none => setRec .vault { recOf .vault a with active := 1 - (recOf .vault a).active, trial := false, prev := true } a))) ∧
    (w.pointed = true → w.committed = true → w.endsAt ≤ a.clk.now → w.apps = [] → exec (.fwActivateInstant dt) s =
      .next (onPlat (fun p => { p with swap := none, stage := .ready }) (startCore w.core (recOf w.core a).active w.cause a)))

/-- Scrubbing, march tests, trials and armed swaps: the parts together. -/
def Obligations.MemoryTestsAndFirmwareEvents : Prop :=
  Claim.MemoryTests ∧ Claim.FirmwareEvents

/-- Command rings and SPI: the ring registers take what is written, CRQ_BASE_HI commits a ring with its pointers at 0 and an
unnegotiated session, CRP_HEAD returns entries, CRQ_TAIL gives entries to the device (a value at or above the ring size modulo the size is
the model's choice, log 118), which takes one when the reply ring has room and reads its fields little-endian; one whose reply room is
below 16,384 is not executed: its answer is the BAD_PARAM header alone, or below 16 bytes the ring entry alone; SPI PUT is taken while SPACE is 1, else answered BUSY while a reply slot is free, else discarded and counted; GET shifts the oldest reply
out and removes it when whole, STATUS gives RDY, SPACE and RSP (R227 to R230, R522). -/
def Obligations.RingsAndSpi : Prop :=
  (∀ (r : Fin 4) (v : Word) (n : Nat) (s : State), Calm s → pcieDown s = false → let g := ringOf r s
    (∃ d, exec (.crqBaseHi r v) s = .next d ∧ ringOf r d = { g with
        reqHi := v, reqBase := g.reqLo.toNat + 2 ^ 32 * v.toNat, rspBase := g.rspLo.toNat + 2 ^ 32 * g.rspHi.toNat
        size := if 4 ≤ g.sizeReg ∧ g.sizeReg ≤ 10 then 2 ^ g.sizeReg else 0
        reqTail := 0, reqHead := 0, rspHead := 0, rspTail := 0, phase := true, sess := {}, fetched := [] } ∧
      (∀ q, q ≠ r.val → ringOf q d = ringOf q s) ∧ d = { s with cmd := d.cmd } ∧ d.cmd.owed = [] ∧ d.cmd.spiSess = s.cmd.spiSess) ∧
    exec (.crpHead r n) s = .next (onRing r (fun g => { g with rspHead := if g.size = 0 then n % 1024 else n % 1024 % g.size }) s) ∧
    (g.size = 0 → ∀ l, exec (.crqTail r n l) s = .next (onRing r (fun g => { g with reqTail := n % 1024 }) s)) ∧
    (g.size ≠ 0 → n % 1024 % g.size = g.reqTail → ∀ l, exec (.crqTail r n l) s = .next (onRing r (fun g => { g with reqTail := g.reqTail }) s)) ∧
    ∀ q : RingReq, smSorted s.cmd.rings = true → 1 < g.size → g.reqTail < g.size → n % 1024 % g.size = (g.reqTail + 1) % g.size →
      (g.rspTail + g.size - g.rspHead) % g.size + 1 < g.size →
      let d := onRing r (fun g => { g with reqTail := (g.reqTail + 1) % g.size, reqHead := (g.reqHead + 1) % g.size }) s
      let len := min (leNat (slice q.entry 8 2)) 16384
      let room := leNat (slice q.entry 12 4)
      let dst := leNat (slice q.entry 16 8)
      (16384 ≤ room → exec (.crqTail r n [q]) s = .next (returnCall .vault (returnCall .control (startWaiting
        (takeBytes (.ring r) g.reqHead dst len q.packet d))))) ∧
      (room < 16384 → controlDown s = false → let p := parsePacket len q.packet
        let c : Call := { via := .ring r, desc := g.reqHead, pkt := p.pkt, rsp := dst }
        let x := mkReply c p.opcode stBadParam [] (replyVersion c s)
        let turned := onCmd (fun y => { y with turn := r.val + 1 }) d
        exec (.crqTail r n [q]) s = .next (if 16 ≤ room then deliver x turned else ringPut r x 0 turned))) ∧
  ∀ (s : State), running s = true → pinsTaken s = false → let w := (outstanding .spi s).length + stuckOf .spi s
    let k := w + s.cmd.spiReplies.length
    (∀ b, Calm s → k < 16 → exec (.spiPut b) s = .next (settle (takeBytes .spi 0 0 16384 b s))) ∧
    (∀ b, 8 ≤ w → k < 16 → ∃ x, exec (.spiPut b) s = .next (onCmd (fun c => { c with spiReplies := c.spiReplies ++ [x] }) (emit (.reply x) s)) ∧
      x.status = stBusy ∧ x.via = .spi ∧ x.tag = (parsePacket 16384 b).pkt.tag) ∧
    (∀ b, 16 ≤ k → exec (.spiPut b) s = .next (raise 101 [] (onCmd (fun c => { c with spiOverrun := (c.spiOverrun + 1) % 2 ^ 32 }) s))) ∧
    (∀ n, s.cmd.spiReplies = [] → exec (.spiGet n) s = .next (emit (.spi ([0, 0].take n)) s)) ∧
    (∀ n x l, s.cmd.spiReplies = x :: l → let b := replyBytes x
      exec (.spiGet n) s = .next (emit (.spi ((natLE 2 b.length ++ b).take n))
        (if 2 + b.length ≤ n then onCmd (fun c => { c with spiReplies := l }) s else s))) ∧
    exec .spiStatus s = .next (emit (.spi [BitVec.ofNat 8 ((if isReady s then 1 else 0) + (if w < 8 ∧ k < 16 then 2 else 0) +
      (if s.cmd.spiReplies = [] then 0 else 4))]) s)

/-- System calls of the applet a core runs: CMD_SUBMIT answers BUSY at four outstanding, BAD_PARAM for a small buffer, else takes the
request of its memory; CMD_WAIT returns a reply that has come or waits for it, EV_WAIT for the next raise; YIELD changes nothing; EXIT
stops the applet; a wait that has run out returns BUSY; and an event that is raised ends its waits (R412, R453). -/
def Obligations.AppletCalls : Prop :=
  (∀ (k : CoreId) (s : State), let i := appletKey k (cpu k s).tid.toNat
    let x := appletOf i s
    let v : Via := .applet k (cpu k s).tid.toNat
    let g (r : Reg) := ((cpu k s).get r).toNat
    let ret (n : Nat) (d : State) := onCpu k (fun c => c.set 1 (BitVec.ofNat 32 n)) d
    let dead := if g 2 = 0 then none else some (s.clk.now + 250 * g 2)
    let plen := leNat (ramGet k (g 1 + 10) 2 s)
    let b := ramGet k (g 1) (16 + min plen 16384) s
    coreRuns k s = true → x.running = true → x.wait = .none →
    (4 ≤ (outstanding v s).length + stuckOf v s → exec (.cmdSubmit k) s = .next (ret stBusy s)) ∧
    (Calm s → g 3 < 16384 → exec (.cmdSubmit k) s = .next (ret stBadParam s)) ∧
    (Calm s → 16384 ≤ g 3 → exec (.cmdSubmit k) s = .next (settle (takeBytes v 0 0 16384 b
      (ret stOk (onApplet i (fun a => { a with bufs := ((parsePacket 16384 b).pkt.tag, g 2) :: a.bufs }) s))))) ∧
    ((∀ r ∈ x.replies, r.tag ≠ g 1) → exec (.cmdWait k) s = .next (onApplet i (fun a => { a with wait := .reply (g 1) dead }) s)) ∧
    (∀ r l, x.replies = r :: l → r.tag = g 1 → exec (.cmdWait k) s =
      .next (onCpu k (fun c => (c.set 1 0).set 2 (BitVec.ofNat 32 (replyBytes r).length)) (onApplet i (fun a => { a with replies := l }) s))) ∧
    exec (.evWait k) s = .next (onApplet i (fun a => { a with wait := .event (g 1) dead }) s) ∧
    exec (.yield_ k) s = .next s ∧
    exec (.exit k) s = .next (onApplet i (fun a => { a with running := false, wait := .none, replies := [] }) s)) ∧
  (∀ (dt : Nat) (k : CoreId) (s : State), let a := advance dt s
    Calm (onCmd (fun c => { c with applets := [] }) a) → (∀ e ∈ a.cmd.applets, ∀ st n, e.2.wait ≠ .done st n) →
    ∃ d, exec (.systemCallTimeout dt k) s = .next d ∧ d.fp = a.fp ∧ d.nv = a.nv ∧ ∀ t, t < 16 → let i := appletKey k t
      let due : Prop := match (appletOf i a).wait with
        | .reply _ (some u) => u ≤ a.clk.now
        | .event _ (some u) => u ≤ a.clk.now
        | _ => False
      (¬ due → appletOf i d = appletOf i a) ∧
      (due → t ≠ (cpu k a).tid.toNat → appletOf i d = { appletOf i a with wait := .done 1 0 }) ∧
      (due → t = (cpu k a).tid.toNat → appletOf i d = { appletOf i a with wait := .none } ∧ (cpu k d).get 1 = 1 ∧ (cpu k d).get 2 = 0)) ∧
  ∀ (n src : Nat) (u : Option Nat) (i : Nat) (x : Applet) (s : State), (i, x) ∈ s.cmd.applets → x.wait = .event src u →
    (i, if n = src then { x with wait := .done 0 0 } else x) ∈ (evRaise n s).cmd.applets
end

