-- ==== Sys2Proof/Laws/State.lean ====
section
/-! SUPPORT. What each update of the state leaves in each of its parts: true by unfolding one record update, so that no proof
unfolds one again. -/
set_option Elab.async false
namespace Sys2Proof.Machine

variable (s : State)

section
variable (f : Clk → Clk)
@[simp] theorem onClk_clk : (onClk f s).clk = f s.clk := rfl
@[simp] theorem onClk_plat : (onClk f s).plat = s.plat := rfl
@[simp] theorem onClk_ev : (onClk f s).ev = s.ev := rfl
@[simp] theorem onClk_fp : (onClk f s).fp = s.fp := rfl
@[simp] theorem onClk_se : (onClk f s).se = s.se := rfl
@[simp] theorem onClk_pu : (onClk f s).pu = s.pu := rfl
@[simp] theorem onClk_tu : (onClk f s).tu = s.tu := rfl
@[simp] theorem onClk_co : (onClk f s).co = s.co := rfl
@[simp] theorem onClk_cmd : (onClk f s).cmd = s.cmd := rfl
@[simp] theorem onClk_eng : (onClk f s).eng = s.eng := rfl
@[simp] theorem onClk_nw : (onClk f s).nw = s.nw := rfl
@[simp] theorem onClk_cl : (onClk f s).cl = s.cl := rfl
@[simp] theorem onClk_nv : (onClk f s).nv = s.nv := rfl
@[simp] theorem onClk_bk : (onClk f s).bk = s.bk := rfl
@[simp] theorem onClk_fw : (onClk f s).fw = s.fw := rfl
@[simp] theorem onClk_me : (onClk f s).me = s.me := rfl
@[simp] theorem onClk_cpuC : (onClk f s).cpuC = s.cpuC := rfl
@[simp] theorem onClk_cpuV : (onClk f s).cpuV = s.cpuV := rfl
@[simp] theorem onClk_vtP : (onClk f s).vtP = s.vtP := rfl
@[simp] theorem onClk_vtW : (onClk f s).vtW = s.vtW := rfl
@[simp] theorem onClk_ri : (onClk f s).ri = s.ri := rfl
@[simp] theorem onClk_cdc : (onClk f s).cdc = s.cdc := rfl
@[simp] theorem onClk_tap : (onClk f s).tap = s.tap := rfl
@[simp] theorem onClk_pol : (onClk f s).pol = s.pol := rfl
@[simp] theorem onClk_factoryPageOk : (onClk f s).factoryPageOk = s.factoryPageOk := rfl
@[simp] theorem onClk_free : (onClk f s).free = s.free := rfl
@[simp] theorem onClk_out : (onClk f s).out = s.out := rfl
@[simp] theorem onClk_pending : (onClk f s).pending = s.pending := rfl
@[simp] theorem onClk_cpu (k : CoreId) : cpu k (onClk f s) = cpu k s := by cases k <;> rfl
@[simp] theorem onClk_valves (k : CoreId) : valves k (onClk f s) = valves k s := by cases k <;> rfl
end

section
variable (f : Plat → Plat)
@[simp] theorem onPlat_clk : (onPlat f s).clk = s.clk := rfl
@[simp] theorem onPlat_plat : (onPlat f s).plat = f s.plat := rfl
@[simp] theorem onPlat_ev : (onPlat f s).ev = s.ev := rfl
@[simp] theorem onPlat_fp : (onPlat f s).fp = s.fp := rfl
@[simp] theorem onPlat_se : (onPlat f s).se = s.se := rfl
@[simp] theorem onPlat_pu : (onPlat f s).pu = s.pu := rfl
@[simp] theorem onPlat_tu : (onPlat f s).tu = s.tu := rfl
@[simp] theorem onPlat_co : (onPlat f s).co = s.co := rfl
@[simp] theorem onPlat_cmd : (onPlat f s).cmd = s.cmd := rfl
@[simp] theorem onPlat_eng : (onPlat f s).eng = s.eng := rfl
@[simp] theorem onPlat_nw : (onPlat f s).nw = s.nw := rfl
@[simp] theorem onPlat_cl : (onPlat f s).cl = s.cl := rfl
@[simp] theorem onPlat_nv : (onPlat f s).nv = s.nv := rfl
@[simp] theorem onPlat_bk : (onPlat f s).bk = s.bk := rfl
@[simp] theorem onPlat_fw : (onPlat f s).fw = s.fw := rfl
@[simp] theorem onPlat_me : (onPlat f s).me = s.me := rfl
@[simp] theorem onPlat_cpuC : (onPlat f s).cpuC = s.cpuC := rfl
@[simp] theorem onPlat_cpuV : (onPlat f s).cpuV = s.cpuV := rfl
@[simp] theorem onPlat_vtP : (onPlat f s).vtP = s.vtP := rfl
@[simp] theorem onPlat_vtW : (onPlat f s).vtW = s.vtW := rfl
@[simp] theorem onPlat_ri : (onPlat f s).ri = s.ri := rfl
@[simp] theorem onPlat_cdc : (onPlat f s).cdc = s.cdc := rfl
@[simp] theorem onPlat_tap : (onPlat f s).tap = s.tap := rfl
@[simp] theorem onPlat_pol : (onPlat f s).pol = s.pol := rfl
@[simp] theorem onPlat_factoryPageOk : (onPlat f s).factoryPageOk = s.factoryPageOk := rfl
@[simp] theorem onPlat_free : (onPlat f s).free = s.free := rfl
@[simp] theorem onPlat_out : (onPlat f s).out = s.out := rfl
@[simp] theorem onPlat_pending : (onPlat f s).pending = s.pending := rfl
@[simp] theorem onPlat_cpu (k : CoreId) : cpu k (onPlat f s) = cpu k s := by cases k <;> rfl
@[simp] theorem onPlat_valves (k : CoreId) : valves k (onPlat f s) = valves k s := by cases k <;> rfl
end

section
variable (f : Ev → Ev)
@[simp] theorem onEv_clk : (onEv f s).clk = s.clk := rfl
@[simp] theorem onEv_plat : (onEv f s).plat = s.plat := rfl
@[simp] theorem onEv_ev : (onEv f s).ev = f s.ev := rfl
@[simp] theorem onEv_fp : (onEv f s).fp = s.fp := rfl
@[simp] theorem onEv_se : (onEv f s).se = s.se := rfl
@[simp] theorem onEv_pu : (onEv f s).pu = s.pu := rfl
@[simp] theorem onEv_tu : (onEv f s).tu = s.tu := rfl
@[simp] theorem onEv_co : (onEv f s).co = s.co := rfl
@[simp] theorem onEv_cmd : (onEv f s).cmd = s.cmd := rfl
@[simp] theorem onEv_eng : (onEv f s).eng = s.eng := rfl
@[simp] theorem onEv_nw : (onEv f s).nw = s.nw := rfl
@[simp] theorem onEv_cl : (onEv f s).cl = s.cl := rfl
@[simp] theorem onEv_nv : (onEv f s).nv = s.nv := rfl
@[simp] theorem onEv_bk : (onEv f s).bk = s.bk := rfl
@[simp] theorem onEv_fw : (onEv f s).fw = s.fw := rfl
@[simp] theorem onEv_me : (onEv f s).me = s.me := rfl
@[simp] theorem onEv_cpuC : (onEv f s).cpuC = s.cpuC := rfl
@[simp] theorem onEv_cpuV : (onEv f s).cpuV = s.cpuV := rfl
@[simp] theorem onEv_vtP : (onEv f s).vtP = s.vtP := rfl
@[simp] theorem onEv_vtW : (onEv f s).vtW = s.vtW := rfl
@[simp] theorem onEv_ri : (onEv f s).ri = s.ri := rfl
@[simp] theorem onEv_cdc : (onEv f s).cdc = s.cdc := rfl
@[simp] theorem onEv_tap : (onEv f s).tap = s.tap := rfl
@[simp] theorem onEv_pol : (onEv f s).pol = s.pol := rfl
@[simp] theorem onEv_factoryPageOk : (onEv f s).factoryPageOk = s.factoryPageOk := rfl
@[simp] theorem onEv_free : (onEv f s).free = s.free := rfl
@[simp] theorem onEv_out : (onEv f s).out = s.out := rfl
@[simp] theorem onEv_pending : (onEv f s).pending = s.pending := rfl
@[simp] theorem onEv_cpu (k : CoreId) : cpu k (onEv f s) = cpu k s := by cases k <;> rfl
@[simp] theorem onEv_valves (k : CoreId) : valves k (onEv f s) = valves k s := by cases k <;> rfl
end

section
variable (f : Fp → Fp)
@[simp] theorem onFp_clk : (onFp f s).clk = s.clk := rfl
@[simp] theorem onFp_plat : (onFp f s).plat = s.plat := rfl
@[simp] theorem onFp_ev : (onFp f s).ev = s.ev := rfl
@[simp] theorem onFp_fp : (onFp f s).fp = f s.fp := rfl
@[simp] theorem onFp_se : (onFp f s).se = s.se := rfl
@[simp] theorem onFp_pu : (onFp f s).pu = s.pu := rfl
@[simp] theorem onFp_tu : (onFp f s).tu = s.tu := rfl
@[simp] theorem onFp_co : (onFp f s).co = s.co := rfl
@[simp] theorem onFp_cmd : (onFp f s).cmd = s.cmd := rfl
@[simp] theorem onFp_eng : (onFp f s).eng = s.eng := rfl
@[simp] theorem onFp_nw : (onFp f s).nw = s.nw := rfl
@[simp] theorem onFp_cl : (onFp f s).cl = s.cl := rfl
@[simp] theorem onFp_nv : (onFp f s).nv = s.nv := rfl
@[simp] theorem onFp_bk : (onFp f s).bk = s.bk := rfl
@[simp] theorem onFp_fw : (onFp f s).fw = s.fw := rfl
@[simp] theorem onFp_me : (onFp f s).me = s.me := rfl
@[simp] theorem onFp_cpuC : (onFp f s).cpuC = s.cpuC := rfl
@[simp] theorem onFp_cpuV : (onFp f s).cpuV = s.cpuV := rfl
@[simp] theorem onFp_vtP : (onFp f s).vtP = s.vtP := rfl
@[simp] theorem onFp_vtW : (onFp f s).vtW = s.vtW := rfl
@[simp] theorem onFp_ri : (onFp f s).ri = s.ri := rfl
@[simp] theorem onFp_cdc : (onFp f s).cdc = s.cdc := rfl
@[simp] theorem onFp_tap : (onFp f s).tap = s.tap := rfl
@[simp] theorem onFp_pol : (onFp f s).pol = s.pol := rfl
@[simp] theorem onFp_factoryPageOk : (onFp f s).factoryPageOk = s.factoryPageOk := rfl
@[simp] theorem onFp_free : (onFp f s).free = s.free := rfl
@[simp] theorem onFp_out : (onFp f s).out = s.out := rfl
@[simp] theorem onFp_pending : (onFp f s).pending = s.pending := rfl
@[simp] theorem onFp_cpu (k : CoreId) : cpu k (onFp f s) = cpu k s := by cases k <;> rfl
@[simp] theorem onFp_valves (k : CoreId) : valves k (onFp f s) = valves k s := by cases k <;> rfl
end

section
variable (f : Se → Se)
@[simp] theorem onSe_clk : (onSe f s).clk = s.clk := rfl
@[simp] theorem onSe_plat : (onSe f s).plat = s.plat := rfl
@[simp] theorem onSe_ev : (onSe f s).ev = s.ev := rfl
@[simp] theorem onSe_fp : (onSe f s).fp = s.fp := rfl
@[simp] theorem onSe_se : (onSe f s).se = f s.se := rfl
@[simp] theorem onSe_pu : (onSe f s).pu = s.pu := rfl
@[simp] theorem onSe_tu : (onSe f s).tu = s.tu := rfl
@[simp] theorem onSe_co : (onSe f s).co = s.co := rfl
@[simp] theorem onSe_cmd : (onSe f s).cmd = s.cmd := rfl
@[simp] theorem onSe_eng : (onSe f s).eng = s.eng := rfl
@[simp] theorem onSe_nw : (onSe f s).nw = s.nw := rfl
@[simp] theorem onSe_cl : (onSe f s).cl = s.cl := rfl
@[simp] theorem onSe_nv : (onSe f s).nv = s.nv := rfl
@[simp] theorem onSe_bk : (onSe f s).bk = s.bk := rfl
@[simp] theorem onSe_fw : (onSe f s).fw = s.fw := rfl
@[simp] theorem onSe_me : (onSe f s).me = s.me := rfl
@[simp] theorem onSe_cpuC : (onSe f s).cpuC = s.cpuC := rfl
@[simp] theorem onSe_cpuV : (onSe f s).cpuV = s.cpuV := rfl
@[simp] theorem onSe_vtP : (onSe f s).vtP = s.vtP := rfl
@[simp] theorem onSe_vtW : (onSe f s).vtW = s.vtW := rfl
@[simp] theorem onSe_ri : (onSe f s).ri = s.ri := rfl
@[simp] theorem onSe_cdc : (onSe f s).cdc = s.cdc := rfl
@[simp] theorem onSe_tap : (onSe f s).tap = s.tap := rfl
@[simp] theorem onSe_pol : (onSe f s).pol = s.pol := rfl
@[simp] theorem onSe_factoryPageOk : (onSe f s).factoryPageOk = s.factoryPageOk := rfl
@[simp] theorem onSe_free : (onSe f s).free = s.free := rfl
@[simp] theorem onSe_out : (onSe f s).out = s.out := rfl
@[simp] theorem onSe_pending : (onSe f s).pending = s.pending := rfl
@[simp] theorem onSe_cpu (k : CoreId) : cpu k (onSe f s) = cpu k s := by cases k <;> rfl
@[simp] theorem onSe_valves (k : CoreId) : valves k (onSe f s) = valves k s := by cases k <;> rfl
end

section
variable (f : Pu → Pu)
@[simp] theorem onPu_clk : (onPu f s).clk = s.clk := rfl
@[simp] theorem onPu_plat : (onPu f s).plat = s.plat := rfl
@[simp] theorem onPu_ev : (onPu f s).ev = s.ev := rfl
@[simp] theorem onPu_fp : (onPu f s).fp = s.fp := rfl
@[simp] theorem onPu_se : (onPu f s).se = s.se := rfl
@[simp] theorem onPu_pu : (onPu f s).pu = f s.pu := rfl
@[simp] theorem onPu_tu : (onPu f s).tu = s.tu := rfl
@[simp] theorem onPu_co : (onPu f s).co = s.co := rfl
@[simp] theorem onPu_cmd : (onPu f s).cmd = s.cmd := rfl
@[simp] theorem onPu_eng : (onPu f s).eng = s.eng := rfl
@[simp] theorem onPu_nw : (onPu f s).nw = s.nw := rfl
@[simp] theorem onPu_cl : (onPu f s).cl = s.cl := rfl
@[simp] theorem onPu_nv : (onPu f s).nv = s.nv := rfl
@[simp] theorem onPu_bk : (onPu f s).bk = s.bk := rfl
@[simp] theorem onPu_fw : (onPu f s).fw = s.fw := rfl
@[simp] theorem onPu_me : (onPu f s).me = s.me := rfl
@[simp] theorem onPu_cpuC : (onPu f s).cpuC = s.cpuC := rfl
@[simp] theorem onPu_cpuV : (onPu f s).cpuV = s.cpuV := rfl
@[simp] theorem onPu_vtP : (onPu f s).vtP = s.vtP := rfl
@[simp] theorem onPu_vtW : (onPu f s).vtW = s.vtW := rfl
@[simp] theorem onPu_ri : (onPu f s).ri = s.ri := rfl
@[simp] theorem onPu_cdc : (onPu f s).cdc = s.cdc := rfl
@[simp] theorem onPu_tap : (onPu f s).tap = s.tap := rfl
@[simp] theorem onPu_pol : (onPu f s).pol = s.pol := rfl
@[simp] theorem onPu_factoryPageOk : (onPu f s).factoryPageOk = s.factoryPageOk := rfl
@[simp] theorem onPu_free : (onPu f s).free = s.free := rfl
@[simp] theorem onPu_out : (onPu f s).out = s.out := rfl
@[simp] theorem onPu_pending : (onPu f s).pending = s.pending := rfl
@[simp] theorem onPu_cpu (k : CoreId) : cpu k (onPu f s) = cpu k s := by cases k <;> rfl
@[simp] theorem onPu_valves (k : CoreId) : valves k (onPu f s) = valves k s := by cases k <;> rfl
end

section
variable (f : Tu → Tu)
@[simp] theorem onTu_clk : (onTu f s).clk = s.clk := rfl
@[simp] theorem onTu_plat : (onTu f s).plat = s.plat := rfl
@[simp] theorem onTu_ev : (onTu f s).ev = s.ev := rfl
@[simp] theorem onTu_fp : (onTu f s).fp = s.fp := rfl
@[simp] theorem onTu_se : (onTu f s).se = s.se := rfl
@[simp] theorem onTu_pu : (onTu f s).pu = s.pu := rfl
@[simp] theorem onTu_tu : (onTu f s).tu = f s.tu := rfl
@[simp] theorem onTu_co : (onTu f s).co = s.co := rfl
@[simp] theorem onTu_cmd : (onTu f s).cmd = s.cmd := rfl
@[simp] theorem onTu_eng : (onTu f s).eng = s.eng := rfl
@[simp] theorem onTu_nw : (onTu f s).nw = s.nw := rfl
@[simp] theorem onTu_cl : (onTu f s).cl = s.cl := rfl
@[simp] theorem onTu_nv : (onTu f s).nv = s.nv := rfl
@[simp] theorem onTu_bk : (onTu f s).bk = s.bk := rfl
@[simp] theorem onTu_fw : (onTu f s).fw = s.fw := rfl
@[simp] theorem onTu_me : (onTu f s).me = s.me := rfl
@[simp] theorem onTu_cpuC : (onTu f s).cpuC = s.cpuC := rfl
@[simp] theorem onTu_cpuV : (onTu f s).cpuV = s.cpuV := rfl
@[simp] theorem onTu_vtP : (onTu f s).vtP = s.vtP := rfl
@[simp] theorem onTu_vtW : (onTu f s).vtW = s.vtW := rfl
@[simp] theorem onTu_ri : (onTu f s).ri = s.ri := rfl
@[simp] theorem onTu_cdc : (onTu f s).cdc = s.cdc := rfl
@[simp] theorem onTu_tap : (onTu f s).tap = s.tap := rfl
@[simp] theorem onTu_pol : (onTu f s).pol = s.pol := rfl
@[simp] theorem onTu_factoryPageOk : (onTu f s).factoryPageOk = s.factoryPageOk := rfl
@[simp] theorem onTu_free : (onTu f s).free = s.free := rfl
@[simp] theorem onTu_out : (onTu f s).out = s.out := rfl
@[simp] theorem onTu_pending : (onTu f s).pending = s.pending := rfl
@[simp] theorem onTu_cpu (k : CoreId) : cpu k (onTu f s) = cpu k s := by cases k <;> rfl
@[simp] theorem onTu_valves (k : CoreId) : valves k (onTu f s) = valves k s := by cases k <;> rfl
end

section
variable (f : Co → Co)
@[simp] theorem onCo_clk : (onCo f s).clk = s.clk := rfl
@[simp] theorem onCo_plat : (onCo f s).plat = s.plat := rfl
@[simp] theorem onCo_ev : (onCo f s).ev = s.ev := rfl
@[simp] theorem onCo_fp : (onCo f s).fp = s.fp := rfl
@[simp] theorem onCo_se : (onCo f s).se = s.se := rfl
@[simp] theorem onCo_pu : (onCo f s).pu = s.pu := rfl
@[simp] theorem onCo_tu : (onCo f s).tu = s.tu := rfl
@[simp] theorem onCo_co : (onCo f s).co = f s.co := rfl
@[simp] theorem onCo_cmd : (onCo f s).cmd = s.cmd := rfl
@[simp] theorem onCo_eng : (onCo f s).eng = s.eng := rfl
@[simp] theorem onCo_nw : (onCo f s).nw = s.nw := rfl
@[simp] theorem onCo_cl : (onCo f s).cl = s.cl := rfl
@[simp] theorem onCo_nv : (onCo f s).nv = s.nv := rfl
@[simp] theorem onCo_bk : (onCo f s).bk = s.bk := rfl
@[simp] theorem onCo_fw : (onCo f s).fw = s.fw := rfl
@[simp] theorem onCo_me : (onCo f s).me = s.me := rfl
@[simp] theorem onCo_cpuC : (onCo f s).cpuC = s.cpuC := rfl
@[simp] theorem onCo_cpuV : (onCo f s).cpuV = s.cpuV := rfl
@[simp] theorem onCo_vtP : (onCo f s).vtP = s.vtP := rfl
@[simp] theorem onCo_vtW : (onCo f s).vtW = s.vtW := rfl
@[simp] theorem onCo_ri : (onCo f s).ri = s.ri := rfl
@[simp] theorem onCo_cdc : (onCo f s).cdc = s.cdc := rfl
@[simp] theorem onCo_tap : (onCo f s).tap = s.tap := rfl
@[simp] theorem onCo_pol : (onCo f s).pol = s.pol := rfl
@[simp] theorem onCo_factoryPageOk : (onCo f s).factoryPageOk = s.factoryPageOk := rfl
@[simp] theorem onCo_free : (onCo f s).free = s.free := rfl
@[simp] theorem onCo_out : (onCo f s).out = s.out := rfl
@[simp] theorem onCo_pending : (onCo f s).pending = s.pending := rfl
@[simp] theorem onCo_cpu (k : CoreId) : cpu k (onCo f s) = cpu k s := by cases k <;> rfl
@[simp] theorem onCo_valves (k : CoreId) : valves k (onCo f s) = valves k s := by cases k <;> rfl
end

section
variable (f : Cmd → Cmd)
@[simp] theorem onCmd_clk : (onCmd f s).clk = s.clk := rfl
@[simp] theorem onCmd_plat : (onCmd f s).plat = s.plat := rfl
@[simp] theorem onCmd_ev : (onCmd f s).ev = s.ev := rfl
@[simp] theorem onCmd_fp : (onCmd f s).fp = s.fp := rfl
@[simp] theorem onCmd_se : (onCmd f s).se = s.se := rfl
@[simp] theorem onCmd_pu : (onCmd f s).pu = s.pu := rfl
@[simp] theorem onCmd_tu : (onCmd f s).tu = s.tu := rfl
@[simp] theorem onCmd_co : (onCmd f s).co = s.co := rfl
@[simp] theorem onCmd_cmd : (onCmd f s).cmd = f s.cmd := rfl
@[simp] theorem onCmd_eng : (onCmd f s).eng = s.eng := rfl
@[simp] theorem onCmd_nw : (onCmd f s).nw = s.nw := rfl
@[simp] theorem onCmd_cl : (onCmd f s).cl = s.cl := rfl
@[simp] theorem onCmd_nv : (onCmd f s).nv = s.nv := rfl
@[simp] theorem onCmd_bk : (onCmd f s).bk = s.bk := rfl
@[simp] theorem onCmd_fw : (onCmd f s).fw = s.fw := rfl
@[simp] theorem onCmd_me : (onCmd f s).me = s.me := rfl
@[simp] theorem onCmd_cpuC : (onCmd f s).cpuC = s.cpuC := rfl
@[simp] theorem onCmd_cpuV : (onCmd f s).cpuV = s.cpuV := rfl
@[simp] theorem onCmd_vtP : (onCmd f s).vtP = s.vtP := rfl
@[simp] theorem onCmd_vtW : (onCmd f s).vtW = s.vtW := rfl
@[simp] theorem onCmd_ri : (onCmd f s).ri = s.ri := rfl
@[simp] theorem onCmd_cdc : (onCmd f s).cdc = s.cdc := rfl
@[simp] theorem onCmd_tap : (onCmd f s).tap = s.tap := rfl
@[simp] theorem onCmd_pol : (onCmd f s).pol = s.pol := rfl
@[simp] theorem onCmd_factoryPageOk : (onCmd f s).factoryPageOk = s.factoryPageOk := rfl
@[simp] theorem onCmd_free : (onCmd f s).free = s.free := rfl
@[simp] theorem onCmd_out : (onCmd f s).out = s.out := rfl
@[simp] theorem onCmd_pending : (onCmd f s).pending = s.pending := rfl
@[simp] theorem onCmd_cpu (k : CoreId) : cpu k (onCmd f s) = cpu k s := by cases k <;> rfl
@[simp] theorem onCmd_valves (k : CoreId) : valves k (onCmd f s) = valves k s := by cases k <;> rfl
end

section
variable (f : Eng → Eng)
@[simp] theorem onEng_clk : (onEng f s).clk = s.clk := rfl
@[simp] theorem onEng_plat : (onEng f s).plat = s.plat := rfl
@[simp] theorem onEng_ev : (onEng f s).ev = s.ev := rfl
@[simp] theorem onEng_fp : (onEng f s).fp = s.fp := rfl
@[simp] theorem onEng_se : (onEng f s).se = s.se := rfl
@[simp] theorem onEng_pu : (onEng f s).pu = s.pu := rfl
@[simp] theorem onEng_tu : (onEng f s).tu = s.tu := rfl
@[simp] theorem onEng_co : (onEng f s).co = s.co := rfl
@[simp] theorem onEng_cmd : (onEng f s).cmd = s.cmd := rfl
@[simp] theorem onEng_eng : (onEng f s).eng = f s.eng := rfl
@[simp] theorem onEng_nw : (onEng f s).nw = s.nw := rfl
@[simp] theorem onEng_cl : (onEng f s).cl = s.cl := rfl
@[simp] theorem onEng_nv : (onEng f s).nv = s.nv := rfl
@[simp] theorem onEng_bk : (onEng f s).bk = s.bk := rfl
@[simp] theorem onEng_fw : (onEng f s).fw = s.fw := rfl
@[simp] theorem onEng_me : (onEng f s).me = s.me := rfl
@[simp] theorem onEng_cpuC : (onEng f s).cpuC = s.cpuC := rfl
@[simp] theorem onEng_cpuV : (onEng f s).cpuV = s.cpuV := rfl
@[simp] theorem onEng_vtP : (onEng f s).vtP = s.vtP := rfl
@[simp] theorem onEng_vtW : (onEng f s).vtW = s.vtW := rfl
@[simp] theorem onEng_ri : (onEng f s).ri = s.ri := rfl
@[simp] theorem onEng_cdc : (onEng f s).cdc = s.cdc := rfl
@[simp] theorem onEng_tap : (onEng f s).tap = s.tap := rfl
@[simp] theorem onEng_pol : (onEng f s).pol = s.pol := rfl
@[simp] theorem onEng_factoryPageOk : (onEng f s).factoryPageOk = s.factoryPageOk := rfl
@[simp] theorem onEng_free : (onEng f s).free = s.free := rfl
@[simp] theorem onEng_out : (onEng f s).out = s.out := rfl
@[simp] theorem onEng_pending : (onEng f s).pending = s.pending := rfl
@[simp] theorem onEng_cpu (k : CoreId) : cpu k (onEng f s) = cpu k s := by cases k <;> rfl
@[simp] theorem onEng_valves (k : CoreId) : valves k (onEng f s) = valves k s := by cases k <;> rfl
end

section
variable (f : Nw → Nw)
@[simp] theorem onNw_clk : (onNw f s).clk = s.clk := rfl
@[simp] theorem onNw_plat : (onNw f s).plat = s.plat := rfl
@[simp] theorem onNw_ev : (onNw f s).ev = s.ev := rfl
@[simp] theorem onNw_fp : (onNw f s).fp = s.fp := rfl
@[simp] theorem onNw_se : (onNw f s).se = s.se := rfl
@[simp] theorem onNw_pu : (onNw f s).pu = s.pu := rfl
@[simp] theorem onNw_tu : (onNw f s).tu = s.tu := rfl
@[simp] theorem onNw_co : (onNw f s).co = s.co := rfl
@[simp] theorem onNw_cmd : (onNw f s).cmd = s.cmd := rfl
@[simp] theorem onNw_eng : (onNw f s).eng = s.eng := rfl
@[simp] theorem onNw_nw : (onNw f s).nw = f s.nw := rfl
@[simp] theorem onNw_cl : (onNw f s).cl = s.cl := rfl
@[simp] theorem onNw_nv : (onNw f s).nv = s.nv := rfl
@[simp] theorem onNw_bk : (onNw f s).bk = s.bk := rfl
@[simp] theorem onNw_fw : (onNw f s).fw = s.fw := rfl
@[simp] theorem onNw_me : (onNw f s).me = s.me := rfl
@[simp] theorem onNw_cpuC : (onNw f s).cpuC = s.cpuC := rfl
@[simp] theorem onNw_cpuV : (onNw f s).cpuV = s.cpuV := rfl
@[simp] theorem onNw_vtP : (onNw f s).vtP = s.vtP := rfl
@[simp] theorem onNw_vtW : (onNw f s).vtW = s.vtW := rfl
@[simp] theorem onNw_ri : (onNw f s).ri = s.ri := rfl
@[simp] theorem onNw_cdc : (onNw f s).cdc = s.cdc := rfl
@[simp] theorem onNw_tap : (onNw f s).tap = s.tap := rfl
@[simp] theorem onNw_pol : (onNw f s).pol = s.pol := rfl
@[simp] theorem onNw_factoryPageOk : (onNw f s).factoryPageOk = s.factoryPageOk := rfl
@[simp] theorem onNw_free : (onNw f s).free = s.free := rfl
@[simp] theorem onNw_out : (onNw f s).out = s.out := rfl
@[simp] theorem onNw_pending : (onNw f s).pending = s.pending := rfl
@[simp] theorem onNw_cpu (k : CoreId) : cpu k (onNw f s) = cpu k s := by cases k <;> rfl
@[simp] theorem onNw_valves (k : CoreId) : valves k (onNw f s) = valves k s := by cases k <;> rfl
end

section
variable (f : Cl → Cl)
@[simp] theorem onCl_clk : (onCl f s).clk = s.clk := rfl
@[simp] theorem onCl_plat : (onCl f s).plat = s.plat := rfl
@[simp] theorem onCl_ev : (onCl f s).ev = s.ev := rfl
@[simp] theorem onCl_fp : (onCl f s).fp = s.fp := rfl
@[simp] theorem onCl_se : (onCl f s).se = s.se := rfl
@[simp] theorem onCl_pu : (onCl f s).pu = s.pu := rfl
@[simp] theorem onCl_tu : (onCl f s).tu = s.tu := rfl
@[simp] theorem onCl_co : (onCl f s).co = s.co := rfl
@[simp] theorem onCl_cmd : (onCl f s).cmd = s.cmd := rfl
@[simp] theorem onCl_eng : (onCl f s).eng = s.eng := rfl
@[simp] theorem onCl_nw : (onCl f s).nw = s.nw := rfl
@[simp] theorem onCl_cl : (onCl f s).cl = f s.cl := rfl
@[simp] theorem onCl_nv : (onCl f s).nv = s.nv := rfl
@[simp] theorem onCl_bk : (onCl f s).bk = s.bk := rfl
@[simp] theorem onCl_fw : (onCl f s).fw = s.fw := rfl
@[simp] theorem onCl_me : (onCl f s).me = s.me := rfl
@[simp] theorem onCl_cpuC : (onCl f s).cpuC = s.cpuC := rfl
@[simp] theorem onCl_cpuV : (onCl f s).cpuV = s.cpuV := rfl
@[simp] theorem onCl_vtP : (onCl f s).vtP = s.vtP := rfl
@[simp] theorem onCl_vtW : (onCl f s).vtW = s.vtW := rfl
@[simp] theorem onCl_ri : (onCl f s).ri = s.ri := rfl
@[simp] theorem onCl_cdc : (onCl f s).cdc = s.cdc := rfl
@[simp] theorem onCl_tap : (onCl f s).tap = s.tap := rfl
@[simp] theorem onCl_pol : (onCl f s).pol = s.pol := rfl
@[simp] theorem onCl_factoryPageOk : (onCl f s).factoryPageOk = s.factoryPageOk := rfl
@[simp] theorem onCl_free : (onCl f s).free = s.free := rfl
@[simp] theorem onCl_out : (onCl f s).out = s.out := rfl
@[simp] theorem onCl_pending : (onCl f s).pending = s.pending := rfl
@[simp] theorem onCl_cpu (k : CoreId) : cpu k (onCl f s) = cpu k s := by cases k <;> rfl
@[simp] theorem onCl_valves (k : CoreId) : valves k (onCl f s) = valves k s := by cases k <;> rfl
end

section
variable (f : Nv → Nv)
@[simp] theorem onNv_clk : (onNv f s).clk = s.clk := rfl
@[simp] theorem onNv_plat : (onNv f s).plat = s.plat := rfl
@[simp] theorem onNv_ev : (onNv f s).ev = s.ev := rfl
@[simp] theorem onNv_fp : (onNv f s).fp = s.fp := rfl
@[simp] theorem onNv_se : (onNv f s).se = s.se := rfl
@[simp] theorem onNv_pu : (onNv f s).pu = s.pu := rfl
@[simp] theorem onNv_tu : (onNv f s).tu = s.tu := rfl
@[simp] theorem onNv_co : (onNv f s).co = s.co := rfl
@[simp] theorem onNv_cmd : (onNv f s).cmd = s.cmd := rfl
@[simp] theorem onNv_eng : (onNv f s).eng = s.eng := rfl
@[simp] theorem onNv_nw : (onNv f s).nw = s.nw := rfl
@[simp] theorem onNv_cl : (onNv f s).cl = s.cl := rfl
@[simp] theorem onNv_nv : (onNv f s).nv = f s.nv := rfl
@[simp] theorem onNv_bk : (onNv f s).bk = s.bk := rfl
@[simp] theorem onNv_fw : (onNv f s).fw = s.fw := rfl
@[simp] theorem onNv_me : (onNv f s).me = s.me := rfl
@[simp] theorem onNv_cpuC : (onNv f s).cpuC = s.cpuC := rfl
@[simp] theorem onNv_cpuV : (onNv f s).cpuV = s.cpuV := rfl
@[simp] theorem onNv_vtP : (onNv f s).vtP = s.vtP := rfl
@[simp] theorem onNv_vtW : (onNv f s).vtW = s.vtW := rfl
@[simp] theorem onNv_ri : (onNv f s).ri = s.ri := rfl
@[simp] theorem onNv_cdc : (onNv f s).cdc = s.cdc := rfl
@[simp] theorem onNv_tap : (onNv f s).tap = s.tap := rfl
@[simp] theorem onNv_pol : (onNv f s).pol = s.pol := rfl
@[simp] theorem onNv_factoryPageOk : (onNv f s).factoryPageOk = s.factoryPageOk := rfl
@[simp] theorem onNv_free : (onNv f s).free = s.free := rfl
@[simp] theorem onNv_out : (onNv f s).out = s.out := rfl
@[simp] theorem onNv_pending : (onNv f s).pending = s.pending := rfl
@[simp] theorem onNv_cpu (k : CoreId) : cpu k (onNv f s) = cpu k s := by cases k <;> rfl
@[simp] theorem onNv_valves (k : CoreId) : valves k (onNv f s) = valves k s := by cases k <;> rfl
end

section
variable (f : Bk → Bk)
@[simp] theorem onBk_clk : (onBk f s).clk = s.clk := rfl
@[simp] theorem onBk_plat : (onBk f s).plat = s.plat := rfl
@[simp] theorem onBk_ev : (onBk f s).ev = s.ev := rfl
@[simp] theorem onBk_fp : (onBk f s).fp = s.fp := rfl
@[simp] theorem onBk_se : (onBk f s).se = s.se := rfl
@[simp] theorem onBk_pu : (onBk f s).pu = s.pu := rfl
@[simp] theorem onBk_tu : (onBk f s).tu = s.tu := rfl
@[simp] theorem onBk_co : (onBk f s).co = s.co := rfl
@[simp] theorem onBk_cmd : (onBk f s).cmd = s.cmd := rfl
@[simp] theorem onBk_eng : (onBk f s).eng = s.eng := rfl
@[simp] theorem onBk_nw : (onBk f s).nw = s.nw := rfl
@[simp] theorem onBk_cl : (onBk f s).cl = s.cl := rfl
@[simp] theorem onBk_nv : (onBk f s).nv = s.nv := rfl
@[simp] theorem onBk_bk : (onBk f s).bk = f s.bk := rfl
@[simp] theorem onBk_fw : (onBk f s).fw = s.fw := rfl
@[simp] theorem onBk_me : (onBk f s).me = s.me := rfl
@[simp] theorem onBk_cpuC : (onBk f s).cpuC = s.cpuC := rfl
@[simp] theorem onBk_cpuV : (onBk f s).cpuV = s.cpuV := rfl
@[simp] theorem onBk_vtP : (onBk f s).vtP = s.vtP := rfl
@[simp] theorem onBk_vtW : (onBk f s).vtW = s.vtW := rfl
@[simp] theorem onBk_ri : (onBk f s).ri = s.ri := rfl
@[simp] theorem onBk_cdc : (onBk f s).cdc = s.cdc := rfl
@[simp] theorem onBk_tap : (onBk f s).tap = s.tap := rfl
@[simp] theorem onBk_pol : (onBk f s).pol = s.pol := rfl
@[simp] theorem onBk_factoryPageOk : (onBk f s).factoryPageOk = s.factoryPageOk := rfl
@[simp] theorem onBk_free : (onBk f s).free = s.free := rfl
@[simp] theorem onBk_out : (onBk f s).out = s.out := rfl
@[simp] theorem onBk_pending : (onBk f s).pending = s.pending := rfl
@[simp] theorem onBk_cpu (k : CoreId) : cpu k (onBk f s) = cpu k s := by cases k <;> rfl
@[simp] theorem onBk_valves (k : CoreId) : valves k (onBk f s) = valves k s := by cases k <;> rfl
end

section
variable (f : Fw → Fw)
@[simp] theorem onFw_clk : (onFw f s).clk = s.clk := rfl
@[simp] theorem onFw_plat : (onFw f s).plat = s.plat := rfl
@[simp] theorem onFw_ev : (onFw f s).ev = s.ev := rfl
@[simp] theorem onFw_fp : (onFw f s).fp = s.fp := rfl
@[simp] theorem onFw_se : (onFw f s).se = s.se := rfl
@[simp] theorem onFw_pu : (onFw f s).pu = s.pu := rfl
@[simp] theorem onFw_tu : (onFw f s).tu = s.tu := rfl
@[simp] theorem onFw_co : (onFw f s).co = s.co := rfl
@[simp] theorem onFw_cmd : (onFw f s).cmd = s.cmd := rfl
@[simp] theorem onFw_eng : (onFw f s).eng = s.eng := rfl
@[simp] theorem onFw_nw : (onFw f s).nw = s.nw := rfl
@[simp] theorem onFw_cl : (onFw f s).cl = s.cl := rfl
@[simp] theorem onFw_nv : (onFw f s).nv = s.nv := rfl
@[simp] theorem onFw_bk : (onFw f s).bk = s.bk := rfl
@[simp] theorem onFw_fw : (onFw f s).fw = f s.fw := rfl
@[simp] theorem onFw_me : (onFw f s).me = s.me := rfl
@[simp] theorem onFw_cpuC : (onFw f s).cpuC = s.cpuC := rfl
@[simp] theorem onFw_cpuV : (onFw f s).cpuV = s.cpuV := rfl
@[simp] theorem onFw_vtP : (onFw f s).vtP = s.vtP := rfl
@[simp] theorem onFw_vtW : (onFw f s).vtW = s.vtW := rfl
@[simp] theorem onFw_ri : (onFw f s).ri = s.ri := rfl
@[simp] theorem onFw_cdc : (onFw f s).cdc = s.cdc := rfl
@[simp] theorem onFw_tap : (onFw f s).tap = s.tap := rfl
@[simp] theorem onFw_pol : (onFw f s).pol = s.pol := rfl
@[simp] theorem onFw_factoryPageOk : (onFw f s).factoryPageOk = s.factoryPageOk := rfl
@[simp] theorem onFw_free : (onFw f s).free = s.free := rfl
@[simp] theorem onFw_out : (onFw f s).out = s.out := rfl
@[simp] theorem onFw_pending : (onFw f s).pending = s.pending := rfl
@[simp] theorem onFw_cpu (k : CoreId) : cpu k (onFw f s) = cpu k s := by cases k <;> rfl
@[simp] theorem onFw_valves (k : CoreId) : valves k (onFw f s) = valves k s := by cases k <;> rfl
end

section
variable (f : Me → Me)
@[simp] theorem onMe_clk : (onMe f s).clk = s.clk := rfl
@[simp] theorem onMe_plat : (onMe f s).plat = s.plat := rfl
@[simp] theorem onMe_ev : (onMe f s).ev = s.ev := rfl
@[simp] theorem onMe_fp : (onMe f s).fp = s.fp := rfl
@[simp] theorem onMe_se : (onMe f s).se = s.se := rfl
@[simp] theorem onMe_pu : (onMe f s).pu = s.pu := rfl
@[simp] theorem onMe_tu : (onMe f s).tu = s.tu := rfl
@[simp] theorem onMe_co : (onMe f s).co = s.co := rfl
@[simp] theorem onMe_cmd : (onMe f s).cmd = s.cmd := rfl
@[simp] theorem onMe_eng : (onMe f s).eng = s.eng := rfl
@[simp] theorem onMe_nw : (onMe f s).nw = s.nw := rfl
@[simp] theorem onMe_cl : (onMe f s).cl = s.cl := rfl
@[simp] theorem onMe_nv : (onMe f s).nv = s.nv := rfl
@[simp] theorem onMe_bk : (onMe f s).bk = s.bk := rfl
@[simp] theorem onMe_fw : (onMe f s).fw = s.fw := rfl
@[simp] theorem onMe_me : (onMe f s).me = f s.me := rfl
@[simp] theorem onMe_cpuC : (onMe f s).cpuC = s.cpuC := rfl
@[simp] theorem onMe_cpuV : (onMe f s).cpuV = s.cpuV := rfl
@[simp] theorem onMe_vtP : (onMe f s).vtP = s.vtP := rfl
@[simp] theorem onMe_vtW : (onMe f s).vtW = s.vtW := rfl
@[simp] theorem onMe_ri : (onMe f s).ri = s.ri := rfl
@[simp] theorem onMe_cdc : (onMe f s).cdc = s.cdc := rfl
@[simp] theorem onMe_tap : (onMe f s).tap = s.tap := rfl
@[simp] theorem onMe_pol : (onMe f s).pol = s.pol := rfl
@[simp] theorem onMe_factoryPageOk : (onMe f s).factoryPageOk = s.factoryPageOk := rfl
@[simp] theorem onMe_free : (onMe f s).free = s.free := rfl
@[simp] theorem onMe_out : (onMe f s).out = s.out := rfl
@[simp] theorem onMe_pending : (onMe f s).pending = s.pending := rfl
@[simp] theorem onMe_cpu (k : CoreId) : cpu k (onMe f s) = cpu k s := by cases k <;> rfl
@[simp] theorem onMe_valves (k : CoreId) : valves k (onMe f s) = valves k s := by cases k <;> rfl
end

section
variable (f : Ri → Ri)
@[simp] theorem onRi_clk : (onRi f s).clk = s.clk := rfl
@[simp] theorem onRi_plat : (onRi f s).plat = s.plat := rfl
@[simp] theorem onRi_ev : (onRi f s).ev = s.ev := rfl
@[simp] theorem onRi_fp : (onRi f s).fp = s.fp := rfl
@[simp] theorem onRi_se : (onRi f s).se = s.se := rfl
@[simp] theorem onRi_pu : (onRi f s).pu = s.pu := rfl
@[simp] theorem onRi_tu : (onRi f s).tu = s.tu := rfl
@[simp] theorem onRi_co : (onRi f s).co = s.co := rfl
@[simp] theorem onRi_cmd : (onRi f s).cmd = s.cmd := rfl
@[simp] theorem onRi_eng : (onRi f s).eng = s.eng := rfl
@[simp] theorem onRi_nw : (onRi f s).nw = s.nw := rfl
@[simp] theorem onRi_cl : (onRi f s).cl = s.cl := rfl
@[simp] theorem onRi_nv : (onRi f s).nv = s.nv := rfl
@[simp] theorem onRi_bk : (onRi f s).bk = s.bk := rfl
@[simp] theorem onRi_fw : (onRi f s).fw = s.fw := rfl
@[simp] theorem onRi_me : (onRi f s).me = s.me := rfl
@[simp] theorem onRi_cpuC : (onRi f s).cpuC = s.cpuC := rfl
@[simp] theorem onRi_cpuV : (onRi f s).cpuV = s.cpuV := rfl
@[simp] theorem onRi_vtP : (onRi f s).vtP = s.vtP := rfl
@[simp] theorem onRi_vtW : (onRi f s).vtW = s.vtW := rfl
@[simp] theorem onRi_ri : (onRi f s).ri = f s.ri := rfl
@[simp] theorem onRi_cdc : (onRi f s).cdc = s.cdc := rfl
@[simp] theorem onRi_tap : (onRi f s).tap = s.tap := rfl
@[simp] theorem onRi_pol : (onRi f s).pol = s.pol := rfl
@[simp] theorem onRi_factoryPageOk : (onRi f s).factoryPageOk = s.factoryPageOk := rfl
@[simp] theorem onRi_free : (onRi f s).free = s.free := rfl
@[simp] theorem onRi_out : (onRi f s).out = s.out := rfl
@[simp] theorem onRi_pending : (onRi f s).pending = s.pending := rfl
@[simp] theorem onRi_cpu (k : CoreId) : cpu k (onRi f s) = cpu k s := by cases k <;> rfl
@[simp] theorem onRi_valves (k : CoreId) : valves k (onRi f s) = valves k s := by cases k <;> rfl
end

section
variable (f : Tap → Tap)
@[simp] theorem onTap_clk : (onTap f s).clk = s.clk := rfl
@[simp] theorem onTap_plat : (onTap f s).plat = s.plat := rfl
@[simp] theorem onTap_ev : (onTap f s).ev = s.ev := rfl
@[simp] theorem onTap_fp : (onTap f s).fp = s.fp := rfl
@[simp] theorem onTap_se : (onTap f s).se = s.se := rfl
@[simp] theorem onTap_pu : (onTap f s).pu = s.pu := rfl
@[simp] theorem onTap_tu : (onTap f s).tu = s.tu := rfl
@[simp] theorem onTap_co : (onTap f s).co = s.co := rfl
@[simp] theorem onTap_cmd : (onTap f s).cmd = s.cmd := rfl
@[simp] theorem onTap_eng : (onTap f s).eng = s.eng := rfl
@[simp] theorem onTap_nw : (onTap f s).nw = s.nw := rfl
@[simp] theorem onTap_cl : (onTap f s).cl = s.cl := rfl
@[simp] theorem onTap_nv : (onTap f s).nv = s.nv := rfl
@[simp] theorem onTap_bk : (onTap f s).bk = s.bk := rfl
@[simp] theorem onTap_fw : (onTap f s).fw = s.fw := rfl
@[simp] theorem onTap_me : (onTap f s).me = s.me := rfl
@[simp] theorem onTap_cpuC : (onTap f s).cpuC = s.cpuC := rfl
@[simp] theorem onTap_cpuV : (onTap f s).cpuV = s.cpuV := rfl
@[simp] theorem onTap_vtP : (onTap f s).vtP = s.vtP := rfl
@[simp] theorem onTap_vtW : (onTap f s).vtW = s.vtW := rfl
@[simp] theorem onTap_ri : (onTap f s).ri = s.ri := rfl
@[simp] theorem onTap_cdc : (onTap f s).cdc = s.cdc := rfl
@[simp] theorem onTap_tap : (onTap f s).tap = f s.tap := rfl
@[simp] theorem onTap_pol : (onTap f s).pol = s.pol := rfl
@[simp] theorem onTap_factoryPageOk : (onTap f s).factoryPageOk = s.factoryPageOk := rfl
@[simp] theorem onTap_free : (onTap f s).free = s.free := rfl
@[simp] theorem onTap_out : (onTap f s).out = s.out := rfl
@[simp] theorem onTap_pending : (onTap f s).pending = s.pending := rfl
@[simp] theorem onTap_cpu (k : CoreId) : cpu k (onTap f s) = cpu k s := by cases k <;> rfl
@[simp] theorem onTap_valves (k : CoreId) : valves k (onTap f s) = valves k s := by cases k <;> rfl
end

section
variable (q : Nat) (f : CdcBook → CdcBook)
@[simp] theorem onCdc_clk : (onCdc q f s).clk = s.clk := rfl
@[simp] theorem onCdc_plat : (onCdc q f s).plat = s.plat := rfl
@[simp] theorem onCdc_ev : (onCdc q f s).ev = s.ev := rfl
@[simp] theorem onCdc_fp : (onCdc q f s).fp = s.fp := rfl
@[simp] theorem onCdc_se : (onCdc q f s).se = s.se := rfl
@[simp] theorem onCdc_pu : (onCdc q f s).pu = s.pu := rfl
@[simp] theorem onCdc_tu : (onCdc q f s).tu = s.tu := rfl
@[simp] theorem onCdc_co : (onCdc q f s).co = s.co := rfl
@[simp] theorem onCdc_cmd : (onCdc q f s).cmd = s.cmd := rfl
@[simp] theorem onCdc_eng : (onCdc q f s).eng = s.eng := rfl
@[simp] theorem onCdc_nw : (onCdc q f s).nw = s.nw := rfl
@[simp] theorem onCdc_cl : (onCdc q f s).cl = s.cl := rfl
@[simp] theorem onCdc_nv : (onCdc q f s).nv = s.nv := rfl
@[simp] theorem onCdc_bk : (onCdc q f s).bk = s.bk := rfl
@[simp] theorem onCdc_fw : (onCdc q f s).fw = s.fw := rfl
@[simp] theorem onCdc_me : (onCdc q f s).me = s.me := rfl
@[simp] theorem onCdc_cpuC : (onCdc q f s).cpuC = s.cpuC := rfl
@[simp] theorem onCdc_cpuV : (onCdc q f s).cpuV = s.cpuV := rfl
@[simp] theorem onCdc_vtP : (onCdc q f s).vtP = s.vtP := rfl
@[simp] theorem onCdc_vtW : (onCdc q f s).vtW = s.vtW := rfl
@[simp] theorem onCdc_ri : (onCdc q f s).ri = s.ri := rfl
@[simp] theorem onCdc_cdc : (onCdc q f s).cdc = smMod {} s.cdc q f := rfl
@[simp] theorem onCdc_tap : (onCdc q f s).tap = s.tap := rfl
@[simp] theorem onCdc_pol : (onCdc q f s).pol = s.pol := rfl
@[simp] theorem onCdc_factoryPageOk : (onCdc q f s).factoryPageOk = s.factoryPageOk := rfl
@[simp] theorem onCdc_free : (onCdc q f s).free = s.free := rfl
@[simp] theorem onCdc_out : (onCdc q f s).out = s.out := rfl
@[simp] theorem onCdc_pending : (onCdc q f s).pending = s.pending := rfl
@[simp] theorem onCdc_cpu (k : CoreId) : cpu k (onCdc q f s) = cpu k s := by cases k <;> rfl
@[simp] theorem onCdc_valves (k : CoreId) : valves k (onCdc q f s) = valves k s := by cases k <;> rfl
end

section
variable (k : CoreId) (f : Cpu → Cpu)
@[simp] theorem onCpu_clk : (onCpu k f s).clk = s.clk := by cases k <;> rfl
@[simp] theorem onCpu_plat : (onCpu k f s).plat = s.plat := by cases k <;> rfl
@[simp] theorem onCpu_ev : (onCpu k f s).ev = s.ev := by cases k <;> rfl
@[simp] theorem onCpu_fp : (onCpu k f s).fp = s.fp := by cases k <;> rfl
@[simp] theorem onCpu_se : (onCpu k f s).se = s.se := by cases k <;> rfl
@[simp] theorem onCpu_pu : (onCpu k f s).pu = s.pu := by cases k <;> rfl
@[simp] theorem onCpu_tu : (onCpu k f s).tu = s.tu := by cases k <;> rfl
@[simp] theorem onCpu_co : (onCpu k f s).co = s.co := by cases k <;> rfl
@[simp] theorem onCpu_cmd : (onCpu k f s).cmd = s.cmd := by cases k <;> rfl
@[simp] theorem onCpu_eng : (onCpu k f s).eng = s.eng := by cases k <;> rfl
@[simp] theorem onCpu_nw : (onCpu k f s).nw = s.nw := by cases k <;> rfl
@[simp] theorem onCpu_cl : (onCpu k f s).cl = s.cl := by cases k <;> rfl
@[simp] theorem onCpu_nv : (onCpu k f s).nv = s.nv := by cases k <;> rfl
@[simp] theorem onCpu_bk : (onCpu k f s).bk = s.bk := by cases k <;> rfl
@[simp] theorem onCpu_fw : (onCpu k f s).fw = s.fw := by cases k <;> rfl
@[simp] theorem onCpu_me : (onCpu k f s).me = s.me := by cases k <;> rfl
@[simp] theorem onCpu_vtP : (onCpu k f s).vtP = s.vtP := by cases k <;> rfl
@[simp] theorem onCpu_vtW : (onCpu k f s).vtW = s.vtW := by cases k <;> rfl
@[simp] theorem onCpu_ri : (onCpu k f s).ri = s.ri := by cases k <;> rfl
@[simp] theorem onCpu_cdc : (onCpu k f s).cdc = s.cdc := by cases k <;> rfl
@[simp] theorem onCpu_tap : (onCpu k f s).tap = s.tap := by cases k <;> rfl
@[simp] theorem onCpu_pol : (onCpu k f s).pol = s.pol := by cases k <;> rfl
@[simp] theorem onCpu_factoryPageOk : (onCpu k f s).factoryPageOk = s.factoryPageOk := by cases k <;> rfl
@[simp] theorem onCpu_free : (onCpu k f s).free = s.free := by cases k <;> rfl
@[simp] theorem onCpu_out : (onCpu k f s).out = s.out := by cases k <;> rfl
@[simp] theorem onCpu_pending : (onCpu k f s).pending = s.pending := by cases k <;> rfl
@[simp] theorem onCpu_valves (j : CoreId) : valves j (onCpu k f s) = valves j s := by cases k <;> cases j <;> rfl
@[simp] theorem cpu_onCpu_same : cpu k (onCpu k f s) = f (cpu k s) := by cases k <;> rfl
theorem cpu_onCpu (j : CoreId) : cpu j (onCpu k f s) = if j = k then f (cpu j s) else cpu j s := by
  cases k <;> cases j <;> rfl
@[simp] theorem onCpu_id : onCpu k (fun c => c) s = s := by cases k <;> rfl
@[simp] theorem onCpu_onCpu (g : Cpu → Cpu) : onCpu k g (onCpu k f s) = onCpu k (fun c => g (f c)) s := by cases k <;> rfl
end

section
variable (k : CoreId) (f : SMap Valve → SMap Valve)
@[simp] theorem onValves_clk : (onValves k f s).clk = s.clk := by cases k <;> rfl
@[simp] theorem onValves_plat : (onValves k f s).plat = s.plat := by cases k <;> rfl
@[simp] theorem onValves_ev : (onValves k f s).ev = s.ev := by cases k <;> rfl
@[simp] theorem onValves_fp : (onValves k f s).fp = s.fp := by cases k <;> rfl
@[simp] theorem onValves_se : (onValves k f s).se = s.se := by cases k <;> rfl
@[simp] theorem onValves_pu : (onValves k f s).pu = s.pu := by cases k <;> rfl
@[simp] theorem onValves_tu : (onValves k f s).tu = s.tu := by cases k <;> rfl
@[simp] theorem onValves_co : (onValves k f s).co = s.co := by cases k <;> rfl
@[simp] theorem onValves_cmd : (onValves k f s).cmd = s.cmd := by cases k <;> rfl
@[simp] theorem onValves_eng : (onValves k f s).eng = s.eng := by cases k <;> rfl
@[simp] theorem onValves_nw : (onValves k f s).nw = s.nw := by cases k <;> rfl
@[simp] theorem onValves_cl : (onValves k f s).cl = s.cl := by cases k <;> rfl
@[simp] theorem onValves_nv : (onValves k f s).nv = s.nv := by cases k <;> rfl
@[simp] theorem onValves_bk : (onValves k f s).bk = s.bk := by cases k <;> rfl
@[simp] theorem onValves_fw : (onValves k f s).fw = s.fw := by cases k <;> rfl
@[simp] theorem onValves_me : (onValves k f s).me = s.me := by cases k <;> rfl
@[simp] theorem onValves_cpuC : (onValves k f s).cpuC = s.cpuC := by cases k <;> rfl
@[simp] theorem onValves_cpuV : (onValves k f s).cpuV = s.cpuV := by cases k <;> rfl
@[simp] theorem onValves_ri : (onValves k f s).ri = s.ri := by cases k <;> rfl
@[simp] theorem onValves_cdc : (onValves k f s).cdc = s.cdc := by cases k <;> rfl
@[simp] theorem onValves_tap : (onValves k f s).tap = s.tap := by cases k <;> rfl
@[simp] theorem onValves_pol : (onValves k f s).pol = s.pol := by cases k <;> rfl
@[simp] theorem onValves_factoryPageOk : (onValves k f s).factoryPageOk = s.factoryPageOk := by cases k <;> rfl
@[simp] theorem onValves_free : (onValves k f s).free = s.free := by cases k <;> rfl
@[simp] theorem onValves_out : (onValves k f s).out = s.out := by cases k <;> rfl
@[simp] theorem onValves_pending : (onValves k f s).pending = s.pending := by cases k <;> rfl
@[simp] theorem onValves_cpu (j : CoreId) : cpu j (onValves k f s) = cpu j s := by cases k <;> cases j <;> rfl
@[simp] theorem valves_onValves_same : valves k (onValves k f s) = f (valves k s) := by cases k <;> rfl
theorem valves_onValves (j : CoreId) : valves j (onValves k f s) = if j = k then f (valves j s) else valves j s := by
  cases k <;> cases j <;> rfl
end

section
variable (o : Out)
@[simp] theorem emit_clk : (emit o s).clk = s.clk := rfl
@[simp] theorem emit_plat : (emit o s).plat = s.plat := rfl
@[simp] theorem emit_ev : (emit o s).ev = s.ev := rfl
@[simp] theorem emit_fp : (emit o s).fp = s.fp := rfl
@[simp] theorem emit_se : (emit o s).se = s.se := rfl
@[simp] theorem emit_pu : (emit o s).pu = s.pu := rfl
@[simp] theorem emit_tu : (emit o s).tu = s.tu := rfl
@[simp] theorem emit_co : (emit o s).co = s.co := rfl
@[simp] theorem emit_cmd : (emit o s).cmd = s.cmd := rfl
@[simp] theorem emit_eng : (emit o s).eng = s.eng := rfl
@[simp] theorem emit_nw : (emit o s).nw = s.nw := rfl
@[simp] theorem emit_cl : (emit o s).cl = s.cl := rfl
@[simp] theorem emit_nv : (emit o s).nv = s.nv := rfl
@[simp] theorem emit_bk : (emit o s).bk = s.bk := rfl
@[simp] theorem emit_fw : (emit o s).fw = s.fw := rfl
@[simp] theorem emit_me : (emit o s).me = s.me := rfl
@[simp] theorem emit_cpuC : (emit o s).cpuC = s.cpuC := rfl
@[simp] theorem emit_cpuV : (emit o s).cpuV = s.cpuV := rfl
@[simp] theorem emit_vtP : (emit o s).vtP = s.vtP := rfl
@[simp] theorem emit_vtW : (emit o s).vtW = s.vtW := rfl
@[simp] theorem emit_ri : (emit o s).ri = s.ri := rfl
@[simp] theorem emit_cdc : (emit o s).cdc = s.cdc := rfl
@[simp] theorem emit_tap : (emit o s).tap = s.tap := rfl
@[simp] theorem emit_pol : (emit o s).pol = s.pol := rfl
@[simp] theorem emit_factoryPageOk : (emit o s).factoryPageOk = s.factoryPageOk := rfl
@[simp] theorem emit_free : (emit o s).free = s.free := rfl
@[simp] theorem emit_out : (emit o s).out = s.out ++ [o] := rfl
@[simp] theorem emit_pending : (emit o s).pending = s.pending := rfl
@[simp] theorem emit_cpu (k : CoreId) : cpu k (emit o s) = cpu k s := by cases k <;> rfl
@[simp] theorem emit_valves (k : CoreId) : valves k (emit o s) = valves k s := by cases k <;> rfl
end

section
variable (n : Nat)
@[simp] theorem draw_clk : (draw n s).2.clk = s.clk := rfl
@[simp] theorem draw_plat : (draw n s).2.plat = s.plat := rfl
@[simp] theorem draw_ev : (draw n s).2.ev = s.ev := rfl
@[simp] theorem draw_fp : (draw n s).2.fp = s.fp := rfl
@[simp] theorem draw_se : (draw n s).2.se = s.se := rfl
@[simp] theorem draw_pu : (draw n s).2.pu = s.pu := rfl
@[simp] theorem draw_tu : (draw n s).2.tu = s.tu := rfl
@[simp] theorem draw_co : (draw n s).2.co = s.co := rfl
@[simp] theorem draw_cmd : (draw n s).2.cmd = s.cmd := rfl
@[simp] theorem draw_eng : (draw n s).2.eng = s.eng := rfl
@[simp] theorem draw_nw : (draw n s).2.nw = s.nw := rfl
@[simp] theorem draw_cl : (draw n s).2.cl = s.cl := rfl
@[simp] theorem draw_nv : (draw n s).2.nv = s.nv := rfl
@[simp] theorem draw_bk : (draw n s).2.bk = s.bk := rfl
@[simp] theorem draw_fw : (draw n s).2.fw = s.fw := rfl
@[simp] theorem draw_me : (draw n s).2.me = s.me := rfl
@[simp] theorem draw_cpuC : (draw n s).2.cpuC = s.cpuC := rfl
@[simp] theorem draw_cpuV : (draw n s).2.cpuV = s.cpuV := rfl
@[simp] theorem draw_vtP : (draw n s).2.vtP = s.vtP := rfl
@[simp] theorem draw_vtW : (draw n s).2.vtW = s.vtW := rfl
@[simp] theorem draw_ri : (draw n s).2.ri = s.ri := rfl
@[simp] theorem draw_cdc : (draw n s).2.cdc = s.cdc := rfl
@[simp] theorem draw_tap : (draw n s).2.tap = s.tap := rfl
@[simp] theorem draw_pol : (draw n s).2.pol = s.pol := rfl
@[simp] theorem draw_factoryPageOk : (draw n s).2.factoryPageOk = s.factoryPageOk := rfl
@[simp] theorem draw_free : (draw n s).2.free = s.free + 1 := rfl
@[simp] theorem draw_out : (draw n s).2.out = s.out := rfl
@[simp] theorem draw_pending : (draw n s).2.pending = s.pending := rfl
/-- A free value fits its width. -/
theorem draw_lt : (draw n s).1 < 2 ^ n := Nat.mod_lt _ (Nat.two_pow_pos n)
end

end Sys2Proof.Machine
end

