-- ==== Sys2Proof/Laws/Tables.lean ====
section
/-! SUPPORT. Sparse tables: reading after writing, deleting and changing, and the canonical form that every write keeps. -/
set_option Elab.async false
namespace Sys2Proof.Machine

variable {α : Type}

@[simp] theorem smFind_nil (j : Nat) : smFind ([] : SMap α) j = none := rfl

@[simp] theorem smFind_smDel (m : SMap α) (k j : Nat) : smFind (smDel m k) j = if j = k then none else smFind m j := by
  induction m with
  | nil => simp [smDel]
  | cons e r ih =>
    obtain ⟨i, v⟩ := e
    by_cases h : i = k <;> by_cases h2 : i = j <;> simp_all [smDel, smFind]

@[simp] theorem smFind_smPut (m : SMap α) (k j : Nat) (v : α) :
    smFind (smPut m k v) j = if j = k then some v else smFind m j := by
  induction m with
  | nil => simp [smPut, smFind, eq_comm]
  | cons e r ih =>
    obtain ⟨i, w⟩ := e
    simp only [smPut]
    split
    · simp [smFind, eq_comm]
    · split
      · subst_vars; simp only [smFind]; by_cases h : i = j <;> simp [h, eq_comm]; intro h3; omega
      · simp only [smFind, ih]; by_cases h : i = j <;> simp [h]; intro h3; omega

@[simp] theorem smGet_nil (d : α) (j : Nat) : smGet d ([] : SMap α) j = d := rfl

section defaults
variable [DecidableEq α] (d : α)

/-- Reading any key after writing one. -/
theorem smGet_smSet (m : SMap α) (k j : Nat) (v : α) : smGet d (smSet d m k v) j = if j = k then v else smGet d m j := by
  unfold smSet smGet
  by_cases h : v = d <;> by_cases h2 : j = k <;> simp [h, h2]

@[simp] theorem smGet_smSet_same (m : SMap α) (k : Nat) (v : α) : smGet d (smSet d m k v) k = v := by simp [smGet_smSet]

theorem smGet_smSet_other (m : SMap α) {k j : Nat} (v : α) (h : j ≠ k) : smGet d (smSet d m k v) j = smGet d m j := by
  simp [smGet_smSet, h]

/-- Reading any key after changing one. -/
theorem smGet_smMod (m : SMap α) (k j : Nat) (f : α → α) :
    smGet d (smMod d m k f) j = if j = k then f (smGet d m k) else smGet d m j := smGet_smSet d m k j _

@[simp] theorem smGet_smMod_same (m : SMap α) (k : Nat) (f : α → α) : smGet d (smMod d m k f) k = f (smGet d m k) := by
  simp [smGet_smMod]

theorem smGet_smMod_other (m : SMap α) {k j : Nat} (f : α → α) (h : j ≠ k) : smGet d (smMod d m k f) j = smGet d m j := by
  simp [smGet_smMod, h]

end defaults

/-! ## The canonical form -/

/-- Keys strictly rising, as a property of pairs. -/
theorem smSorted_iff (m : SMap α) : smSorted m = true ↔ m.Pairwise (fun x y => x.1 < y.1) := by
  induction m with
  | nil => simp [smSorted]
  | cons e r ih =>
    obtain ⟨i, v⟩ := e
    cases r with
    | nil => simp [smSorted]
    | cons e2 r2 =>
      obtain ⟨j, w⟩ := e2
      simp only [smSorted, Bool.and_eq_true, decide_eq_true_eq, ih, List.pairwise_cons, List.mem_cons, forall_eq_or_imp]
      constructor
      · rintro ⟨h, h2, h3⟩
        exact ⟨⟨h, fun a ha => lt_trans h (h2 a ha)⟩, h2, h3⟩
      · rintro ⟨⟨h, -⟩, h2, h3⟩
        exact ⟨h, h2, h3⟩

theorem smWf_iff [DecidableEq α] (d : α) (m : SMap α) :
    smWf d m = true ↔ m.Pairwise (fun x y => x.1 < y.1) ∧ ∀ e ∈ m, e.2 ≠ d := by
  simp [smWf, smSorted_iff]

theorem mem_smDel {m : SMap α} {k : Nat} {e : Nat × α} (h : e ∈ smDel m k) : e ∈ m := by
  induction m with
  | nil => exact h
  | cons x r ih =>
    obtain ⟨j, v⟩ := x
    simp only [smDel] at h
    split at h
    · exact List.mem_cons_of_mem _ (ih h)
    · rcases List.mem_cons.mp h with rfl | h'
      · exact List.mem_cons_self
      · exact List.mem_cons_of_mem _ (ih h')

theorem mem_smPut {m : SMap α} {k : Nat} {v : α} {e : Nat × α} (h : e ∈ smPut m k v) : e = (k, v) ∨ e ∈ m := by
  induction m with
  | nil => left; simpa [smPut] using h
  | cons x r ih =>
    obtain ⟨j, w⟩ := x
    simp only [smPut] at h
    split at h
    · simpa using h
    · split at h
      · rcases List.mem_cons.mp h with h' | h'
        · exact .inl h'
        · exact .inr (List.mem_cons_of_mem _ h')
      · rcases List.mem_cons.mp h with h' | h'
        · exact .inr (by simp [h'])
        · rcases ih h' with h2 | h2
          · exact .inl h2
          · exact .inr (List.mem_cons_of_mem _ h2)

theorem smDel_pairwise {m : SMap α} (k : Nat) (h : m.Pairwise (fun x y => x.1 < y.1)) :
    (smDel m k).Pairwise (fun x y => x.1 < y.1) := by
  induction m with
  | nil => exact h
  | cons x r ih =>
    obtain ⟨j, v⟩ := x
    rw [List.pairwise_cons] at h
    simp only [smDel]
    split
    · exact ih h.2
    · exact List.pairwise_cons.mpr ⟨fun a ha => h.1 a (mem_smDel ha), ih h.2⟩

theorem smPut_pairwise {m : SMap α} (k : Nat) (v : α) (h : m.Pairwise (fun x y => x.1 < y.1)) :
    (smPut m k v).Pairwise (fun x y => x.1 < y.1) := by
  induction m with
  | nil => simp [smPut]
  | cons x r ih =>
    obtain ⟨j, w⟩ := x
    have h2 := List.pairwise_cons.mp h
    simp only [smPut]
    split
    · rename_i hk
      refine List.pairwise_cons.mpr ⟨fun a ha => ?_, h⟩
      rcases List.mem_cons.mp ha with rfl | h'
      · exact hk
      · exact lt_trans hk (h2.1 a h')
    · split
      · rename_i hk
        subst hk
        exact List.pairwise_cons.mpr ⟨h2.1, h2.2⟩
      · refine List.pairwise_cons.mpr ⟨fun a ha => ?_, ih h2.2⟩
        rcases mem_smPut ha with rfl | h'
        · show j < k
          omega
        · exact h2.1 a h'

/-- A write keeps the canonical form. -/
theorem smSet_wf [DecidableEq α] (d : α) {m : SMap α} (k : Nat) (v : α) (h : smWf d m = true) :
    smWf d (smSet d m k v) = true := by
  rw [smWf_iff] at h ⊢
  unfold smSet
  split
  · exact ⟨smDel_pairwise k h.1, fun e he => h.2 e (mem_smDel he)⟩
  · rename_i hv
    refine ⟨smPut_pairwise k v h.1, fun e he => ?_⟩
    rcases mem_smPut he with rfl | h'
    · exact hv
    · exact h.2 e h'

theorem smMod_wf [DecidableEq α] (d : α) {m : SMap α} (k : Nat) (f : α → α) (h : smWf d m = true) :
    smWf d (smMod d m k f) = true := smSet_wf d k _ h

/-- Any list of entries, filtered, keeps the form. -/
theorem smFilter_wf [DecidableEq α] (d : α) {m : SMap α} (p : Nat × α → Bool) (h : smWf d m = true) :
    smWf d (m.filter p) = true := by
  rw [smWf_iff] at h ⊢
  exact ⟨h.1.filter p, fun e he => h.2 e (List.mem_filter.mp he).1⟩

end Sys2Proof.Machine
end

