-- ==== Sys2Proof/Laws/Ops.lean ====
section
/-! SUPPORT. What the shared operations can change: events, records of the sump log, the passing of time. -/
set_option Elab.async false
namespace Sys2Proof.Machine

/-! ## The riser link and its books -/

@[simp] theorem onDir_st (b : Bool) (f : RDir → RDir) (r : Ri) : (onDir b f r).st = r.st := by cases b <;> rfl

theorem formGroup_st (b l : Bool) (r : Ri) : (formGroup b l r).2.st = r.st := by
  unfold formGroup
  simp only
  split
  · rfl
  · simp

theorem takeGroup_st (b : Bool) (g : RGroup) (r : Ri) : (takeGroup b g r).st = r.st := by simp [takeGroup]

theorem linkStep_st (l : Bool) (r : Ri) : (linkStep l r).st = r.st := by
  simp [linkStep, takeGroup_st, formGroup_st]

theorem linkRun_st (f n : Nat) (r : Ri) : (linkRun f n r).st = r.st := by
  induction f generalizing n r with
  | zero => rfl
  | succ f ih =>
    unfold linkRun
    split
    · rfl
    · split
      · rfl
      · rw [ih, linkStep_st]

theorem linkSync_st (n : Nat) (r : Ri) : (linkSync n r).st = r.st := linkRun_st _ _ r

/-- What a dual-clock queue's use changes is its book (R30). -/
theorem cdcPass_parts (q n : Nat) (s : State) : cdcPass q n s = { s with cdc := (cdcPass q n s).cdc } := by
  unfold cdcPass cdcSee
  split
  · rfl
  · split <;> rfl

/-- A transfer over the riser changes the link's books and those of the queues on its way, and leaves the link's state. -/
theorem sendRiser_parts (w : Bool) (c : RChan) (q : RQueue) (b : Bytes) (s : State) :
    ∃ r d, r.st = s.ri.st ∧ sendRiser w c q b s = { s with ri := r, cdc := d } := by
  have pass (l : List Nat) (n : Nat) (t : State) : ∃ d, l.foldl (fun s q => cdcPass q n s) t = { t with cdc := d } := by
    induction l generalizing t with
    | nil => exact ⟨_, rfl⟩
    | cons q l ih =>
      obtain ⟨d, h⟩ := ih (cdcPass q n t)
      exact ⟨d, by rw [List.foldl_cons, h, cdcPass_parts]⟩
  unfold sendRiser
  split
  · exact ⟨_, _, rfl, rfl⟩
  · simp only
    obtain ⟨d, h⟩ := pass (riserQueues w c) (transferFlits c q b).length
      (onRi (fun r => onDir w (onChan c (fun k => { k with wait := k.wait ++ transferFlits c q b }))
        (linkSync (linkDue s.clk.now r) r)) s)
    rw [h]
    exact ⟨_, _, by simp [linkSync_st], rfl⟩

/-! ## Events and records -/

/-- Raising an event, recording it and answering the applets that wait for it change these parts and no other; the riser's
state stays, and so do the applets when none of them waits. -/
def Told (s t : State) : Prop :=
  ∃ e a l x m o r q, (r.st = s.ri.st ∧ ((∀ y ∈ s.cmd.applets, y.2.wait = .none) → a = s.cmd.applets)) ∧ t = { s with
    ev := e, cmd := { s.cmd with applets := a }, nv := { s.nv with log := l, lostRecs := x, monos := m }, out := o
    ri := r, cdc := q }

theorem Told.refl (s : State) : Told s s := ⟨_, _, _, _, _, _, _, _, ⟨rfl, fun _ => rfl⟩, rfl⟩

theorem Told.trans {s t u : State} (h : Told s t) (h2 : Told t u) : Told s u := by
  obtain ⟨e, a, l, x, m, o, r, q, ⟨hr, ha⟩, rfl⟩ := h
  obtain ⟨e2, a2, l2, x2, m2, o2, r2, q2, ⟨hr2, ha2⟩, rfl⟩ := h2
  refine ⟨e2, a2, l2, x2, m2, o2, r2, q2, ⟨hr2.trans hr, fun hn => ?_⟩, rfl⟩
  have h3 := ha hn
  subst h3
  exact ha2 hn

theorem told_onEv (f : Ev → Ev) (s : State) : Told s (onEv f s) := ⟨_, _, _, _, _, _, _, _, ⟨rfl, fun _ => rfl⟩, rfl⟩
theorem told_emit (o : Out) (s : State) : Told s (emit o s) := ⟨_, _, _, _, _, _, _, _, ⟨rfl, fun _ => rfl⟩, rfl⟩

theorem sendRiser_told (w : Bool) (c : RChan) (q : RQueue) (b : Bytes) (s : State) : Told s (sendRiser w c q b s) := by
  obtain ⟨r, d, hr, h⟩ := sendRiser_parts w c q b s
  exact ⟨_, _, _, _, _, _, r, d, ⟨hr, fun _ => rfl⟩, h⟩

theorem cdcPass_told (q n : Nat) (s : State) : Told s (cdcPass q n s) :=
  ⟨_, _, _, _, _, _, _, _, ⟨rfl, fun _ => rfl⟩, cdcPass_parts q n s⟩

theorem msix_told (v : Nat) (s : State) : Told s (msix v s) := by
  unfold msix
  split
  · exact .refl s
  · split
    · exact told_onEv _ s
    · exact told_emit _ s

theorem evChange_told (f : Ev → Ev) (s : State) : Told s (evChange f s) := by
  unfold evChange
  simp only [List.foldl]
  have step (b : Bool) (v : Nat) (t : State) : Told t (if b = true then msix v t else t) := by
    cases b
    · exact .refl t
    · exact msix_told v t
  exact (((((told_onEv f s).trans (step _ _ _)).trans (step _ _ _)).trans (step _ _ _)).trans (step _ _ _))

theorem evPumpViews_told (n : Nat) (s : State) : Told s (evPumpViews n s) := evChange_told _ s
theorem evVaultView_told (n : Nat) (s : State) : Told s (evVaultView n s) := told_onEv _ s
theorem appletEvent_told (n : Nat) (s : State) : Told s (appletEvent n s) := by
  refine ⟨_, _, _, _, _, _, _, _, ⟨rfl, fun h => ?_⟩, rfl⟩
  conv_rhs => rw [← List.map_id s.cmd.applets]
  refine List.map_congr_left (fun y hy => ?_)
  obtain ⟨i, a⟩ := y
  have := h _ hy
  simp only at this
  simp [this]
theorem sumpSet_told (n : Nat) (s : State) : Told s (sumpSet n s) := told_onEv _ s
theorem monoWrite_told (i v : Nat) (s : State) : Told s (monoWrite i v s) := ⟨_, _, _, _, _, _, _, _, ⟨rfl, fun _ => rfl⟩, rfl⟩

theorem evRaise_told (n : Nat) (s : State) : Told s (evRaise n s) := by
  unfold evRaise
  refine (appletEvent_told n s).trans ?_
  simp only
  split
  · refine (evVaultView_told n _).trans ?_
    split
    · exact (sendRiser_told _ _ _ _ _).trans (evPumpViews_told n _)
    · exact told_onEv _ _
  · refine ((cdcPass_told cdcEvents 1 (appletEvent n s)).trans (evPumpViews_told n _)).trans ?_
    split
    · exact (sendRiser_told _ _ _ _ _).trans (evVaultView_told n _)
    · exact told_onEv _ _

theorem logRecordAt_told (rtc source die flags : Nat) (d : List Nat) (s : State) :
    Told s (logRecordAt rtc source die flags d s) := by
  have lost : Told s (onNv (fun n => { n with lostRecs := satAdd 4294967295 n.lostRecs 1 }) s) := ⟨_, _, _, _, _, _, _, _, ⟨rfl, fun _ => rfl⟩, rfl⟩
  unfold logRecordAt
  simp only
  split
  · split
    · exact lost
    · exact (lost.trans (told_onEv _ _)).trans (evRaise_told _ _)
  · split
    · exact (sumpSet_told _ s).trans (evRaise_told _ _)
    · split
      · exact lost
      · exact (monoWrite_told _ _ s).trans ⟨_, _, _, _, _, _, _, _, ⟨rfl, fun _ => rfl⟩, rfl⟩

theorem logRecord_told (source die flags : Nat) (d : List Nat) (s : State) : Told s (logRecord source die flags d s) :=
  logRecordAt_told _ _ _ _ _ s

theorem sendRecord_told (source : Nat) (d : List Nat) (s : State) : Told s (sendRecord source d s) :=
  (sendRiser_told _ _ _ _ s).trans (sendRiser_told _ _ _ _ _)

theorem recordOf_told (n : Nat) (d : List Nat) (s : State) : Told s (recordOf n d s) := by
  unfold recordOf
  split
  · exact logRecord_told _ _ _ _ s
  · split
    · exact (sendRecord_told n d s).trans (logRecord_told _ _ _ _ _)
    · exact told_onEv _ s

theorem raise_told (n : Nat) (d : List Nat) (s : State) : Told s (raise n d s) := by
  unfold raise
  refine (evRaise_told n s).trans ?_
  simp only
  split
  · exact (sumpSet_told n _).trans (recordOf_told n d _)
  · exact .refl _

/-! ## What none of them touches -/

theorem Told.clk {s t : State} (h : Told s t) : t.clk = s.clk := by obtain ⟨_, _, _, _, _, _, _, _, _, rfl⟩ := h; rfl
theorem Told.plat {s t : State} (h : Told s t) : t.plat = s.plat := by obtain ⟨_, _, _, _, _, _, _, _, _, rfl⟩ := h; rfl
theorem Told.fp {s t : State} (h : Told s t) : t.fp = s.fp := by obtain ⟨_, _, _, _, _, _, _, _, _, rfl⟩ := h; rfl
theorem Told.se {s t : State} (h : Told s t) : t.se = s.se := by obtain ⟨_, _, _, _, _, _, _, _, _, rfl⟩ := h; rfl
theorem Told.pu {s t : State} (h : Told s t) : t.pu = s.pu := by obtain ⟨_, _, _, _, _, _, _, _, _, rfl⟩ := h; rfl
theorem Told.tu {s t : State} (h : Told s t) : t.tu = s.tu := by obtain ⟨_, _, _, _, _, _, _, _, _, rfl⟩ := h; rfl
theorem Told.co {s t : State} (h : Told s t) : t.co = s.co := by obtain ⟨_, _, _, _, _, _, _, _, _, rfl⟩ := h; rfl
theorem Told.eng {s t : State} (h : Told s t) : t.eng = s.eng := by obtain ⟨_, _, _, _, _, _, _, _, _, rfl⟩ := h; rfl
theorem Told.nw {s t : State} (h : Told s t) : t.nw = s.nw := by obtain ⟨_, _, _, _, _, _, _, _, _, rfl⟩ := h; rfl
theorem Told.cl {s t : State} (h : Told s t) : t.cl = s.cl := by obtain ⟨_, _, _, _, _, _, _, _, _, rfl⟩ := h; rfl
theorem Told.bk {s t : State} (h : Told s t) : t.bk = s.bk := by obtain ⟨_, _, _, _, _, _, _, _, _, rfl⟩ := h; rfl
theorem Told.fw {s t : State} (h : Told s t) : t.fw = s.fw := by obtain ⟨_, _, _, _, _, _, _, _, _, rfl⟩ := h; rfl
theorem Told.me {s t : State} (h : Told s t) : t.me = s.me := by obtain ⟨_, _, _, _, _, _, _, _, _, rfl⟩ := h; rfl
theorem Told.cpuC {s t : State} (h : Told s t) : t.cpuC = s.cpuC := by obtain ⟨_, _, _, _, _, _, _, _, _, rfl⟩ := h; rfl
theorem Told.cpuV {s t : State} (h : Told s t) : t.cpuV = s.cpuV := by obtain ⟨_, _, _, _, _, _, _, _, _, rfl⟩ := h; rfl
theorem Told.vtP {s t : State} (h : Told s t) : t.vtP = s.vtP := by obtain ⟨_, _, _, _, _, _, _, _, _, rfl⟩ := h; rfl
theorem Told.vtW {s t : State} (h : Told s t) : t.vtW = s.vtW := by obtain ⟨_, _, _, _, _, _, _, _, _, rfl⟩ := h; rfl
theorem Told.ri_st {s t : State} (h : Told s t) : t.ri.st = s.ri.st := by obtain ⟨_, _, _, _, _, _, _, _, ⟨hr, _⟩, rfl⟩ := h; exact hr
theorem Told.tap {s t : State} (h : Told s t) : t.tap = s.tap := by obtain ⟨_, _, _, _, _, _, _, _, _, rfl⟩ := h; rfl
theorem Told.pol {s t : State} (h : Told s t) : t.pol = s.pol := by obtain ⟨_, _, _, _, _, _, _, _, _, rfl⟩ := h; rfl
theorem Told.factoryPageOk {s t : State} (h : Told s t) : t.factoryPageOk = s.factoryPageOk := by obtain ⟨_, _, _, _, _, _, _, _, _, rfl⟩ := h; rfl
theorem Told.free {s t : State} (h : Told s t) : t.free = s.free := by obtain ⟨_, _, _, _, _, _, _, _, _, rfl⟩ := h; rfl
theorem Told.pending {s t : State} (h : Told s t) : t.pending = s.pending := by obtain ⟨_, _, _, _, _, _, _, _, _, rfl⟩ := h; rfl
/-- When no applet waits, the commands and their senders stay. -/
theorem Told.cmd {s t : State} (h : Told s t) (hn : ∀ y ∈ s.cmd.applets, y.2.wait = .none) : t.cmd = s.cmd := by
  obtain ⟨_, _, _, _, _, _, _, _, ⟨_, ha⟩, rfl⟩ := h
  have h2 := ha hn
  subst h2
  rfl
theorem Told.cpu {s t : State} (h : Told s t) (k : CoreId) : Machine.cpu k t = Machine.cpu k s := by
  obtain ⟨_, _, _, _, _, _, _, _, _, rfl⟩ := h; cases k <;> rfl
theorem Told.valves {s t : State} (h : Told s t) (k : CoreId) : Machine.valves k t = Machine.valves k s := by
  obtain ⟨_, _, _, _, _, _, _, _, _, rfl⟩ := h; cases k <;> rfl

section
variable (n : Nat) (d : List Nat) (s : State)
@[simp] theorem raise_clk : (raise n d s).clk = s.clk := (raise_told n d s).clk
@[simp] theorem raise_plat : (raise n d s).plat = s.plat := (raise_told n d s).plat
@[simp] theorem raise_fp : (raise n d s).fp = s.fp := (raise_told n d s).fp
@[simp] theorem raise_se : (raise n d s).se = s.se := (raise_told n d s).se
@[simp] theorem raise_pu : (raise n d s).pu = s.pu := (raise_told n d s).pu
@[simp] theorem raise_tu : (raise n d s).tu = s.tu := (raise_told n d s).tu
@[simp] theorem raise_co : (raise n d s).co = s.co := (raise_told n d s).co
@[simp] theorem raise_eng : (raise n d s).eng = s.eng := (raise_told n d s).eng
@[simp] theorem raise_nw : (raise n d s).nw = s.nw := (raise_told n d s).nw
@[simp] theorem raise_cl : (raise n d s).cl = s.cl := (raise_told n d s).cl
@[simp] theorem raise_bk : (raise n d s).bk = s.bk := (raise_told n d s).bk
@[simp] theorem raise_fw : (raise n d s).fw = s.fw := (raise_told n d s).fw
@[simp] theorem raise_me : (raise n d s).me = s.me := (raise_told n d s).me
@[simp] theorem raise_cpuC : (raise n d s).cpuC = s.cpuC := (raise_told n d s).cpuC
@[simp] theorem raise_cpuV : (raise n d s).cpuV = s.cpuV := (raise_told n d s).cpuV
@[simp] theorem raise_vtP : (raise n d s).vtP = s.vtP := (raise_told n d s).vtP
@[simp] theorem raise_vtW : (raise n d s).vtW = s.vtW := (raise_told n d s).vtW
@[simp] theorem raise_ri_st : (raise n d s).ri.st = s.ri.st := (raise_told n d s).ri_st
@[simp] theorem raise_tap : (raise n d s).tap = s.tap := (raise_told n d s).tap
@[simp] theorem raise_pol : (raise n d s).pol = s.pol := (raise_told n d s).pol
@[simp] theorem raise_factoryPageOk : (raise n d s).factoryPageOk = s.factoryPageOk := (raise_told n d s).factoryPageOk
@[simp] theorem raise_free : (raise n d s).free = s.free := (raise_told n d s).free
@[simp] theorem raise_pending : (raise n d s).pending = s.pending := (raise_told n d s).pending
@[simp] theorem raise_cpu (k : CoreId) : cpu k (raise n d s) = cpu k s := (raise_told n d s).cpu k
@[simp] theorem raise_valves (k : CoreId) : valves k (raise n d s) = valves k s := (raise_told n d s).valves k
end

/-! ## Byte strings -/

theorem length_natLE (n v : Nat) : (natLE n v).length = n := by
  induction n generalizing v with
  | zero => rfl
  | succ n ih => simp [natLE, ih]

theorem leNat_natLE (n v : Nat) : leNat (natLE n v) = v % 256 ^ n := by
  induction n generalizing v with
  | zero => simp [natLE, leNat, Nat.mod_one]
  | succ n ih =>
    rw [natLE, leNat, ih, BitVec.toNat_ofNat, show (256 : Nat) ^ (n + 1) = 256 * 256 ^ n from Nat.pow_succ']
    exact Nat.mod_mul.symm

theorem slice_skip (a b : Bytes) (off len : Nat) (h : a.length ≤ off) : slice (a ++ b) off len = slice b (off - a.length) len := by
  unfold slice
  rw [List.drop_append, List.drop_eq_nil_of_le h, List.nil_append]

theorem slice_here (a b : Bytes) (len : Nat) (h : a.length = len) : slice (a ++ b) 0 len = a := by
  unfold slice
  simp [← h]

/-! ## Time and counters -/

/-- Time that passes moves the clocks and, while both dies run, the time unit's time, and nothing else. -/
theorem advance_parts (dt : Nat) (s : State) :
    advance dt s = { s with clk := (advance dt s).clk, tu := { s.tu with time := (advance dt s).tu.time } } := by
  unfold advance
  simp only
  split <;> rfl

@[simp] theorem advance_now (dt : Nat) (s : State) : (advance dt s).clk.now = s.clk.now + dt := by
  unfold advance
  simp only
  split <;> simp only [onTu_clk, onClk_clk] <;> split <;> rfl

@[simp] theorem advance_zero_now (s : State) : (advance 0 s).clk.now = s.clk.now := by simp

/-- A contender's turn moves the clocks on by at most a tick and notes the turn; it touches nothing else (R26, R122, R127,
R142, R406). -/
theorem inTurn_parts (kind id rank : Nat) (s : State) :
    inTurn kind id rank s = { s with
      clk := (inTurn kind id rank s).clk, tu := { s.tu with time := (inTurn kind id rank s).tu.time } } := by
  unfold inTurn
  simp only
  split
  · rw [advance_parts]
    rfl
  · rfl

theorem inTurn_now (kind id rank : Nat) (s : State) :
    (inTurn kind id rank s).clk.now = s.clk.now ∨ (inTurn kind id rank s).clk.now = s.clk.now + 1 := by
  unfold inTurn
  simp only [onClk_clk]
  split
  · exact .inr (advance_now 1 s)
  · exact .inl rfl

/-- Where no other contender has been served in this tick, the turn is now. -/
theorem inTurn_of_free {kind id : Nat} {s : State} (rank : Nat) (h : smFind s.clk.turns (kind * 2 ^ 32 + id) = none) :
    inTurn kind id rank s = onClk (fun c => { c with
      turns := smPut (c.turns.filter (fun e => e.2.1 = c.now)) (kind * 2 ^ 32 + id) (c.now, rank) }) s := by
  unfold inTurn
  simp only [h, Option.any_none, Bool.false_eq_true, if_false]

/-- A monotonic counter reads what was written, and the others what they held (R308, R403). -/
theorem monoRead_monoWrite (i j v : Nat) (s : State) :
    monoRead j (monoWrite i v s) = if j = i then some v else monoRead j s := by
  unfold monoRead monoWrite
  simp only [onNv_nv, smGet_smSet]
  split
  · simp [monoVal]
  · rfl

end Sys2Proof.Machine
end

