-- ==== Sys2Proof/Laws/Memory.lean ====
section
/-! SUPPORT. The byte memories: reading after writing, and the canonical form every write keeps. -/
set_option Elab.async false
namespace Sys2Proof.Machine

/-! ## Bytes into a sparse memory -/

theorem putFold_wf (off : Nat) (l : List (Byte × Nat)) (m : SMap Byte) (h : smWf 0 m = true) :
    smWf 0 (l.foldl (fun m x => smSet 0 m (off + x.2) x.1) m) = true := by
  induction l generalizing m with
  | nil => exact h
  | cons x r ih => exact ih _ (smSet_wf 0 _ _ h)

theorem putBytes_wf (m : SMap Byte) (off : Nat) (b : Bytes) (h : smWf 0 m = true) : smWf 0 (putBytes m off b) = true :=
  putFold_wf off b.zipIdx m h

theorem smGet_putFold (off : Nat) (b : Bytes) (n : Nat) (m : SMap Byte) (j : Nat) :
    smGet 0 ((b.zipIdx n).foldl (fun m x => smSet 0 m (off + x.2) x.1) m) j =
      if off + n ≤ j ∧ j < off + n + b.length then b.getD (j - (off + n)) 0 else smGet 0 m j := by
  induction b generalizing n m with
  | nil => simp
  | cons x r ih =>
    rw [List.zipIdx_cons, List.foldl_cons, ih, smGet_smSet]
    by_cases h : j = off + n
    · subst h; simp
    · by_cases h2 : off + n ≤ j ∧ j < off + n + (x :: r).length
      · have h3 : off + (n + 1) ≤ j ∧ j < off + (n + 1) + r.length := by simp at h2 ⊢; omega
        rw [if_pos h3, if_pos h2]
        have h4 : j - (off + n) = (j - (off + (n + 1))) + 1 := by omega
        rw [h4]; rfl
      · have h3 : ¬ (off + (n + 1) ≤ j ∧ j < off + (n + 1) + r.length) := by simp at h2 ⊢; omega
        rw [if_neg h3, if_neg h2, if_neg h]

/-- Reading any byte after writing a string. -/
theorem smGet_putBytes (m : SMap Byte) (off : Nat) (b : Bytes) (j : Nat) :
    smGet 0 (putBytes m off b) j = if off ≤ j ∧ j < off + b.length then b.getD (j - off) 0 else smGet 0 m j :=
  smGet_putFold off b 0 m j

/-! ## Every memory operation keeps the form -/

theorem Memory.wf_iff (m : Me) : Memory.wf m = true ↔
    smWf 0 m.ctrlRam = true ∧ smWf 0 m.vaultRam = true ∧ smWf 0 m.mailbox = true ∧ smWf 0 m.workArea = true := by
  simp [Memory.wf, Bool.and_eq_true, and_assoc]

theorem reset_memory_wf : Memory.wf State.reset.me = true := by decide

theorem Told.memory_wf {s t : State} (h : Told s t) (hw : Memory.wf s.me = true) : Memory.wf t.me = true := by
  rw [h.me]; exact hw

theorem clearFaulty_wf (m : MemId) (w : Nat) (s : State) (h : Memory.wf s.me = true) :
    Memory.wf (clearFaulty m w s).me = true := h

/-- The control and vault RAM as applets' calls write them. -/
theorem ramPut_wf (k : CoreId) (a : Nat) (b : Bytes) (s : State) (h : Memory.wf s.me = true) :
    Memory.wf (ramPut k a b s).me = true := by
  have fold (base size : Nat) (l : List (Byte × Nat)) : ∀ m : SMap Byte, smWf 0 m = true →
      smWf 0 (l.foldl (fun m (x, i) =>
        if base ≤ a + i && a + i < base + size then smSet 0 m (a + i - base) x else m) m) = true := by
    induction l with
    | nil => intro m hm; exact hm
    | cons x r ih =>
      intro m hm
      refine ih _ ?_
      simp only
      split
      · exact smSet_wf 0 _ _ hm
      · exact hm
  unfold ramPut
  simp only
  generalize ht : (if s.me.faulty = [] then s else _) = t
  have h0 : Memory.wf t.me = true := by
    rw [← ht]
    split
    · exact h
    · exact h
  rw [Memory.wf_iff] at h0 ⊢
  cases k
  · exact ⟨fold _ _ _ _ h0.1, h0.2⟩
  · exact ⟨h0.1, fold _ _ _ _ h0.2.1, h0.2.2⟩

/-- A port's write of mailbox bytes (R381). -/
theorem mailboxWrite_wf (p : Bool) (a : Nat) (b : Bytes) (s : State) (h : Memory.wf s.me = true) :
    Memory.wf (mailboxWrite p a b s).me = true := by
  have fold (lost : Nat → Bool) (l : List (Byte × Nat)) : ∀ m : SMap Byte, smWf 0 m = true →
      smWf 0 (l.foldl (fun x y => if lost y.2 then x else smSet 0 x (a + y.2) y.1) m) = true := by
    induction l with
    | nil => intro m hm; exact hm
    | cons x r ih =>
      intro m hm
      refine ih _ ?_
      simp only
      split
      · exact hm
      · exact smSet_wf 0 _ _ hm
  unfold mailboxWrite
  simp only
  generalize ht : onMe _ s = t
  have h0 : Memory.wf t.me = true := by
    rw [← ht]
    rw [Memory.wf_iff] at h ⊢
    refine ⟨h.1, h.2.1, ?_, h.2.2.2⟩
    simp only [onMe_me]
    split
    · exact putBytes_wf _ _ _ h.2.2.1
    · exact fold (fun i => !p && (mailboxMet p a b.length s).any (fun (_, x, k) => x ≤ a + i && a + i < x + k)) _ _ h.2.2.1
  split
  · exact h0
  · exact (raise_told _ _ _).memory_wf h0

theorem cisternPutByte_wf (a : Nat) (b : Byte) (s : State) (h : Memory.wf s.me = true) :
    Memory.wf (cisternPutByte a b s).me = true := by
  unfold cisternPutByte
  split
  · exact h
  · rw [Memory.wf_iff] at h ⊢
    exact ⟨h.1, h.2.1, h.2.2.1, smSet_wf 0 _ _ h.2.2.2⟩

theorem tagPut_me (a : Nat) (b : Bytes) (s : State) : (tagPut a b s).me = s.me := by
  unfold tagPut
  split <;> rfl

theorem mramPut_me (a : Nat) (b : Bytes) (s : State) : (mramPut a b s).me = s.me := by
  unfold mramPut
  simp only
  split
  · exact tagPut_me _ _ _
  · split
    · rfl
    · split <;> rfl

/-- A write to a place: the memories keep their form. -/
theorem placePut_wf (k : CoreId) (p : Place) (b : Bytes) (s : State) (h : Memory.wf s.me = true) :
    Memory.wf (placePut k p b s).me = true := by
  have good (m : MemId) (w : Nat) := (Memory.wf_iff _).mp (clearFaulty_wf m w s h)
  cases p
  case ctrlRam off => exact (Memory.wf_iff _).mpr ⟨putBytes_wf _ _ _ (good .controlRam (off / 8)).1, (good .controlRam (off / 8)).2⟩
  case vaultRam off =>
    have g := good (if off < 0x40000 then .vaultX else .vaultY) (off % 0x40000 / 8)
    exact (Memory.wf_iff _).mpr ⟨g.1, putBytes_wf _ _ _ g.2.1, g.2.2⟩
  case mailbox off =>
    have g := good .mailbox (off / 8)
    simp only [placePut, wordOf]
    split
    · exact (Memory.wf_iff _).mpr g
    · exact mailboxWrite_wf _ _ _ _ ((Memory.wf_iff _).mpr g)
  case mram off =>
    simp only [placePut, wordOf, mramPut_me]
    exact h
  case cistern off =>
    have fold (l : List (Byte × Nat)) : ∀ e : State, Memory.wf e.me = true →
        Memory.wf (l.foldl (fun s x => cisternPutByte (off + x.2) x.1 s) e).me = true := by
      induction l with
      | nil => intro e he; exact he
      | cons x r ih => intro e he; exact ih _ (cisternPutByte_wf _ _ _ he)
    exact fold b.zipIdx s h
  all_goals exact h

/-- A list of the bytes from a place on that are not zero, by rising index, is in canonical form. -/
theorem listed_wf (b : Bytes) (n : Nat) :
    ((b.zipIdx n).filterMap (fun (x, i) => if x = 0 then none else some (i, x)) : SMap Byte).Pairwise
      (fun x y => x.1 < y.1) ∧
    ∀ e ∈ ((b.zipIdx n).filterMap (fun (x, i) => if x = 0 then none else some (i, x)) : SMap Byte),
      e.2 ≠ 0 ∧ n ≤ e.1 ∧ e.1 < n + b.length := by
  induction b generalizing n with
  | nil => simp
  | cons x r ih =>
    obtain ⟨h1, h2⟩ := ih (n + 1)
    have h3 : ∀ e ∈ ((r.zipIdx (n + 1)).filterMap (fun (x, i) => if x = 0 then none else some (i, x)) : SMap Byte),
        e.2 ≠ 0 ∧ n ≤ e.1 ∧ e.1 < n + (x :: r).length := by
      intro e he
      obtain ⟨a, b, c⟩ := h2 e he
      simp only [List.length_cons]
      exact ⟨a, by omega, by omega⟩
    rw [List.zipIdx_cons, List.filterMap_cons]
    by_cases hx : x = 0
    · simp only [hx, if_true]
      exact ⟨h1, by simpa [hx] using h3⟩
    · simp only [hx, if_false]
      refine ⟨List.pairwise_cons.mpr ⟨fun a ha => ?_, h1⟩, fun e he => ?_⟩
      · have := (h2 a ha).2.1
        show n < a.1
        omega
      · rcases List.mem_cons.mp he with rfl | h'
        · exact ⟨hx, le_refl _, by simp⟩
        · exact h3 e h'

/-- Loading an image into control RAM keeps the form. -/
theorem loadControl_wf (bank : Nat) (s : State) (h : Memory.wf s.me = true) : Memory.wf (loadControl bank s).me = true := by
  have hw := (Memory.wf_iff s.me).mp h
  unfold loadControl
  simp only
  refine (Memory.wf_iff _).mpr ⟨?_, hw.2⟩
  have hm := (smWf_iff 0 _).mp hw.1
  simp only [onMe_me]
  rw [smWf_iff]
  generalize hcode : flashRange _ _ s = code
  have hlen : code.length ≤ 0x180000 := by
    rw [← hcode]
    simp [flashRange]
  obtain ⟨h1, h2⟩ := listed_wf code 0
  refine ⟨List.pairwise_append.mpr ⟨h1, hm.1.filter _, fun a ha c hc => ?_⟩, fun e he => ?_⟩
  · have h4 := (h2 a ha).2.2
    have h5 := (List.mem_filter.mp hc).2
    simp at h5
    omega
  · rcases List.mem_append.mp he with h' | h'
    · exact (h2 e h').1
    · exact hm.2 e (List.mem_filter.mp h').1

end Sys2Proof.Machine
end

