-- ==== Sys2Proof/Laws/Cores.lean ====
section
/-! SUPPORT. The operations of the cores: registers, completion of an instruction, faults, and the frame of one instruction. -/
set_option Elab.async false
namespace Sys2Proof.Machine
open Sys2Proof.Claim

/-! ## General registers (R409) -/

@[simp] theorem Cpu.get_zero (c : Cpu) : c.get 0 = 0 := rfl
@[simp] theorem Cpu.set_zero (c : Cpu) (v : Word) : c.set 0 v = c := rfl

theorem Cpu.get_set (c : Cpu) (rd r : Reg) (v : Word) :
    (c.set rd v).get r = if r = 0 then 0 else if r = rd then v else c.get r := by
  unfold Cpu.get Cpu.set
  by_cases h : r = 0
  · simp [h]
  · by_cases h2 : rd = 0
    · subst h2; simp [h]
    · simp only [h, h2, if_false]
      by_cases h3 : r = rd
      · subst h3; simp
      · have h4 : (rd : Nat) ≠ (r : Nat) := fun e => h3 (Fin.ext e.symm)
        simp [h3, h4]

/-- A register write changes the general registers and nothing else. -/
theorem Cpu.set_parts (c : Cpu) (rd : Reg) (v : Word) : c.set rd v = { c with regs := (c.set rd v).regs } := by
  unfold Cpu.set; split <;> rfl

/-! ## Completion of an instruction (R425, R426) -/

/-- A completed instruction changes the pc and LC and nothing else. -/
theorem Cpu.retire_parts (c : Cpu) (next : Word) :
    c.retire next = { c with pc := (c.retire next).pc, lc := (c.retire next).lc } := by
  unfold Cpu.retire; split <;> rfl

/-- It goes on at the next pc, or takes the loop update at LE of an active loop. -/
theorem Cpu.retire_goesOn (c : Cpu) (next : Word) : GoesOn c (c.retire next) next := by
  have one (x : Word) : (x - 1 = 0) = (x = 1) := propext (by constructor <;> intro h <;> bv_omega)
  unfold Cpu.retire
  by_cases h : AtEnd c
  · rw [if_pos (by simpa [AtEnd] using h)]
    exact ⟨fun _ => ⟨rfl, by simp only [one]⟩, fun h2 => absurd h h2⟩
  · rw [if_neg (by simpa [AtEnd] using h)]
    exact ⟨fun h2 => absurd h2 h, fun _ => ⟨rfl, rfl⟩⟩

/-- The next pc of an instruction that is not at LE of an active loop. -/
theorem Cpu.retire_of_not_atEnd (c : Cpu) (next : Word) (h : ¬ AtEnd c) : c.retire next = { c with pc := next } := by
  unfold Cpu.retire
  rw [if_neg (by simpa [AtEnd] using h)]

/-! ## Faults (R445, R447) -/

/-- An unmasked fault is the entry R445 writes. -/
theorem takeFault_of_unmasked (k : CoreId) (p ret : Word) (vec d : Nat) (s : State) (h : Unmasked k s) :
    takeFault k p ret vec d s = onCpu k (enter ret (causeWord vec d) vec) s := by
  obtain ⟨h1, h2⟩ := h
  have h3 : ¬ faultLevel vec ≤ (cpu k s).mask.toNat := by
    unfold faultLevel
    split <;> omega
  simp [takeFault, h1, h3]

/-- A fault whose level is masked, or one taken during an escalation, escalates. -/
theorem takeFault_of_masked (k : CoreId) (p ret : Word) (vec d : Nat) (s : State)
    (h : (cpu k s).esc = true ∨ faultLevel vec ≤ (cpu k s).mask.toNat) :
    takeFault k p ret vec d s = escalate k p (causeWord vec d) s := by
  unfold takeFault
  rcases h with h | h <;> simp [h]

/-- The first escalation saves where it came from, raises the level, and goes to vector 1. -/
theorem escalate_of_first (k : CoreId) (p cause : Word) (s : State) (h : (cpu k s).esc = false) :
    escalate k p cause s = onCpu k (fun c => { c with
      escPc := p, escCause := cause, esc := true, priv := true, mask := 7, pc := vectorAddr 1 }) s := by
  simp [escalate, h]

/-- What an instruction row does: nothing on a core that does not run, the fault of its fetch, a wait for flash, or the
instruction's own effect. -/
theorem instr_cases (k : CoreId) (f : Bool → State → Res) (s : State) :
    (coreRuns k s = false ∧ instr k f s = .next s) ∨
    (coreRuns k s = true ∧ ∃ v d t, fetch k s = .fault v d t ∧
      instr k f s = .next (takeFault k (cpu k t).pc (cpu k t).pc v d t)) ∨
    (coreRuns k s = true ∧ ∃ t, fetch k s = .stall t ∧ instr k f s = .next t) ∨
    (coreRuns k s = true ∧ ∃ sealed, fetch k s = .ok sealed ∧ instr k f s = f sealed s) := by
  unfold instr
  cases hr : coreRuns k s
  · exact .inl ⟨rfl, by simp [done]⟩
  · right
    cases hf : fetch k s with
    | fault v d t => exact .inl ⟨rfl, v, d, t, rfl, by simp [done]⟩
    | stall t => exact .inr (.inl ⟨rfl, t, rfl, by simp [done]⟩)
    | ok b => exact .inr (.inr ⟨rfl, b, rfl, by simp⟩)

/-- An instruction that is fetched has its own effect. -/
theorem instr_of_executes {k : CoreId} {cls : Bool} {s : State} (h : Executes k cls s) (f : Bool → State → Res) :
    instr k f s = f cls s := by
  simp [instr, h.1, h.2]

/-! ## The valve table (R459) -/

/-- A keeper's access that no entry decides is granted; a tenant's is not. -/
theorem valveCheck_of_none (t : SMap Valve) (keeper : Bool) (tid a : Nat) (r : Right)
    (h : t.find? (fun e => decides 0 keeper tid a e.2) = none) :
    valveCheck t 0 keeper tid a r = if keeper then .grant false 0 0 else .deny true := by
  simp [valveCheck, h]

/-- The first entry that decides answers. -/
theorem valveCheck_of_some (t : SMap Valve) (keeper : Bool) (tid a : Nat) (r : Right) (e : Nat × Valve)
    (h : t.find? (fun e => decides 0 keeper tid a e.2) = some e) :
    valveCheck t 0 keeper tid a r =
      if (if keeper then keeperRight e.2 r else tenantRight e.2 r) then grantOf e.2 else .deny false := by
  obtain ⟨i, e⟩ := e
  simp [valveCheck, h]

end Sys2Proof.Machine
end

