-- ==== Sys2Proof/Laws/Serve.lean ====
section
/-! SUPPORT. The command interpreter: a command that is Ready is run at once, and when its operation replies, the row ends
with that reply over the state the operation left. -/
set_option Elab.async false
namespace Sys2Proof.Claim
open Sys2Proof.Machine

theorem quiet_of_calm {s : State} (h : Calm s) : Quiet s := h.2.2.2.2.2.1
theorem nothingDue_of_calm {s : State} (h : Calm s) : NothingDue s := h.2.2.2.2.2.2

/-! ## Nothing due -/

theorem sortBy_nil {α : Type} (le : α → α → Bool) : sortBy le [] = [] := rfl

theorem filter_nil {α : Type} {p : α → Bool} {l : List α} (h : ∀ x ∈ l, p x = false) : l.filter p = [] :=
  List.filter_eq_nil_iff.mpr (fun x hx => by simp [h x hx])

/-- What falls due depends on the frames, the transactions, the clocks and the waiting requests alone. -/
theorem NothingDue.of_parts {s t : State} (h : NothingDue s) (h1 : t.se = s.se) (h2 : t.fp = s.fp) (h3 : t.tu = s.tu)
    (h4 : t.clk = s.clk) (h5 : t.ev.waitKey = s.ev.waitKey) : NothingDue t := by
  obtain ⟨a, b, c, d⟩ := h
  refine ⟨?_, ?_, ?_, h5.trans d⟩
  · intro k hk
    have := a k hk
    simpa [txnOf, ptp16, h1, h3] using this
  · intro x hx
    have := b x (h2 ▸ hx)
    simpa [releaseDue, h4] using this
  · intro x hx
    have := c x (h2 ▸ hx)
    simpa [verdictDue, h4] using this

theorem commitDue_of_nothingDue {s : State} (h : NothingDue s) : commitDue s = s := by
  have go (l : List Nat) (hl : ∀ k ∈ l, k ∈ txnNos) : l.foldl (fun s k =>
      let t := txnOf k s
      if t.st == .armed && t.instant ≤ ptp16 s then commitTxn k t.instant s else s) s = s := by
    induction l with
    | nil => rfl
    | cons k l ih =>
      have hk := h.1 k (hl k (List.mem_cons_self ..))
      have hb : ((txnOf k s).st == .armed && decide ((txnOf k s).instant ≤ ptp16 s)) = false := by
        rw [Bool.eq_false_iff]
        intro hc
        simp at hc
        exact hk hc
      rw [List.foldl_cons]
      simp only [hb]
      exact ih (fun j hj => hl j (List.mem_cons_of_mem _ hj))
  exact go txnNos (fun _ hk => hk)

theorem framesDue_of_nothingDue {s : State} (h : NothingDue s) : framesDue s = s := by
  have h1 : jobsDue s = s := by
    unfold jobsDue
    rw [filter_nil (fun x hx => by
      have := (h.2.1 x hx).1
      rw [Bool.eq_false_iff]
      intro hc
      simp at hc
      exact this hc)]
    rfl
  have h2 : releasesDue s = s := by
    unfold releasesDue
    rw [filter_nil (fun x hx => (h.2.1 x hx).2)]
    rfl
  have h3 : verdictsDue s = s := by
    unfold verdictsDue
    rw [filter_nil (fun x hx => h.2.2.1 x hx)]
    rfl
  unfold framesDue
  rw [h1, h2, h3]

theorem askWaiting_of_nothingDue {s : State} (h : NothingDue s) : askWaiting s = s := by
  have h1 : onEv (fun e => { e with waitKey := [] }) s = s := by
    have := h.2.2.2
    cases s
    rename_i ev _ _ _ _ _ _ _ _ _ _ _ _ _ _ _ _ _ _ _ _ _ _ _ _ _
    cases ev
    simp only at this
    subst this
    rfl
  unfold askWaiting
  rw [h.2.2.2, h1]
  simp

/-! ## Entries of a table -/

theorem mem_smFind {α : Type} {m : SMap α} {k : Nat} {v : α} (h : smFind m k = some v) : (k, v) ∈ m := by
  induction m with
  | nil => simp at h
  | cons e r ih =>
    obtain ⟨j, w⟩ := e
    simp only [smFind] at h
    split at h
    · rename_i hj
      subst hj
      simp at h
      simp [h]
    · exact List.mem_cons_of_mem _ (ih h)

/-- What a table reads is its default or an entry. -/
theorem smGet_cases {α : Type} (d : α) (m : SMap α) (k : Nat) : smGet d m k = d ∨ (k, smGet d m k) ∈ m := by
  unfold smGet
  cases h : smFind m k with
  | none => exact .inl rfl
  | some v => exact .inr (mem_smFind h)

theorem mem_smSet {α : Type} [DecidableEq α] {d : α} {m : SMap α} {k : Nat} {v : α} {e : Nat × α}
    (h : e ∈ smSet d m k v) : e = (k, v) ∨ e ∈ m := by
  unfold smSet at h
  split at h
  · exact .inr (mem_smDel h)
  · exact mem_smPut h

/-! ## The quiet device -/

theorem Quiet.ring {s : State} (h : Quiet s) (r : Nat) : (ringOf r s).fetched = [] := by
  unfold ringOf
  rcases smGet_cases {} s.cmd.rings r with h1 | h1
  · rw [h1]
  · exact h.1 _ h1

theorem Quiet.applet {s : State} (h : Quiet s) (i : Nat) : (appletOf i s).wait = .none := by
  unfold appletOf
  rcases smGet_cases {} s.cmd.applets i with h1 | h1
  · rw [h1]
  · exact h.2.1 _ h1

theorem Quiet.onRing {s : State} (h : Quiet s) (r : Nat) (f : Ring → Ring) (hf : ∀ g, g.fetched = [] → (f g).fetched = []) :
    Quiet (onRing r f s) := by
  refine ⟨fun x hx => ?_, h.2⟩
  rcases mem_smSet hx with rfl | h1
  · exact hf _ (h.ring r)
  · exact h.1 _ h1

theorem Quiet.onApplet {s : State} (h : Quiet s) (i : Nat) (f : Applet → Applet)
    (hf : ∀ a, a.wait = .none → (f a).wait = .none) : Quiet (onApplet i f s) := by
  refine ⟨h.1, fun x hx => ?_, h.2.2⟩
  rcases mem_smSet hx with rfl | h1
  · exact hf _ (h.applet i)
  · exact h.2.1 _ h1

theorem Quiet.of_told {s t : State} (h : Quiet s) (hc : Told s t) : Quiet t := by
  have := hc.cmd h.2.1
  unfold Quiet; rw [this]; exact h

theorem Quiet.of_cmd {s t : State} (h : Quiet s) (hc : t.cmd = s.cmd) : Quiet t := by
  unfold Quiet; rw [hc]; exact h

theorem ramPut_cmd (k : CoreId) (a : Nat) (b : Bytes) (s : State) : (ramPut k a b s).cmd = s.cmd := by
  unfold ramPut
  cases k <;> simp only [onMe_cmd] <;> split <;> simp

theorem msix_cmd (v : Nat) (s : State) : (msix v s).cmd = s.cmd := by
  unfold msix
  split
  · rfl
  · split <;> rfl

theorem ringPut_quiet (n : Nat) (r : Reply) (len : Nat) {s : State} (h : Quiet s) : Quiet (ringPut n r len s) := by
  unfold ringPut
  simp only
  split
  · exact h
  · have h1 (t : State) (ht : Quiet t) (f : Ring → Ring) (hf : ∀ g, (f g).fetched = g.fetched) : Quiet (onRing n f t) :=
      Quiet.onRing ht n _ (fun g hg => (hf g).trans hg)
    have h2 : Quiet (emit (.dma ((ringOf n s).rspBase + 16 * (ringOf n s).rspTail)
        (ringEntryBytes r.tag r.status r.desc len (ringOf n s).phase))
        (emit (.ringEntry n (ringOf n s).rspTail r.tag r.status r.desc len (ringOf n s).phase) s)) := h.of_cmd rfl
    split
    · exact h1 _ h2 _ (fun _ => rfl)
    · exact Quiet.of_cmd (h1 _ h2 (fun x => { x with
        rspTail := ((ringOf n s).rspTail + 1) % (ringOf n s).size
        phase := if ((ringOf n s).rspTail + 1) % (ringOf n s).size = 0 then !x.phase else x.phase }) (fun _ => rfl))
        (msix_cmd _ _)

theorem mailboxWrite_quiet (p : Bool) (a : Nat) (b : Bytes) {s : State} (h : Quiet s) : Quiet (mailboxWrite p a b s) := by
  unfold mailboxWrite
  simp only
  generalize hf : onMe _ s = t
  have ht : Quiet t := h.of_cmd (by rw [← hf]; rfl)
  split
  · exact ht
  · exact ht.of_told (raise_told _ _ _)

theorem mailboxPut_quiet (o : Bool) (b : Bytes) {s : State} (h : Quiet s) : Quiet (mailboxPut o b s) := by
  unfold mailboxPut
  simp only
  refine mailboxWrite_quiet _ _ _ (mailboxWrite_quiet _ _ _ ?_)
  generalize List.range _ = l
  have fold (g : Nat → Nat) (x : Nat → Bytes) (t : State) (ht : Quiet t) :
      Quiet (l.foldl (fun s i => mailboxWrite (!o) (g i) (x i) s) t) := by
    induction l generalizing t with
    | nil => exact ht
    | cons i l ih => exact ih _ (mailboxWrite_quiet _ _ _ ht)
  exact fold _ _ s h

theorem sendRiser_quiet (w : Bool) (c : RChan) (q : RQueue) (b : Bytes) {s : State} (h : Quiet s) : Quiet (sendRiser w c q b s) :=
  h.of_told (sendRiser_told w c q b s)

theorem carry_quiet (opc : Nat) (c : Call) (r : Reply) {s : State} (h : Quiet s) : Quiet (carry opc c r s) := by
  unfold carry
  split
  · exact sendRiser_quiet _ _ _ _ (mailboxPut_quiet _ _ (mailboxPut_quiet _ _ (sendRiser_quiet _ _ _ _ h)))
  · exact h

/-- A reply leaves the device quiet. -/
theorem deliver_quiet (r : Reply) {s : State} (h : Quiet s) : Quiet (deliver r s) := by
  unfold deliver
  split
  · split
    · exact h
    · exact ringPut_quiet _ _ _ (h.of_cmd rfl)
  · exact h
  · simp only
    split
    · exact h
    · refine Quiet.onApplet ?_ _ _ (fun a ha => ?_)
      · split
        · exact (h.of_cmd (emit_cmd s _)).of_cmd (ramPut_cmd _ _ _ _)
        · exact h.of_cmd (emit_cmd s _)
      · simp only [ha]
        split <;> simp
  · split
    · exact h.of_cmd rfl
    · exact h

theorem returnCall_of_quiet (k : CoreId) {s : State} (h : Quiet s) : returnCall k s = s := by
  unfold returnCall
  simp [h.applet]

/-- A reply handed back leaves the device quiet. -/
theorem handBack_quiet (opc : Nat) (c : Call) (r : Reply) {s : State} (h : Quiet s) : Quiet (handBack opc c r s) := by
  unfold handBack
  simp only
  refine deliver_quiet r ?_
  have h1 := carry_quiet opc c r h
  have h2 := (h1.of_told (cdcPass_told cdcRequests ((requestBytes opc c).length / 16) _)).of_told
    (cdcPass_told cdcReplies ((replyBytes r).length / 16) _)
  split
  · exact h2
  · exact h2
  · exact h1

/-- On a quiet device the ends of a row do nothing. -/
theorem rowEnd_of_quiet {s : State} (h : Quiet s) :
    returnCall .vault (returnCall .control (takeTurns (backlog s) s)) = s := by
  have hb : backlog s = 0 := by simp [backlog, h.ring, h.2.2]
  simp [hb, takeTurns, returnCall_of_quiet _ h]

/-! ## A command that is Ready -/

theorem sessOf_taken (opc : Nat) (c : Call) (s : State) (v : Via) : sessOf v (taken opc c s) = sessOf v s := by cases v <;> rfl
theorem acceptRefuse_myTurn (opc : Nat) (c : Call) (s : State) : acceptRefuse opc c (myTurn c.via s) = acceptRefuse opc c s := by
  have h1 : sessOf c.via (myTurn c.via s) = sessOf c.via s := by cases c.via <;> rfl
  have h2 : expertMask c.via (myTurn c.via s) = expertMask c.via s := by cases c.via <;> rfl
  unfold acceptRefuse
  rw [h1, h2]
  rfl
theorem agreed_taken (opc : Nat) (c : Call) (s : State) (v : Via) (n : Nat) : agreed v n (taken opc c s) = agreed v n s := by
  simp [agreed, sessOf_taken]

/-- A Ready command is taken and run in its row. -/
theorem serve_ready {opc : Nat} {c : Call} {s : State} (h : Ready opc c s) :
    serve opc c s =
      (let t := run opc c (taken opc c s)
       returnCall .vault (returnCall .control (takeTurns (backlog t) t))) := by
  obtain ⟨⟨hr, ho, hsw, hrc, hrv, hq, hdue⟩, hmay, hv, hst, hcd, hvd, hri, hacc, hct, hmp, hfr⟩ := h
  have hheld : swapHolds { call := c, opcode := opc, wait := .held } s = false := by simp [swapHolds, hrv, hsw]
  have hroom : holdRoom opc c s = true := by simp [holdRoom, hheld]
  have htake : takeCall opc c s = taken opc c s := by
    unfold takeCall
    have hcd' : controlDown (myTurn c.via s) = false := hcd
    have hacc' : acceptRefuse opc c (myTurn c.via s) = none := by rw [← hacc]; exact acceptRefuse_myTurn opc c s
    simp only [hv, hcd', hacc', Bool.not_true, Bool.false_eq_true, if_false]
    simp [taken, myTurn, onCmd, ho]
  have h1 : swapTick (taken opc c s) = taken opc c s := by simp [swapTick, swapPart, taken, hsw]
  have hdue' : NothingDue (taken opc c s) := hdue.of_parts rfl rfl rfl rfl rfl
  have h2 : restartTick (taken opc c s) = taken opc c s := by
    simp [restartTick, restartEnds, taken, cpu, hrc, hrv]
  have h3 : marchWake (taken opc c s) = taken opc c s := by
    unfold marchWake
    rw [show (taken opc c s).cmd.owed = [{ call := c, opcode := opc, wait := .held }] from rfl]
    split <;> rfl
  have h4 : tokensDue (taken opc c s) = taken opc c s := rfl
  have hone : firstStart (taken opc c s) [] (taken opc c s).cmd.owed = some { call := c, opcode := opc, wait := .held } := by
    have hh : swapHolds { call := c, opcode := opc, wait := .held } (taken opc c s) = false := hheld
    have hri' : (taken opc c s).ri.st = .up := hri
    simp [taken, firstStart, startable, hri] at hh ⊢
    exact hh
  have hfr' : featureRefuse opc c (taken opc c s) = none := by
    rw [← hfr]; simp only [featureRefuse, agreed_taken]
  have hcatch : catchUp (taken opc c s) = run opc c (taken opc c s) := by
    unfold catchUp startWaiting
    rw [h1, h2, h3, h4, commitDue_of_nothingDue hdue', framesDue_of_nothingDue hdue', askWaiting_of_nothingDue hdue']
    show startAll run 1 (taken opc c s) = _
    unfold startAll
    rw [hone]
    have hvd' : vaultDown (taken opc c s) = false := hvd
    have hst' : (taken opc c s).plat.stage = .ready := hst
    simp [startAll, startCall, agreed_taken, hct, hmp, hfr', hvd', hst']
  unfold serve settle
  simp [hr, hroom, hmay, htake, hcatch]

/-- The command that is owed alone is the one its reply finds; the reply ends the row over the state it was given. -/
theorem reply_taken (opc : Nat) (c : Call) (st : Nat) (tlvs : List Tlv) (d : State) (h : d.cmd.owed = []) :
    reply c st tlvs (taken opc c d) = answered opc c st tlvs d := by
  have hd : onCmd (fun x => { x with owed := dropOwed c x.owed }) (taken opc c d) =
      onCmd (fun x => { x with turn := (turnNo c.via + 1) % turnCount }) d := by
    simp [taken, onCmd, dropOwed, isOwed, h]
  unfold reply answered
  simp only [show (taken opc c d).cmd.owed = [{ call := c, opcode := opc, wait := .held }] from rfl]
  simp [isOwed, hd]

/-- A Ready command whose operation replies over a state in which the device is quiet again ends with that reply. -/
theorem serve_answers {opc : Nat} {c : Call} {s : State} (h : Ready opc c s) {st : Nat} {tlvs : List Tlv} {d : State}
    (hrun : run opc c (taken opc c s) = reply c st tlvs (taken opc c d)) (hd : d.cmd.owed = []) (hq : Quiet d) :
    serve opc c s = answered opc c st tlvs d := by
  rw [serve_ready h, hrun, reply_taken opc c st tlvs d hd]
  exact rowEnd_of_quiet (handBack_quiet _ _ _ (show Quiet (onCmd (fun x => { x with turn := (turnNo c.via + 1) % turnCount }) d) from hq))

/-- One whose operation makes it wait ends with the command waiting. -/
theorem serve_waits {opc : Nat} {c : Call} {s : State} (h : Ready opc c s) {w : Wait} {d : State}
    (hrun : run opc c (taken opc c s) = waits opc c w d) (hq : Quiet d) : serve opc c s = waits opc c w d := by
  rw [serve_ready h, hrun]
  exact rowEnd_of_quiet (show Quiet (waits opc c w d) from hq)

end Sys2Proof.Claim
end

