-- ==== Sys2Proof/Tests/WitnessCores.lean ====
section
/-! SUPPORT. Concrete states that meet the hypotheses of the statements about the cores, their registers and their debug
port, a clause at a time. -/
set_option Elab.async false
namespace Sys2Proof.Tests
open Sys2Proof.Machine Sys2Proof.Claim

/-- A device that is READY, as a start-up leaves its stage. -/
def up : State := { State.reset with plat := { stage := .ready } }

/-- Calm, NothingDue and Unserved as tests that evaluate. -/
def nothingDue (s : State) : Bool :=
  txnNos.all (fun k => !((txnOf k s).st == .armed && decide ((txnOf k s).instant ≤ ptp16 s))) &&
    s.fp.egr.all (fun x => !(x.stage == .working && decide (x.readyAt ≤ s.clk.now)) && !releaseDue x s) &&
    s.fp.ing.all (fun x => !verdictDue x s) && s.ev.waitKey.isEmpty

def calm (s : State) : Bool :=
  running s && s.cmd.owed.isEmpty && s.plat.swap.isNone && s.cpuC.restarting.isNone && s.cpuV.restarting.isNone &&
    s.cmd.rings.all (fun r => r.2.fetched.isEmpty) && s.cmd.applets.all (fun a => a.2.wait == .none) && s.cmd.stuck.isEmpty &&
    nothingDue s

def unserved (n : Nat) (s : State) : Bool :=
  match smFind s.clk.turns n with
  | some (t, _) => t != s.clk.now
  | none => true

theorem nothingDue_iff (s : State) : NothingDue s ↔ nothingDue s = true := by
  simp [NothingDue, nothingDue, and_assoc]
  simp only [← imp_iff_not_or]

theorem calm_iff (s : State) : Calm s ↔ calm s = true := by
  simp [Calm, Quiet, calm, nothingDue_iff, and_assoc]

theorem unserved_iff (n : Nat) (s : State) : Unserved n s ↔ unserved n s = true := by
  unfold Unserved unserved
  split <;> rename_i h <;> simp [h]

/-- The same with core registers changed on both cores. -/
def upCpu (f : Cpu → Cpu) : State := onCpu .vault f (onCpu .control f up)

/-- One entry over the whole map, every right granted, its pages of the class given and writes posted. -/
def openAll (cls : Bool) : Valve :=
  { valid := true, limit := 0xFFFFFF, mset := 0xFFFF, kr := true, kw := true, kx := true, tr := true, tw := true, tx := true
    sealed := cls, order := 1 }

def withValve (e : Valve) (s : State) : State := { s with vtP := [(3, e)], vtW := [(3, e)] }

/-- Interrupts unmasked. -/
def unmask (c : Cpu) : Cpu := { c with mask := 0 }
/-- Tenant privilege, as an ERET of a keeper leaves it. -/
def tenant (c : Cpu) : Cpu := { c with mask := 0, priv := false, ppriv := false, tid := 1 }

def upKeeper : State := upCpu unmask
def upSealed : State := withValve (openAll true) upKeeper
def upTenant : State := withValve (openAll false) (upCpu tenant)
/-- At LE of an active loop of one instruction. -/
def upAtEnd : State := upCpu (fun c => { c with mask := 0, lc := 2, ls := 0x200, le := 0x200 })

/-- TwoOperandResults, OneOperandResults, ImmediateResults, DivisionLaws, AccumulatorInstructions, JumpsAndLinks,
SpecialRegisterReads and SpecialRegisterWrites: a fetched instruction, of both cores and both classes. -/
theorem witness_executes : Executes .control false up ∧ Executes .vault false up ∧ Executes .control true upSealed ∧
    Executes .vault true upSealed ∧ Executes .vault false upTenant :=
  ⟨⟨rfl, rfl⟩, ⟨rfl, rfl⟩, ⟨rfl, rfl⟩, ⟨rfl, rfl⟩, ⟨rfl, rfl⟩⟩

/-- CompareAndBranch and JumpsAndLinks: away from LE, taken (equal registers) and not taken, out of a loop and inside it. -/
theorem witness_CompareAndBranch :
    (Executes .control false up ∧ ¬ AtEnd (cpu .control up) ∧ (cpu .control up).get 1 = (cpu .control up).get 2) ∧
    (let s := upCpu (fun c => { c with lc := 5, ls := 0x200, le := 0x204, regs := c.regs.set 1 0xFFFFFFFF })
     Executes .vault false s ∧ ¬ AtEnd (cpu .vault s) ∧ (cpu .vault s).get 1 ≠ (cpu .vault s).get 2 ∧
       ((cpu .vault s).get 1).toInt < ((cpu .vault s).get 2).toInt ∧
       ((cpu .vault s).get 2).toNat < ((cpu .vault s).get 1).toNat) :=
  ⟨⟨⟨rfl, rfl⟩, by unfold AtEnd; decide, rfl⟩, ⟨rfl, rfl⟩, by unfold AtEnd; decide, by decide, by decide, by decide⟩

/-- DisciplineFaults: sealed code, an active loop, and LE of one in both classes. -/
theorem witness_DisciplineFaults :
    (Executes .control true upSealed ∧ Unmasked .control upSealed) ∧
    (Executes .vault false upAtEnd ∧ Unmasked .vault upAtEnd ∧ AtEnd (cpu .vault upAtEnd) ∧ (cpu .vault upAtEnd).lc ≠ 0) ∧
    (Executes .vault true (withValve (openAll true) upAtEnd) ∧ AtEnd (cpu .vault (withValve (openAll true) upAtEnd))) :=
  ⟨⟨⟨rfl, rfl⟩, by unfold Unmasked; decide⟩, ⟨⟨rfl, rfl⟩, by unfold Unmasked; decide, by unfold AtEnd; decide, by decide⟩,
    ⟨rfl, rfl⟩, by unfold AtEnd; decide⟩

/-- HardwareLoops: no loop active with END 1, and END 0 unmasked. -/
theorem witness_HardwareLoops : Executes .control false upKeeper ∧ (cpu .control upKeeper).lc = 0 ∧ (1 : BitVec 12) ≠ 0 ∧
    Unmasked .control upKeeper := ⟨⟨rfl, rfl⟩, rfl, by decide, by unfold Unmasked; decide⟩

/-- MacFetchAccumulates: PX at the first word of X memory and PY at the last of Y memory, on both cores. -/
theorem witness_MacFetchAccumulates :
    (let s := upCpu (fun c => { c with px := 0x100000, py := 0x17FFFC })
     Executes .vault false s ∧ inX .vault 0x100000 = true ∧ inY .vault 0x17FFFC = true ∧ Granted .vault 0x100000 .read s ∧
       Granted .vault 0x17FFFC .read s ∧ ReadsClean .vault 0x100000 s ∧ ReadsClean .vault 0x17FFFC s) ∧
    (let s := upCpu (fun c => { c with px := 0x10000000, py := 0x10100000 })
     Executes .control false s ∧ inX .control 0x10000000 = true ∧ inY .control 0x10100000 = true ∧
       Granted .control 0x10000000 .read s ∧ ReadsClean .control 0x10000000 s) :=
  ⟨⟨⟨rfl, rfl⟩, by decide, by decide, ⟨_, _, _, rfl⟩, ⟨_, _, _, rfl⟩, fun _ _ _ h => (nomatch h), fun _ _ _ h => (nomatch h)⟩,
    ⟨rfl, rfl⟩, by decide, by decide, ⟨_, _, _, rfl⟩, fun _ _ _ h => (nomatch h)⟩

/-- LoadResults: the last word of control RAM, ROM at 0, flash, MRAM, OTP, BBRAM and the cistern window. -/
theorem witness_LoadResults :
    (Executes .control false up ∧ Granted .control 0x101FFFFC .read up ∧ ReadsClean .control 0x101FFFFC up ∧
      ReadsClean .control 0 up ∧ ReadsClean .control 0xA0000000 up) ∧
    Executes .vault false up ∧ ReadsClean .vault 0x1000000 up ∧ ReadsClean .vault 0x23FFFFC up ∧ ReadsClean .vault 0x3000000 up ∧
      ReadsClean .vault 0x3001000 up :=
  ⟨⟨⟨rfl, rfl⟩, ⟨_, _, _, rfl⟩, fun _ _ _ h => (nomatch h), fun _ _ _ h => (nomatch h), fun _ _ h => (nomatch h)⟩,
    ⟨rfl, rfl⟩, ⟨rfl, rfl, fun h => (nomatch h)⟩, fun h => (nomatch h), fun _ _ h => (nomatch h), fun _ _ h => (nomatch h)⟩

/-- StoreResults and AtomicResults: granted words at both ends of control RAM, and in vault RAM and the mailbox. -/
theorem witness_StoreResults :
    (Executes .control false up ∧ Granted .control 0x10000000 .write up ∧ Granted .control 0x10000000 .read up ∧
      InRam .control 0x10000000 ∧ InRam .control 0x101FFFFF ∧ ReadsClean .control 0x10000000 up) ∧
    Executes .vault false up ∧ Granted .vault 0x180000 .write up ∧ InRam .vault 0x180000 ∧ InRam .vault 0x17FFFF :=
  ⟨⟨⟨rfl, rfl⟩, ⟨_, _, _, rfl⟩, ⟨_, _, _, rfl⟩, .inl ⟨_, rfl⟩, .inl ⟨_, rfl⟩, fun _ _ _ h => (nomatch h)⟩,
    ⟨rfl, rfl⟩, ⟨_, _, _, rfl⟩, .inr (.inr ⟨_, rfl, rfl⟩), .inr (.inl ⟨_, rfl⟩)⟩

/-- StoreResults and AtomicResults: nobody else writes the word; and port M has written the mailbox word in this clock. -/
theorem witness_StoreResults_alone : AloneAt .control 0x10000000 4 up ∧ AloneAt .vault 0x180000 4 up ∧
    (let s := { up with me := { mbxNow := (0, [(true, 8, 8)]) } }
     placeOf .vault 0x180008 = .mailbox 8 ∧ mailboxMet false 8 4 s ≠ [] ∧ AloneAt .vault 0x180010 4 s) := by
  refine ⟨?_, ?_, by decide, by decide, ?_⟩ <;> intro o h
  · exact nomatch h
  · cases h; decide
  · cases h; decide

/-- AccessFaults: a misaligned word, an address with nothing behind it, and a page the table denies, to a tenant. -/
theorem witness_AccessFaults :
    (Executes .control false upKeeper ∧ Unmasked .control upKeeper ∧ ¬ AtEnd (cpu .control upKeeper) ∧
      (BitVec.ofInt 32 (((cpu .control upKeeper).get 0).toNat + (0x20000 : BitVec 18).toInt)).toNat % 4 = 0 ∧
      placeOf .control (BitVec.ofInt 32 (((cpu .control upKeeper).get 0).toNat + (0x1FFFF : BitVec 18).toInt)).toNat ≠ .unpopulated) ∧
    placeOf .control 0x20000 = .unpopulated ∧
    (let s := withValve { openAll false with tr := false, tw := false } (upCpu tenant)
     Executes .vault false s ∧ Unmasked .vault s ∧ coreCheck .vault 0x100000 .read s = .deny false ∧
       coreCheck .vault 0x100000 .write s = .deny false) := by
  refine ⟨⟨⟨rfl, rfl⟩, ?_, ?_, ?_, ?_⟩, ?_, ⟨rfl, rfl⟩, ?_, ?_, ?_⟩
  · unfold Unmasked; decide
  · unfold AtEnd; decide
  · decide
  · decide
  · decide
  · unfold Unmasked; decide
  · decide
  · decide

/-- BitInstructions: the last bit of bit RAM, the last INTC_PEND alias, and a bit above, each readable and writable. -/
theorem witness_BitInstructions :
    Executes .vault false up ∧ (bitMem .vault, 0xFFF / 64) ∉ up.me.faulty ∧ Granted .vault (bitBase .vault + 0xFFF) .read up ∧
    Granted .vault (bitBase .vault + 0xFFF) .write up ∧ Granted .vault (bitBase .vault + 0x10FF) .write up ∧
    Granted .vault (bitBase .vault + 0x1100) .write up :=
  ⟨⟨rfl, rfl⟩, fun h => (nomatch h), ⟨_, _, _, rfl⟩, ⟨_, _, _, rfl⟩, ⟨_, _, _, rfl⟩, ⟨_, _, _, rfl⟩⟩

/-- RandomLoads: a generator that serves, and one that has lost both banks. -/
theorem witness_RandomLoads :
    (let s := { up with nw := { bank0 := { st := .inService }, drbg := some ⟨0, 0, 0, 0⟩ } }
     Executes .vault false s ∧ Granted .vault 0x40007000 .read s ∧ ((drbgGenerate 4 s).1.map List.length) = some 4) ∧
    (let s := { upKeeper with nw := { bank0 := { st := .failed }, bank1 := { st := .failed }, lost := true } }
     Executes .vault false s ∧ Granted .vault 0x40007000 .read s ∧ s.nw.drbg = none ∧ s.nw.lost = true ∧ Unmasked .vault s ∧
       ¬ AtEnd s.cpuV) :=
  ⟨⟨⟨rfl, rfl⟩, ⟨_, _, _, rfl⟩, by decide +kernel⟩,
    ⟨rfl, rfl⟩, ⟨_, _, _, rfl⟩, rfl, rfl, by unfold Unmasked; decide, by unfold AtEnd; decide⟩

/-- CallsAndReturns: an enabled entry with SC 0, SC 1, and a keeper. -/
theorem witness_CallsAndReturns :
    (let s := upCpu (fun c => { tenant c with sentry := c.sentry.set 7 0x1001 })
     let s := withValve (openAll false) s
     Executes .control false s ∧ ¬ AtEnd (cpu .control s) ∧ (cpu .control s).sc = false ∧
       ((cpu .control s).sentry[7]).getLsbD 0 = true) ∧
    (let s := upCpu (fun c => { c with sc := true })
     Executes .vault false s ∧ (cpu .vault s).sc = true ∧ (cpu .vault s).priv = true ∧ (cpu .vault s).fault = none) :=
  ⟨⟨⟨rfl, rfl⟩, by unfold AtEnd; decide, rfl, by decide⟩, ⟨rfl, rfl⟩, rfl, rfl, rfl⟩

/-- A keeper that has taken a fault of tenant 1, and is about to return to the tenant of a number. -/
def faulted (tid : BitVec 4) : State :=
  upCpu (fun c => { c with ppriv := false, tid := tid, fault := some ⟨1, 0x1000, 4, 0, 0x20001⟩ })

/-- CallsAndReturns and FencesAndWaiting: a return to the tenant of the fault, one to another, and a wait. -/
theorem witness_CallsAndReturns_fault :
    (Executes .control false (faulted 1) ∧ ¬ AtEnd (cpu .control (faulted 1)) ∧ (cpu .control (faulted 1)).priv = true ∧
      (cpu .control (faulted 1)).ppriv = false ∧ ((cpu .control (faulted 1)).fault.map (·.tid)) = some (cpu .control (faulted 1)).tid) ∧
    (Executes .vault false (faulted 2) ∧ (cpu .vault (faulted 2)).priv = true ∧
      ((cpu .vault (faulted 2)).fault.map (·.tid)) ≠ some (cpu .vault (faulted 2)).tid) :=
  ⟨⟨⟨rfl, rfl⟩, by unfold AtEnd; decide, rfl, rfl, rfl⟩, ⟨rfl, rfl⟩, rfl, by decide⟩

/-- PrivilegeFaults: a tenant; SC 0 with no entry enabled; SC 1. -/
theorem witness_PrivilegeFaults :
    (Executes .control false upTenant ∧ Unmasked .control upTenant ∧ ¬ AtEnd (cpu .control upTenant) ∧
      (cpu .control upTenant).priv = false ∧ (cpu .control upTenant).sc = false ∧
      ((cpu .control upTenant).sentry[0]).getLsbD 0 = false) ∧
    (let s := upCpu (fun c => { c with mask := 0, sc := true })
     Executes .vault false s ∧ Unmasked .vault s ∧ (cpu .vault s).sc = true) :=
  ⟨⟨⟨rfl, rfl⟩, by unfold Unmasked; decide, by unfold AtEnd; decide, rfl, rfl, by decide⟩,
    ⟨rfl, rfl⟩, by unfold Unmasked; decide, rfl⟩

/-- Escalation: MASK 6 and 7 with ESC 0, a misaligned address in a register, and ESC 1 with no swap. -/
theorem witness_Escalation :
    (let s := upCpu (fun c => { c with mask := 6, regs := c.regs.set 1 1 })
     Executes .control false s ∧ ¬ AtEnd (cpu .control s) ∧ ((cpu .control s).get 1).toNat % 4 ≠ 0 ∧
       6 ≤ (cpu .control s).mask.toNat ∧ (cpu .control s).esc = false ∧ (cpu .control s).sc = false ∧
       faultLevel 4 ≤ (cpu .control s).mask.toNat) ∧
    (let s := upCpu (fun c => { c with esc := true })
     Executes .vault false s ∧ ¬ AtEnd (cpu .vault s) ∧ (cpu .vault s).esc = true ∧ (cpu .vault s).priv = true ∧
       s.plat.swap = none ∧ (recOf .vault s).trial = false ∧ (cpu .vault s).fault = none) :=
  ⟨⟨⟨rfl, rfl⟩, by unfold AtEnd; decide, by decide, by decide, rfl, rfl, by decide⟩,
    ⟨rfl, rfl⟩, by unfold AtEnd; decide, rfl, rfl, rfl, rfl, rfl⟩

/-- FencesAndWaiting: no interrupt pending, and source 0 pending above MASK 0. -/
theorem witness_FencesAndWaiting :
    (Executes .control false up ∧ intcPending .control up = 0) ∧
    (let s := onEv (fun e => { e with intcPendC := 1, intcLvlC := [(0, 1)] }) upKeeper
     Executes .control false s ∧ (cpu .control s).mask.toNat < intcLevel .control 0 s ∧ intcLevel .control 0 s ≤ 7 ∧
       (intcPending .control s).getLsbD 0 = true) :=
  ⟨⟨⟨rfl, rfl⟩, rfl⟩, ⟨rfl, rfl⟩, by decide, by decide, by decide⟩

/-- HaltsAndRestarts: a scope over each core; no restart before; a restart that ended exactly 1 s ago. -/
theorem witness_HaltsAndRestarts :
    (let s := { up with tap := { scope := 6 } }
     Executes .control false s ∧ scopeCovers .control s = true ∧ scopeCovers .vault s = true ∧ s.cmd.owed = [] ∧
       s.cl.execAt = none) ∧
    (running up = true ∧ (cpu .vault up).stopped = false ∧ (cpu .vault up).halted = false ∧
      (cpu .vault up).restarting = none ∧ (cpu .vault up).restartAt = none) ∧
    (let s := onClk (fun c => { c with now := 250000000 }) (upCpu (fun c => { c with restartAt := some 0 }))
     running s = true ∧ (cpu .vault s).restartAt = some 0 ∧ s.clk.now ≤ 0 + 250000000 ∧ s.plat.swap = none ∧
       (recOf .vault s).trial = false) :=
  ⟨⟨⟨rfl, rfl⟩, by decide, by decide, rfl, rfl⟩, ⟨by decide, rfl, rfl, rfl, rfl⟩, by decide, rfl, by decide, rfl, rfl⟩

/-- ReservedEncodings: unmasked, no scope, and a reserved word of each kind. -/
theorem witness_ReservedEncodings : Executes .vault false upKeeper ∧ Unmasked .vault upKeeper ∧ wordReserved 0 = true ∧
    wordReserved 0xFFFFFFFF = true ∧ wordReserved 0x84000000 = true ∧ scopeCovers .vault upKeeper = false :=
  ⟨⟨rfl, rfl⟩, by unfold Unmasked; decide, by decide, by decide, by decide, by decide⟩

/-- InterruptEntryChoosesTop: two sources pending of which one is the top; none pending. -/
theorem witness_InterruptEntryChoosesTop :
    (let s := onEv (fun e => { e with intcPendV := 3, intcLvlV := [(0, 1), (1, 7)] }) upKeeper
     running s = true ∧ (cpu .vault s).stopped = false ∧ (cpu .vault s).halted = false ∧
       (intcPending .vault s).getLsbD 1 = true ∧ intcLevel .vault 1 s = 7 ∧ intcLevel .vault 0 s = 1 ∧
       (cpu .vault s).mask.toNat < 1) ∧
    running up = true ∧ intcPending .vault up = 0 := by decide

/-- ImpreciseBusErrors: a granted region with ORDER 1, and one with ORDER 0. -/
theorem witness_ImpreciseBusErrors :
    (running upSealed = true ∧ coreCheck .control 0x10000000 .write upSealed = .grant true 0 1 ∧ Unmasked .control upSealed) ∧
    coreCheck .control 0x10000000 .write up = .grant false 0 0 := by
  refine ⟨⟨by decide, by decide, ?_⟩, by decide⟩
  unfold Unmasked
  decide

/-- PrivilegeMovesOnlyByEntry, TenantSavedIsInvariant, TenantLeavesValveTables and CoresAreSeparate: a tenant's SCALL and
a keeper's ERET, in states of which TenantSaved holds. -/
theorem witness_TenantSaved : TenantSaved upTenant ∧ TenantSaved up ∧ (cpu .control upTenant).priv = false ∧
    (cpu .control up).priv = true ∧ up.plat.swap = none ∧ coreOf (.scall .control 0) = some .control ∧
    (∃ t, exec (.scall .control 0) upTenant = .next t) ∧ ∃ t, exec (.eret .control) up = .next t :=
  ⟨fun k => by cases k <;> decide, fun k => by cases k <;> decide, rfl, rfl, rfl, rfl, ⟨_, rfl⟩, ⟨_, rfl⟩⟩

/-- A state in which the debug port may act on both dies. -/
def debugging : State := { up with tap := { ins := .debug, scope := 6 } }

/-- DebugRefusesLockedBlocks: the block of an address under a locked entry that grants everything. -/
theorem witness_DebugRefusesLockedBlocks :
    let s := withValve { openAll false with lock := true, base := 0x100000, limit := 0x100000 } debugging
    running s = true ∧ s.tap.ins = .debug ∧ placeOf .control 0x10000000 ≠ .unpopulated ∧ s.tap.scope.getLsbD 1 = true ∧
      ∃ n e, (n, e) ∈ valves .control s ∧ e.valid = true ∧ e.lock = true ∧ e.base.toNat ≤ 0x10000000 / 256 ∧
        0x10000000 / 256 ≤ e.limit.toNat :=
  ⟨by decide, rfl, by decide, by decide, 3, _, List.mem_singleton.mpr rfl, rfl, rfl, by decide, by decide⟩

/-- DebugReadsAndWritesRam: a word of vault RAM that an entry grants to the debug master. -/
theorem witness_DebugReadsAndWritesRam :
    let s := withValve (openAll false) debugging
    running s = true ∧ s.tap.ins = .debug ∧ s.tap.scope.getLsbD 2 = true ∧ InRam .vault 0x100000 ∧ ReadsClean .vault 0x100000 s ∧
      AloneAt .vault 0x100000 4 s ∧ ∀ r, ∃ cls cache order, valveCheck (valves .vault s) 15 (!s.tap.scope.getLsbD 3) 0 0x100000 r = .grant cls cache order :=
  ⟨by decide, rfl, by decide, .inr (.inl ⟨_, rfl⟩), fun _ _ _ h => (nomatch h), fun _ h => (nomatch h), fun r => by cases r <;> exact ⟨_, _, _, rfl⟩⟩

/-- EventRegisterWrites: the host reaches the device and the keepers act; a value of the core's own range and one outside. -/
theorem witness_EventRegisterWrites : hostReaches up = true ∧ keeperActs .control up = true ∧ keeperActs .vault up = true ∧
    up.ri.st = .up ∧ (192 ≤ (192 : Word).toNat % 256) ∧ ¬ 192 ≤ (191 : Word).toNat % 256 := by decide

/-- RegisterWrites: a calm device the host reaches, nobody served in this tick; a keeper's writes to a vendor block, an
interrupt and a local register; ESC 0, and ESC 1 with no image on trial. -/
theorem witness_RegisterWrites : Calm up ∧ Unserved (turnEvCfg * 2 ^ 32) up ∧ pcieDown up = false ∧ keeperActs .vault up = true ∧
    placeOf .vault 0x40009000 = .reg .vendor 0 ∧ placeOf .vault 0x40002FF0 = .reg .valve 0xFF0 ∧
    placeOf .vault 0x4000111C = .reg .intc 0x11C ∧ placeOf .vault 0x4000403C = .reg .sump 0x3C ∧
    placeOf .vault 0x40003000 = .reg .event 0 ∧ placeOf .vault 0x40007000 = .reg .noise 0 ∧
    placeOf .vault 0x4000000C = .reg .local_ 0xC ∧ (cpu .vault up).esc = false ∧
    (cpu .vault (upCpu (fun c => { c with esc := true }))).esc = true ∧ (recOf .vault up).trial = false := by
  simp only [calm_iff, unserved_iff]
  decide

/-- ValveCommitAndLock: a table in canonical form, with an entry that is locked and one that is not. -/
theorem witness_ValveCommitAndLock :
    let s := withValve { openAll false with lock := true } up
    keeperActs .control s = true ∧ smWf ({} : Valve) (valves .control s) = true ∧ (valveAt .control 3 s).lock = true ∧
      (valveAt .control 255 s).lock = false ∧ (valveAt .control 255 s).stage1 = none ∧ (valveAt .control 255 s).stage2 = none := by
  decide

/-- StepTakesFront: a calm device with an empty queue on which nothing falls due, and one in reset. -/
theorem witness_StepTakesFront : (up.pending = [] ∧ Calm up ∧ NothingDue (advance 1 up)) ∧
    (State.reset.pending = [] ∧ running State.reset = false ∧ State.reset.plat.swap = none ∧ State.reset.cpuC.restarting = none ∧
      State.reset.cpuV.restarting = none) := by
  simp only [calm_iff, nothingDue_iff]
  decide

/-- MemoryFormIsInvariant: a canonical memory that lists bytes, and a step that answers. -/
theorem witness_MemoryFormIsInvariant :
    let s := { up with me := { ctrlRam := [(0, 1), (7, 255)] } }
    Memory.wf s.me = true ∧ ∃ t, step s = .next t := ⟨by decide, _, rfl⟩

end Sys2Proof.Tests
end

