-- ==== Sys2Proof/Tests/WitnessCommands.lean ====
section
/-! SUPPORT. Concrete states and requests that meet the hypotheses of the statements about the command interpreter, a clause
at a time. Signatures are checked by opaque functions of Config, so a request that carries an authority object meets its
clause for a part whose verification accepts that object; nothing else is assumed. -/
set_option Elab.async false
namespace Sys2Proof.Tests
open Sys2Proof.Machine Sys2Proof.Claim

/-! ## States and requests -/

/-- Zero bytes. -/
def zs (n : Nat) : Bytes := List.replicate n 0

/-- The hash of an owner's keys that are all zero bytes. -/
def ownHash : Bytes := sha384 (zs 97 ++ zs 1952)

/-- A READY part in service whose SPI session has agreed protocol 3.0 with every feature, with expert forms granted on it. -/
def host : State := { up with
  cmd := { spiSess := { negotiated := true, maj := 3, min := 0, feat := 255 } }
  pol := { expertSpi := 0x3FFF }
  nv := { State.reset.nv with life := .operational, ownerHash := some ownHash } }

/-- A request on SPI with these parameters, basic or expert. -/
def call (x : Bool) (l : List (Nat × Bytes)) : Call :=
  { via := .spi, desc := 0, pkt := {
      major := 3, minor := 0, tag := 1, fence := false, expert := x
      tlvs := l.map (fun e => { ty := e.1, crit := false, val := e.2 }) } }

/-- A number as a parameter of n bytes. -/
def n1 (ty v : Nat) : Nat × Bytes := (ty, natLE 1 v)
def n2 (ty v : Nat) : Nat × Bytes := (ty, natLE 2 v)
def n4 (ty v : Nat) : Nat × Bytes := (ty, natLE 4 v)
def n8 (ty v : Nat) : Nat × Bytes := (ty, natLE 8 v)

/-- Ready as a test that evaluates. -/
def ready (opc : Nat) (c : Call) (s : State) : Bool :=
  calm s && mayTake c.via s && viaOpen c.via s && s.plat.stage == .ready && !controlDown s && !vaultDown s && s.ri.st == .up &&
    (acceptRefuse opc c s).isNone && (checkTlvs c.pkt.expert (agreed c.via 7 s) (params opc) c.pkt.tlvs [] 16).isNone &&
    (missingPar (params opc) c.pkt).isNone && (featureRefuse opc c s).isNone

theorem ready_iff (opc : Nat) (c : Call) (s : State) : Ready opc c s ↔ ready opc c s = true := by
  simp [Ready, ready, calm_iff, and_assoc]

/-! ## Authority objects -/

/-- An authority object of the owner, or of root slot 0, with keys and signatures of zero bytes, and its bytes (R353). -/
def obj (kind signer : Nat) (body : Bytes) : AuthObj :=
  { kind := kind, fmt := 1, signer := signer, rsv := true, bodyLen := body.length, domain := zs 16, spubEc := zs 97
    spubPq := zs 1952, body := body, sigEc := zs 96, sigPq := zs 3309 }
def objData (kind signer : Nat) (body : Bytes) : Bytes :=
  natLE 1 kind ++ [1] ++ natLE 1 signer ++ [0] ++ natLE 4 body.length ++ zs 16 ++ zs 97 ++ zs 3 ++ zs 1952 ++ body ++ zs 96 ++ zs 3309

/-! The object's bytes give the object back. -/

theorem length_zs (n : Nat) : (zs n).length = n := List.length_replicate

theorem parse_objData (kind signer : Nat) (body : Bytes) (hk : kind < 256) (hs : signer < 256) (hb : body.length < 2 ^ 32) :
    parseAuth (objData kind signer body) = some (obj kind signer body) := by
  have e : objData kind signer body = natLE 1 kind ++ ([1] ++ (natLE 1 signer ++ ([0] ++ (natLE 4 body.length ++ (zs 16 ++ (zs 97 ++
      (zs 3 ++ (zs 1952 ++ (body ++ (zs 96 ++ zs 3309)))))))))) := by simp only [objData, List.append_assoc]
  have hl : (objData kind signer body).length = 2076 + body.length + 96 + 3309 := by
    rw [e]; simp only [List.length_append, length_natLE, length_zs, List.length_cons, List.length_nil]; omega
  have s0 : slice (objData kind signer body) 0 1 = natLE 1 kind := by rw [e]; exact slice_here _ _ _ (length_natLE _ _)
  have s1 : slice (objData kind signer body) 1 1 = [1] := by
    rw [e, slice_skip _ _ _ _ (by simp [length_natLE])]; exact slice_here _ _ _ rfl
  have t2 : ∀ off len, 4 ≤ off → slice (objData kind signer body) off len = slice (natLE 4 body.length ++ (zs 16 ++ (zs 97 ++
      (zs 3 ++ (zs 1952 ++ (body ++ (zs 96 ++ zs 3309))))))) (off - 4) len := by
    intro off len h
    rw [e, slice_skip _ _ _ _ (by simp only [length_natLE]; omega), slice_skip _ _ _ _ (by simp only [length_natLE, List.length_cons, List.length_nil]; omega),
      slice_skip _ _ _ _ (by simp only [length_natLE, List.length_cons, List.length_nil]; omega),
      slice_skip _ _ _ _ (by simp only [length_natLE, List.length_cons, List.length_nil]; omega)]
    simp only [length_natLE, List.length_cons, List.length_nil, Nat.sub_sub]
  have s2 : slice (objData kind signer body) 2 1 = natLE 1 signer := by
    rw [e, slice_skip _ _ _ _ (by simp [length_natLE]), slice_skip _ _ _ _ (by simp [length_natLE])]
    simp only [length_natLE, List.length_cons, List.length_nil]
    exact slice_here _ _ _ (length_natLE _ _)
  have s3 : slice (objData kind signer body) 3 1 = [0] := by
    rw [e, slice_skip _ _ _ _ (by simp [length_natLE]), slice_skip _ _ _ _ (by simp [length_natLE]), slice_skip _ _ _ _ (by simp [length_natLE])]
    simp only [length_natLE, List.length_cons, List.length_nil]
    exact slice_here _ _ _ rfl
  have s4 : slice (objData kind signer body) 4 4 = natLE 4 body.length := by
    rw [t2 _ _ (by omega)]; exact slice_here _ _ _ (length_natLE _ _)
  have t8 : ∀ off len, 8 ≤ off → slice (objData kind signer body) off len =
      slice (zs 16 ++ (zs 97 ++ (zs 3 ++ (zs 1952 ++ (body ++ (zs 96 ++ zs 3309)))))) (off - 8) len := by
    intro off len h
    rw [t2 _ _ (by omega), slice_skip _ _ _ _ (by rw [length_natLE]; omega), length_natLE, Nat.sub_sub]
  have t24 : ∀ off len, 24 ≤ off → slice (objData kind signer body) off len =
      slice (zs 97 ++ (zs 3 ++ (zs 1952 ++ (body ++ (zs 96 ++ zs 3309))))) (off - 24) len := by
    intro off len h
    rw [t8 _ _ (by omega), slice_skip _ _ _ _ (by rw [length_zs]; omega), length_zs, Nat.sub_sub]
  have t121 : ∀ off len, 121 ≤ off → slice (objData kind signer body) off len =
      slice (zs 3 ++ (zs 1952 ++ (body ++ (zs 96 ++ zs 3309)))) (off - 121) len := by
    intro off len h
    rw [t24 _ _ (by omega), slice_skip _ _ _ _ (by rw [length_zs]; omega), length_zs, Nat.sub_sub]
  have t124 : ∀ off len, 124 ≤ off → slice (objData kind signer body) off len =
      slice (zs 1952 ++ (body ++ (zs 96 ++ zs 3309))) (off - 124) len := by
    intro off len h
    rw [t121 _ _ (by omega), slice_skip _ _ _ _ (by rw [length_zs]; omega), length_zs, Nat.sub_sub]
  have t2076 : ∀ off len, 2076 ≤ off → slice (objData kind signer body) off len = slice (body ++ (zs 96 ++ zs 3309)) (off - 2076) len := by
    intro off len h
    rw [t124 _ _ (by omega), slice_skip _ _ _ _ (by rw [length_zs]; omega), length_zs, Nat.sub_sub]
  have n1 (v : Nat) (h : v < 256) : leNat (natLE 1 v) = v := by rw [leNat_natLE]; exact Nat.mod_eq_of_lt h
  have n4 : leNat (natLE 4 body.length) = body.length := by rw [leNat_natLE]; exact Nat.mod_eq_of_lt hb
  unfold parseAuth
  simp only [s4, n4, hl]
  rw [if_neg (by simp)]
  simp only [s0, s1, s2, s3, n1 _ hk, n1 _ hs]
  rw [t121 121 3 (by omega), t8 8 16 (by omega), t24 24 97 (by omega), t124 124 1952 (by omega), t2076 2076 _ (by omega),
    t2076 (2076 + body.length) 96 (by omega), t2076 (2172 + body.length) 3309 (by omega)]
  have d1 : 2076 + body.length - 2076 = body.length := by omega
  have d2 : 2172 + body.length - 2076 - body.length = 96 := by omega
  rw [d1, slice_skip body _ body.length 96 (le_refl _), slice_skip body _ (2172 + body.length - 2076) 3309 (by omega), d2,
    slice_skip (zs 96) _ 96 3309 (by rw [length_zs]), length_zs]
  simp only [Nat.sub_self]
  rw [slice_here _ _ _ (length_zs 3), slice_here _ _ _ (length_zs 16), slice_here _ _ _ (length_zs 97), slice_here _ _ _ (length_zs 1952),
    slice_here body _ _ rfl, slice_here _ _ _ (length_zs 96)]
  have l : slice (zs 3309) 0 3309 = zs 3309 := by unfold slice; rw [List.drop_zero, List.take_of_length_le (by rw [length_zs])]
  rw [l]
  rfl

/-- The part's opaque verification accepts both signatures of the object. -/
def Verified (o : AuthObj) : Prop :=
  Config.ecdsaVerify 4 o.spubEc (authSigned o) o.sigEc = true ∧ Config.mlDsaVerify o.spubPq (authSigned o) o.sigPq = true

/-- Everything of acceptance but the two signatures. -/
def presentable (o : AuthObj) (s : State) : Prop :=
  o.fmt = 1 ∧ o.rsv = true ∧ signerFits o s = true ∧ signerHash o s = some (sha384 (o.spubEc ++ o.spubPq))

theorem accepted_of_verified {o : AuthObj} {s : State} (h : presentable o s) (v : Verified o) : accepted o s = true := by
  obtain ⟨h1, h2, h3, h4⟩ := h
  simp [accepted, h1, h2, h3, h4, v.1, v.2]

theorem authArg_of_verified {c : Call} {ty : Nat} {kinds : List Nat} {s : State} {o : AuthObj}
    {b : Bytes} (hc : argOf c ty = some b) (hp : parseAuth b = some o) (hk : kinds.contains o.kind = true) (h : presentable o s) (v : Verified o) :
    authArg c ty kinds s = some o := by
  simp only [authArg, hc, Option.bind_some, hp, hk, accepted_of_verified h v, Bool.and_self, if_true]

theorem tokenArg_of_verified {c : Call} {ty kind : Nat} {s : State} {o : AuthObj} (ha : authArg c ty [kind] s = some o)
    (hm : tokenMalformed kind o.body = false) (hl : (lcctr s).isNone = false) (hf : tokenFresh (tokenOf o.body) s = true) :
    tokenArg c ty kind s = .ok (tokenOf o.body) := by
  simp [tokenArg, ha, hm, hl, hf]

/-- A package that a static key unwraps opens. -/
theorem openPackage_of_key {c : Call} {o : AuthObj} {s : State} {x : Bytes} {p : KeyPkg}
    (h : 1148 ≤ o.body.length ∧ leNat (slice o.body 8 1) = 1 ∧ leNat (slice o.body 0 8) = 0 ∧ s.pol.kemreq = false ∧
      s.nw.lost = false) (hs : Config.serial % 2 ^ 64 = 0) (hx : (slotKey slotX25519 s).1 = some x)
    (hu : unwrapPackage x [] o.body = .ok p) : (openPackage c o s).1 = .ok p := by
  obtain ⟨h1, h2, h3, h4, h5⟩ := h
  have hr : packageRefuse c o s = none := by
    simp only [packageRefuse, h2, h3, h4, h5, hs]
    simp
    omega
  have hk : staticKeys o.body s = (some (x, []), (slotKey slotX25519 s).2) := by
    have hy : slotKey slotX25519 s = (some x, (slotKey slotX25519 s).2) := by rw [← hx]
    unfold staticKeys
    rw [hy, h2]
    rfl
  have ho : (openPackage c o s).1 = unwrapPackage x [] o.body := by
    unfold openPackage
    rw [hr, hk]
  exact ho.trans hu

/-! ## Sessions and configuration -/

/-- SessionCommands: HELLO at the ends of each clause, SESSION_INFO, ECHO and IDENT. -/
theorem witness_SessionCommands :
    let hello (hi lo : Nat) := call false [n1 1 hi, n1 2 4, n1 3 lo, n8 4 255]
    (Ready 0x0101 (hello 3 3) host ∧ argN (hello 3 3) 1 = some 3 ∧ argN (hello 3 3) 2 = some 4 ∧ argN (hello 3 3) 3 = some 3 ∧
      argN (hello 3 3) 4 = some 255) ∧
    Ready 0x0101 (hello 2 2) host ∧ Ready 0x0101 (hello 255 4) host ∧ Ready 0x0101 (hello 1 0) host ∧
    Ready 0x0102 (call false []) host ∧ Ready 0x0103 (call false [(1, [7])]) host ∧ Ready 0x0104 (call false []) host := by
  simp only [ready_iff]
  decide +kernel

/-- ConfigurationCommands, but for POLICY_LOAD: each command with its arguments. -/
theorem witness_ConfigurationCommands :
    Ready 0x0202 (call false []) host ∧ Ready 0x0203 (call false [n1 1 3, n1 2 5]) host ∧
    Ready 0x0204 (call false [n1 1 1, n1 2 2, (3, zs 6)]) host ∧
    (let c := call false [n1 1 63, n8 2 4096, n4 3 64, n8 4 65536, n4 5 65536, n2 8 8191]
     Ready 0x0205 c host ∧ argN c 1 = some 63 ∧ argN c 3 = some 64 ∧ argN c 5 = some 65536 ∧ (rxqOf 63 host).size = 0 ∧
       sizeOk 64 = true ∧ sizeOk 65536 = true ∧ argN c 7 ≠ some 0 ∧ argD c 8 0 < 8192) ∧
    (let c := call false [n1 1 0, n8 2 4096, n4 3 64, n8 4 65536, n4 5 128]
     Ready 0x0206 c host ∧ (txqOf 0 host).size = 0 ∧ sizeOk 128 = true) ∧
    Ready 0x0207 (call false [n1 1 0, n1 2 2, n1 3 63]) host ∧ Ready 0x0207 (call false [n1 1 3, n1 2 7, n1 3 0]) host ∧
    (let c := call false [n1 1 3]
     Ready 0x0208 c host ∧ argN c 1 = some 3 ∧ argN c 2 = none ∧ argN c 3 = none) ∧
    Ready 0x0B05 (call false [n1 1 3, n1 2 1]) host := by
  simp only [ready_iff]
  decide +kernel

/-- A policy body of VERSION 1 with the default tamper table (R356). -/
def polBody : Bytes :=
  natLE 4 1 ++ [1, 3, 1, 0] ++ natLE 2 0 ++ natLE 2 0 ++ natLE 2 0 ++ natLE 2 300 ++
    (List.replicate 24 1 ++ List.replicate 8 8) ++ zs 16

/-- ConfigurationCommands: POLICY_LOAD of a newer policy the part accepts. -/
theorem witness_PolicyLoad (v : Verified (obj 0x10 0x10 polBody)) :
    let c := call false [(1, objData 0x10 0x10 polBody)]
    Ready 0x0201 c host ∧ authArg c 1 [0x10] host = some (obj 0x10 0x10 polBody) ∧ policyOk polBody = true ∧
      host.pol.version < (policyOf polBody).version := by
  refine ⟨?_, authArg_of_verified rfl (parse_objData _ _ _ (by decide) (by decide) (by decide)) rfl ⟨rfl, rfl, rfl, rfl⟩ v, ?_⟩
  · simp only [ready_iff]
    decide +kernel
  · decide +kernel

/-! ## Streams, transactions, keys -/

/-- Transaction 7 is OPEN and an active subscribe stream stands at index 5. -/
def open7 : State := { host with se := {
  table := [(5, { used := true, fclass := 1, wrapLine := 4000, sta := .active })], txns := [(7, { st := .open_ })] } }

/-- StreamCommands: STREAM_GET; in transaction 7 an addition at a free position, a deletion, a change and a move. -/
theorem witness_StreamCommands :
    Ready 0x0304 (call false [n4 1 5]) host ∧ (txnOf 7 open7).st = .open_ ∧ (txnOf 7 open7).failed = false ∧
    (let c := call false [n1 1 0, n1 2 1, (3, zs 16), (4, [65]), n2 5 0x4000, n2 6 1, n2 7 256, n1 8 1, n2 9 3, n2 10 0, n1 11 63,
       n1 12 0, n2 13 0, n1 tyTxn 7]
     let key := argKey c 1 2 3 4 5 6 open7
     Ready 0x0301 c open7 ∧ argN c tyTxn = some 7 ∧ key.publish = false ∧ key.fclass ≠ 0 ∧ 256 ≤ argD c 7 0 ∧
       tbndOk (argD c 13 0) key.fclass = true ∧ findStream key open7 = none ∧ waitingAdd key open7 = none ∧
       (txnOf 7 open7).staged = [] ∧ argD c 8 0 ≠ 3 ∧ argD c 12 0 = 0 ∧
       ((candidates key open7).find? (fun j => freePos j open7)).any (fun i => !(curEntry i open7).quar) = true) ∧
    (let c := call false [n4 1 5, n1 tyTxn 7]
     Ready 0x0302 c open7 ∧ changeRefuse c 7 5 open7 = none ∧ (txnOf 7 open7).staged = [] ∧ (curEntry 5 open7).sta = .active ∧
       Ready 0x0305 c open7 ∧ activeBank (curEntry 5 open7) = true ∧
       ((candidates (entryKey (curEntry 5 open7)) open7).find? (fun j => decide (j ≠ 5) && freePos j open7)).isSome = true) ∧
    (let c := call false [n4 1 5, n1 5 63, n1 tyTxn 7]
     Ready 0x0303 c open7 ∧ changeRefuse c 7 5 open7 = none ∧ (curEntry 5 open7).publish = false ∧ argN c 5 = some 63 ∧
       bankRefuse c (curEntry 5 open7).bankA (curEntry 5 open7).fclass 2 6 7 open7 = none) := by
  simp only [ready_iff]
  decide +kernel

/-- TransactionCommands: a FREE slot and none; an OPEN transaction without and with the epoch staged; an instant 10 µs and one
86,400 s ahead. -/
theorem witness_TransactionCommands :
    (Ready 0x0501 (call false []) host ∧ freeTxn host = some 0) ∧
    (let s := { host with se := { txns := (List.range 8).map (fun k => (k, { st := .open_ })) } }
     Ready 0x0501 (call false []) s ∧ ∀ k, k < 8 → (txnOf k s).st ≠ .free) ∧
    (let c := call false [n1 tyTxn 7]
     argN c tyTxn = some 7 ∧ Ready 0x0502 c open7 ∧ argOf c 1 = none ∧ Change.epoch ∉ (txnOf 7 open7).staged ∧
       badTime c 1 = false ∧ Ready 0x0503 c open7 ∧ Ready 0x0504 c open7 ∧ Ready 0x0505 c open7 ∧ open7.se.epochOk = true ∧ open7.se.epoch < 0xFFFFFFFF) ∧
    (let s := { host with se := { txns := [(0, { st := .open_, staged := [.epoch] })] } }
     Ready 0x0502 (call false [n1 tyTxn 0]) s ∧ Change.epoch ∈ (txnOf 0 s).staged) ∧
    (let b := timeBytes (10000 * 65536)
     Ready 0x0502 (call false [n1 tyTxn 7, (1, b)]) open7 ∧ ptp16 open7 + 10000 * 65536 ≤ bytesTime b) ∧
    (let b := timeBytes (86400 * 1000000000 * 65536)
     Ready 0x0502 (call false [n1 tyTxn 7, (1, b)]) open7 ∧ badTime (call false [n1 tyTxn 7, (1, b)]) 1 = false ∧
       bytesTime b ≤ ptp16 open7 + 86400 * 1000000000 * 65536) ∧
    (let c := call false [n1 tyTxn 7, (1, timeBytes (10000 * 65536))]
     let bad := call false [n1 tyTxn 7, (1, zs 6 ++ natLE 4 1000000000 ++ zs 2)]
     badTime c 1 = false ∧ Ready 0x0502 bad open7 ∧ badTime bad 1 = true) := by
  simp only [ready_iff]
  decide +kernel

theorem witness_TransactionCommands_others : ∀ j, j ≠ 7 → Change.epoch ∉ (txnOf j open7).staged := by
  intro j hj
  have h : txnOf j open7 = {} := by
    unfold txnOf open7
    simp [smGet, smFind, Ne.symm hj]
  simp [h]

/-- KeyCommands, but for what carries an object: an EMPTY and an ACTIVE slot, and an association no stream uses. -/
theorem witness_KeyCommands :
    (Ready 0x0402 (call false [n2 1 32767]) host ∧ (kslot 32767 host).state = 0 ∧ Ready 0x0403 (call true [n2 1 32767]) host) ∧
    (let s := { host with se := { kslots := [(4, { state := 1 })] } }
     Ready 0x0402 (call false [n2 1 4]) s ∧ (kslot 4 s).state = 1 ∧ (kslot 4 s).ref = 0) ∧
    Ready 0x0404 (call true [n2 2 16383]) host ∧ assocUsed 16383 host = false := by
  simp only [ready_iff]
  decide +kernel

/-- A key package of KEM 1 and KTYPE 0 for serial 0: 1,148 bytes of header and a wrapped key of 24 bytes. -/
def pkgBody : Bytes := zs 8 ++ [1] ++ zs 1163

/-- KeyCommands: KEY_LOAD of a package of a part with serial 0, whose key unwraps, into an EMPTY slot and over the ACTIVE slot
of the lower EPOCH. -/
theorem witness_KeyLoad (v : Verified (obj 0x13 0x10 pkgBody)) (hs : Config.serial % 2 ^ 64 = 0) (x : Bytes)
    (hu : unwrapPackage x [] pkgBody = .ok { ktype := 0, keyId := 0, epoch := 0, notAfter := 0, key := zs 16 }) :
    let c := call false [n2 1 3, (2, objData 0x13 0x10 pkgBody)]
    let s := { host with pol := { kemreq := false } }
    let t := { s with se := { kslots := [(6, { state := 1, keyId := 9 }), (7, { state := 1, keyId := 9, epoch := 1 })] } }
    (slotKey slotX25519 s).1 = some x → (slotKey slotX25519 t).1 = some x →
    (Ready 0x0401 c s ∧ argN c 1 = some 3 ∧ (kslot 6 s).state = 0 ∧ (kslot 6 s).drainBad = false ∧ (kslot 7 s).state ≠ 1 ∧
        Ready 0x0401 c t ∧ (kslot 6 t).epoch < (kslot 7 t).epoch ∧ (kslot 6 t).drainBad = false ∧ (kslot 7 t).keyId ≠ 0) ∧
      (∀ y, y = s ∨ y = t → authArg c 2 [0x13] y = some (obj 0x13 0x10 pkgBody) ∧
        ∃ p, (openPackage c (obj 0x13 0x10 pkgBody) y).1 = .ok p ∧ p.ktype = 0 ∧ p.keyId = 0) := by
  intro c s t hx hy
  have hp := parse_objData 0x13 0x10 pkgBody (by decide) (by decide) (by decide +kernel)
  have hb : 1148 ≤ (obj 0x13 0x10 pkgBody).body.length ∧ leNat (slice (obj 0x13 0x10 pkgBody).body 8 1) = 1 ∧
      leNat (slice (obj 0x13 0x10 pkgBody).body 0 8) = 0 := by decide +kernel
  refine ⟨?_, ?_⟩
  · simp only [ready_iff]
    decide +kernel
  · rintro y (rfl | rfl)
    · exact ⟨authArg_of_verified rfl hp rfl ⟨rfl, rfl, rfl, rfl⟩ v, _,
        openPackage_of_key (c := c) (s := s) ⟨hb.1, hb.2.1, hb.2.2, rfl, rfl⟩ hs hx hu, rfl, rfl⟩
    · exact ⟨authArg_of_verified rfl hp rfl ⟨rfl, rfl, rfl, rfl⟩ v, _,
        openPackage_of_key (c := c) (s := t) ⟨hb.1, hb.2.1, hb.2.2, rfl, rfl⟩ hs hy hu, rfl, rfl⟩

/-- An association body for serial 0 with peer 1 on the last pair (R534). -/
def assocBody : Bytes := zs 8 ++ natLE 8 1 ++ natLE 2 16383 ++ zs 14

theorem witness_AssocLoad (v : Verified (obj 0x12 0x10 assocBody)) (hs : Config.serial % 2 ^ 64 = 0) :
    let c := call false [(1, objData 0x12 0x10 assocBody)]
    Ready 0x0404 c host ∧ argN c 2 = none ∧ authArg c 1 [0x12] host = some (obj 0x12 0x10 assocBody) ∧ assocBody.length = 32 ∧
      leNat (slice assocBody 0 8) = Config.serial % 2 ^ 64 ∧ leNat (slice assocBody 8 8) ≠ Config.serial % 2 ^ 64 ∧
      leNat (slice assocBody 16 2) < 16384 ∧ ∀ b ∈ assocBody.drop 18, b = 0 := by
  refine ⟨?_, ?_, authArg_of_verified rfl (parse_objData _ _ _ (by decide) (by decide) (by decide)) rfl ⟨rfl, rfl, rfl, rfl⟩ v, ?_⟩
  · simp only [ready_iff]
    decide +kernel
  · decide +kernel
  · rw [hs]
    decide +kernel

/-! ## Time and consistency -/

/-- TimeCommands, each clause: free-running and locked, the feed with a last sample, instants and ranges at their ends. -/
theorem witness_TimeCommands :
    (Ready 0x0601 (call false []) host ∧ host.tu.state = 0) ∧
    (let s := { host with tu := { state := 2 } }
     Ready 0x0601 (call false []) s ∧ s.tu.state ≠ 0 ∧ ((0 : Int) - 1) * uScale < uEff (timeSnap s.tu) (ptp16 s) ∧
       uEff (timeSnap s.tu) (ptp16 s) ≤ 0 * uScale) ∧
    (Ready 0x0602 (call false [(1, timeBytes 65536)]) host ∧ leNat (slice (timeBytes 65536) 6 4) < 1000000000) ∧
    (let c := call false [(1, timeBytes (2 * 65536)), (2, timeBytes (3 * 65536)), n8 3 0, n8 4 0]
     let s := { host with tu := { src := 1, haveLast := true, last := 2 } }
     Ready 0x0603 c s ∧ s.tu.last < ((bytesTime (timeBytes (3 * 65536)) / 65536 : Nat) : Int) ∧
       smFind s.clk.turns (turnTime * 2 ^ 32) = none) ∧
    (Ready 0x0604 (call true [n1 1 2, n1 2 1, n1 7 1]) host ∧ argN (call true [n1 1 2, n1 2 1, n1 7 1]) 7 ≠ some 0) ∧
    (let s := { host with tu := { refPresent := true } }
     Ready 0x0604 (call false [n1 1 2, n1 2 1]) s ∧ s.tu.refPresent = true) ∧
    (let c := call false [n1 1 1, n4 2 500000000, n4 3 500000000]
     Ready 0x0605 c host ∧ argD c 2 0 ≤ 500000000 ∧ toSigned 4 (argD c 3 0) ≤ 500000000) ∧
    (let c := call false [n1 1 1, n4 3 (65535 * 65536)]
     Ready 0x0606 c host ∧ argD c 3 0 ≤ 65535 * 65536) ∧
    (let c := call false [n2 1 37, n4 3 65535, n4 4 255, n4 5 1000000]
     Ready 0x0607 c host ∧ argD c 3 0 ≤ 65535 ∧ argD c 4 0 ≤ 255 ∧ 1000 ≤ argD c 5 0 ∧ argD c 5 0 ≤ 1000000) ∧
    (let c := call false [n2 1 37, (2, timeBytes 1)]
     Ready 0x0607 c host ∧ ptp16 host < bytesTime (timeBytes 1)) := by
  simp only [ready_iff]
  decide +kernel

/-- ConsCommands: a new group over the stream at index 5, and a defined one. -/
theorem witness_ConsCommands :
    let b := natLE 4 5 ++ [0, 0, 0, 0] ++ natLE 4 1
    let s := { open7 with co := { groups := [(9, { ops := [parseOperand b], w := 4000, rate := 4000, d := 8 })] } }
    (let c := call false [n2 1 4095, (2, b), n4 3 0, n2 4 0]
     Ready 0x0701 c s ∧ groupOf 4095 s = {} ∧ argsOf c 2 = [b] ∧ operandBad b s = false ∧ smpWrapOf 5 s = 4000 ∧
       rateSum s + 4000 ≤ 58982400 ∧ (s.co.groups.map (fun e => e.2.ops.length)).sum + (argsOf c 2).length ≤ 16) ∧
    Ready 0x0702 (call false [n2 1 9]) s ∧ Ready 0x0703 (call false [n2 1 9]) s ∧ (groupOf 9 s).ops ≠ [] ∧
    Ready 0x0704 (call true []) s := by
  simp only [ready_iff]
  decide +kernel

end Sys2Proof.Tests
end

