-- ==== Sys2Proof/WellFormed.lean ====
section
/-! DEFINITION. Well-formed commands: every operand fits the field the spec gives it. The machine has a meaning
for ill-formed commands too; they stand for nothing that can reach the part. -/
namespace Sys2Proof

/-- A TLV fits its header: 15 bits of type, 16 bits of length (R216). -/
def Tlv.wf (t : Tlv) : Bool := t.ty < 2 ^ 15 && t.val.length < 2 ^ 16

/-- A packet fits R214: header fields in their widths and at most 16,384 bytes. -/
def Packet.wf (p : Packet) : Bool :=
  p.major < 256 && p.minor < 256 && p.tag < 65536 && p.tlvs.all Tlv.wf &&
    16 + (p.tlvs.map (fun t => 4 + (t.val.length + 3) / 4 * 4)).sum ≤ 16384

def Via.wf : Via → Bool
  | .applet _ tid => 1 ≤ tid && tid ≤ 15
  | _ => true

def Call.wf (c : Call) : Bool := c.via.wf && c.desc < 1024 && c.pkt.wf && c.rsp < 2 ^ 64

/-- A request ring entry is 32 bytes, a packet at most 16,384 (R214, R227). -/
def RingReq.wf (r : RingReq) : Bool := r.entry.length = 32 && r.packet.length ≤ 16384

def L2Tag.wf : L2Tag → Bool
  | .vlan tpid vid => tpid < 65536 && vid < 4096
  | .hsr path seq => path < 16 && seq < 65536

def Rct.wf (r : Rct) : Bool := r.seq < 65536 && r.lan < 16 && r.size < 4096 && r.suffix < 65536

def Udp.wf (u : Udp) : Bool := u.dport < 65536 && u.len < 65536

def IpInfo.wf (i : IpInfo) : Bool :=
  i.dst < 2 ^ (if i.v6 then 128 else 32) && i.len < 65536 && i.fragOff < 8192 && i.udp.all Udp.wf

def SecExt.wf : SecExt → Bool
  | .none => true
  | .iec len _ keyId _ _ => len < 65536 && keyId < 2 ^ 32
  | .bluortis ty len fmt prof keyId _ _ _ =>
    ty < 256 && len < 256 && fmt < 256 && prof < 256 && keyId < 2 ^ 32

def LenField.wf (l : LenField) : Bool := l.value < 65536 && l.room < 65536

def Asdu.wf (a : Asdu) : Bool := a.smpCnt < 65536 && a.smpSynch < 256

def Apdu.wf (a : Apdu) : Bool :=
  a.appid < 65536 && a.lens.all LenField.wf && a.sec.wf && a.sig.wf && a.asdus.all Asdu.wf && a.stNum < 2 ^ 32 && a.sqNum < 2 ^ 32 && a.tSec < 2 ^ 32
    && a.tFrac < 2 ^ 24 && a.spdu < 2 ^ 32

def Frame.wf (f : Frame) : Bool :=
  f.etherType < 65536 && f.tags.all L2Tag.wf && f.rest.length + f.pad.length ≤ f.len &&
    f.ip.all IpInfo.wf && f.rct.all Rct.wf && f.apdu.all Apdu.wf

/-- A descriptor is 16 bytes (R237, R240). -/
def Desc.wf : Desc → Bool
  | .rx entry => entry.length = 16
  | .tx entry frame => entry.length = 16 && frame.wf

def Apdu7816.wf (a : Apdu7816) : Bool :=
  a.p1 < 256 && a.p2 < 256 && a.data.length < 65536 && a.le ≤ 65536

/-- Well-formedness of a command: packets, frames and numbers fit their fields; all other operands have types that
hold only what the field admits. -/
def Instr.wf : Instr → Bool
  | .crqTail _ tail reqs => tail < 1024 && reqs.all RingReq.wf
  | .crpHead _ v => v < 1024
  | .dtail _ tail descs => tail < 65536 && descs.all Desc.wf
  | .chead _ v => v < 65536
  | .registerWrite _ addr _ => addr % 4 = 0 && addr < 2 ^ 32
  | .debugAccess _ addr _ _ => addr < 2 ^ 32
  | .frameReceive _ _ _ f => f.wf
  | .entryReadComplete _ i _ _ => i < 2 ^ 24
  | .slotDrained n => n < 32768
  | .ppsInEdge _ _ eighth => eighth < 8
  | .noiseEstimate _ bias lags =>
    lags.length = 4 && (bias :: lags).all (fun x => decide (-32768 ≤ x) && decide (x ≤ 32767))
  | .flRead errs => errs.all (fun e => e.unit < 524288)
  | .eraseSuspendRequest _ addr => addr < 2 ^ 24
  | .pps d r => d < 4 && r < 4
  | .verifyPwd a => a.wf
  | .auth1 a => a.wf
  | .auth2 a => a.wf
  | .tagApduRead a => a.wf
  | .tagApduWrite a => a.wf
  | .ctrRead a => a.wf
  | .ctrInc a => a.wf
  | .hello c | .sessionInfo c | .echo c | .ident c | .policyLoad c | .policyGet c | .portCfg c => c.wf
  | .pairCfg c | .rxqCfg c | .txqCfg c | .rxmapSet c | .cfgGet c | .streamAdd c | .streamDel c => c.wf
  | .streamMod c | .streamGet c | .streamMove c | .keyLoad c | .keyRelease c | .keyInfo c => c.wf
  | .assocLoad c | .txnOpen c | .txnCommit c | .txnAbort c | .txnStatus c | .epochAdvance c => c.wf
  | .timeGet c | .timeSet c | .timeFeed c | .timeSrc c | .ppsCfg c | .tcCfg c | .timeCfg c => c.wf
  | .consSet c | .consDel c | .consGet c | .consStatus c | .vkeyGen c | .vkeyImport c => c.wf
  | .vkeyDestroy c | .vkeyInfo c | .vcBlock c | .vcDecryptVerify c | .vcHash c | .modOp c => c.wf
  | .vsign c | .vverify c | .rngGet c | .noiseStatus c | .tagRead c | .tagWrite c => c.wf
  | .tagCounter c | .tagAccess c | .clMode c | .badgeRead c | .tamperStatus c | .tamperTest c => c.wf
  | .lifecycleGet c | .lifecycleSet c | .unlock c | .debugAuth c | .rootRevoke c | .ownTake c => c.wf
  | .snapshot c | .selftest c | .pumpRestore c | .marchRun c | .loopback c | .fwInfo c => c.wf
  | .fwBegin c | .fwChunk c | .fwActivate c | .fwRollback c | .appletLoad c | .appletCtl c => c.wf
  | .calGet c | .calSet c | .calClear c | .evCfg c | .evRead c | .sumpRead c | .sumpClear c => c.wf
  | .logRead c => c.wf
  | _ => true

end Sys2Proof
end

