-- ==== Sys2Proof/Tests/Slice0.lean ====
section
/-! SUPPORT. The checks of WellFormed, each on a term it refuses and a term at the end of its range; and the worked examples of
spec/ and known answers of the standards it names, where one step or one operation shows them. -/
set_option Elab.async false
namespace Sys2Proof.Tests
open Sys2Proof.Machine Sys2Proof.Claim

/-! ## Well-formedness -/

/-- A packet with the given header numbers and elements. -/
def packet (major minor tag : Nat) (tlvs : List Tlv) : Packet :=
  { major := major, minor := minor, tag := tag, fence := false, expert := false, tlvs := tlvs }
def element (ty n : Nat) : Tlv := { ty := ty, crit := false, val := List.replicate n 0 }
def request (via : Via) (desc : Nat) (p : Packet) : Instr := .hello { via := via, desc := desc, pkt := p }

/-- R214, R216: major, minor, tag, type number, length of one element and of the packet. -/
theorem test_wf_packet :
    (request .spi 0 (packet 255 255 65535 [element 32767 16364])).wf = true ∧ (request .spi 0 (packet 256 0 0 [])).wf = false ∧
    (request .spi 0 (packet 3 256 0 [])).wf = false ∧ (request .spi 0 (packet 3 0 65536 [])).wf = false ∧
    (request .spi 0 (packet 3 0 0 [element 32768 0])).wf = false ∧ (element 1 65536).wf = false ∧
    (request .spi 0 (packet 3 0 0 [element 1 16365])).wf = false := by
  decide +kernel

/-- R212, R227: an applet's TID, the index and the size of a ring. -/
theorem test_wf_session :
    (request (.applet .vault 15) 1023 (packet 3 0 0 [])).wf = true ∧ (request (.applet .vault 16) 0 (packet 3 0 0 [])).wf = false ∧
    (request (.applet .control 0) 0 (packet 3 0 0 [])).wf = false ∧ (request .spi 1024 (packet 3 0 0 [])).wf = false ∧
    (Instr.crqTail 3 1023 [{ entry := zs 32, packet := zs 16384 }]).wf = true ∧ (Instr.crqTail 3 1024 []).wf = false ∧
    (Instr.crqTail 0 0 [{ entry := zs 31, packet := [] }]).wf = false ∧ (Instr.crqTail 0 0 [{ entry := zs 33, packet := [] }]).wf = false ∧
    (Instr.crqTail 0 0 [{ entry := zs 32, packet := zs 16385 }]).wf = false ∧ (Instr.crpHead 3 1023).wf = true ∧
    (Instr.crpHead 3 1024).wf = false ∧
    (Instr.hello { via := .ring 0, desc := 0, pkt := packet 3 0 0 [], rsp := 2 ^ 64 }).wf = false := by
  decide +kernel

/-- A frame of 64 bytes with an EtherType, tags and an application unit. -/
def shape (ety : Nat) (tags : List L2Tag) (a : Option Apdu) (rest : Bytes) : Frame :=
  { len := 64, fcsOk := true, codingError := false, dst := 1, src := 2, tags := tags, etherType := ety, ip := none, ptp := none
    apdu := a, rct := none, rest := rest }
def apdu0 : Apdu :=
  { appid := 0x4000, ident := none, gocbRef := [], lens := [], asdus := [], stNum := 0, sqNum := 0, tSec := 0, tFrac := 0
    clockFailure := false, clockNotSync := false, spdu := 0, segs := [], sec := .none }
def ip0 : IpInfo := { v6 := false, dst := 0, hdrSumOk := true, moreFrags := false, fragOff := 0, exts := [], udp := none }
def received (f : Frame) : Bool := (Instr.frameReceive 0 3 0 f).wf

/-- R45, R48 to R52, R119: EtherType, tags, trailer, IP and UDP fields, payload, and every number of an application unit. -/
theorem test_wf_frame :
    received (shape 65535 [.vlan 0x88A8 4095, .hsr 15 65535] (some apdu0) (zs 64)) = true ∧
    received (shape 65536 [] none []) = false ∧ received (shape 0 [.vlan 65536 0] none []) = false ∧ received (shape 0 [.vlan 0 4096] none []) = false ∧
    received (shape 0 [.hsr 16 0] none []) = false ∧ received (shape 0 [.hsr 0 65536] none []) = false ∧
    received (shape 0 [] none (zs 65)) = false ∧ received { shape 0 [] none (zs 60) with pad := zs 5 } = false ∧
    (∀ r ∈ [{ seq := 65536, lan := 0, size := 0, suffix := 0 }, { seq := 0, lan := 16, size := 0, suffix := 0 },
        { seq := 0, lan := 0, size := 4096, suffix := 0 }, ({ seq := 0, lan := 0, size := 0, suffix := 65536 } : Rct)],
      received { shape 0 [] none [] with rct := some r } = false) ∧
    (∀ x ∈ [{ ip0 with dst := 2 ^ 32 }, { ip0 with len := 65536 }, { ip0 with fragOff := 8192 }, { ip0 with udp := some { dport := 65536, session := .none } },
        { ip0 with udp := some { dport := 102, len := 65536, session := .sv } }], received { shape 0x800 [] none [] with ip := some x } = false) ∧
    (∀ a ∈ [{ apdu0 with appid := 65536 }, { apdu0 with asdus := [{ smpCnt := 65536, smpSynch := 0 }] },
        { apdu0 with asdus := [{ smpCnt := 0, smpSynch := 256 }] }, { apdu0 with stNum := 2 ^ 32 }, { apdu0 with sqNum := 2 ^ 32 },
        { apdu0 with tSec := 2 ^ 32 }, { apdu0 with tFrac := 2 ^ 24 }, { apdu0 with spdu := 2 ^ 32 },
        { apdu0 with lens := [{ value := 65536, room := 0, covers := false }] }, { apdu0 with lens := [{ value := 0, room := 65536, covers := false }] },
        { apdu0 with sec := .iec 65536 .aesGmac128 0 0 0 }, { apdu0 with sec := .iec 20 .aesGmac128 (2 ^ 32) 0 0 },
        { apdu0 with sec := .bluortis 256 34 1 3 9 0 0 0 }, { apdu0 with sec := .bluortis 0xB7 256 1 3 9 0 0 0 },
        { apdu0 with sec := .bluortis 0xB7 34 256 3 9 0 0 0 }, { apdu0 with sec := .bluortis 0xB7 34 1 256 9 0 0 0 },
        { apdu0 with sig := .bluortis 0xB7 34 1 3 (2 ^ 32) 0 0 0 }],
      received (shape 0x88BA [] (some a) []) = false) := by
  decide +kernel

/-- R237, R240, R523: descriptors and queue pointers; the fields of a transmit descriptor's bytes. -/
theorem test_wf_queues :
    (Instr.dtail (.rx 63) 65535 [.rx (zs 16), .tx (zs 16) (shape 0 [] none [])]).wf = true ∧
    (Instr.dtail (.rx 0) 65536 []).wf = false ∧ (Instr.dtail (.rx 0) 0 [.rx (zs 15)]).wf = false ∧ (Instr.dtail (.rx 0) 0 [.rx (zs 17)]).wf = false ∧
    (Instr.dtail (.tx 0) 0 [.tx (zs 15) (shape 0 [] none [])]).wf = false ∧
    (Instr.dtail (.tx 0) 0 [.tx (zs 16) (shape 65536 [] none [])]).wf = false ∧ (Instr.chead (.tx 63) 65535).wf = true ∧
    (Instr.chead (.tx 63) 65536).wf = false ∧
    txDesc (natLE 8 0x123456789000 ++ natLE 2 1996 ++ [0x16, 0] ++ natLE 3 0x2A51 ++ [0]) (shape 0 [] none []) =
      { addr := 0x123456789000, len := 1996, port := 2, pair := true, bypass := false, oneStep := true, stream := 0x2A51, frame := shape 0 [] none [] } := by
  decide +kernel

/-- Addresses, indices and the other operands with a range (R103, R129, R278, R293, R296, R386, R388, R519). -/
theorem test_wf_operands :
    (Instr.registerWrite .host 0xFFFFFFFC 0).wf = true ∧ (Instr.registerWrite .host 2 0).wf = false ∧ (Instr.registerWrite .host (2 ^ 32) 0).wf = false ∧
    (Instr.debugAccess .vault (2 ^ 32 - 1) false 0).wf = true ∧ (Instr.debugAccess .vault (2 ^ 32) false 0).wf = false ∧
    (Instr.entryReadComplete 0 (2 ^ 24 - 1) 0 0).wf = true ∧ (Instr.entryReadComplete 0 (2 ^ 24) 0 0).wf = false ∧
    (Instr.slotDrained 32767).wf = true ∧ (Instr.slotDrained 32768).wf = false ∧ (Instr.ppsInEdge 0 true 7).wf = true ∧
    (Instr.ppsInEdge 0 true 8).wf = false ∧ (Instr.noiseEstimate 7 (-32768) [32767, 0, 0, 0]).wf = true ∧ (Instr.noiseEstimate 7 0 [0, 0, 0]).wf = false ∧
    (Instr.noiseEstimate 7 32768 [0, 0, 0, 0]).wf = false ∧ (Instr.noiseEstimate 7 0 [0, 0, 0, -32769]).wf = false ∧
    (Instr.flRead [{ unit := 524287, firstRetry := 0 }]).wf = true ∧ (Instr.flRead [{ unit := 524288, firstRetry := 0 }]).wf = false ∧
    (Instr.eraseSuspendRequest 0 (2 ^ 24 - 1)).wf = true ∧ (Instr.eraseSuspendRequest 0 (2 ^ 24)).wf = false ∧ (Instr.pps 3 3).wf = true ∧
    (Instr.pps 4 0).wf = false ∧ (Instr.pps 0 4).wf = false ∧
    (∀ f ∈ [Instr.verifyPwd, .auth1, .auth2, .tagApduRead, .tagApduWrite, .ctrRead, .ctrInc],
      (f { p1 := 255, p2 := 255, data := [], le := 65536, mac := [] }).wf = true ∧ (f { p1 := 256, p2 := 0, data := [], le := 0, mac := [] }).wf = false ∧
        (f { p1 := 0, p2 := 256, data := [], le := 0, mac := [] }).wf = false ∧ (f { p1 := 0, p2 := 0, data := [], le := 65537, mac := [] }).wf = false) := by
  decide

theorem test_wf_apdu_data : (Instr.auth1 { p1 := 0, p2 := 0, data := List.replicate 65536 0, le := 0, mac := [] }).wf = false := by
  decide +kernel

/-- The table gives its rows no bits. -/
theorem test_no_word_spells_a_command : decodeTableWord 32 0 = none ∧ (up.withFetchWord 32 0).pending = [] := by decide

/-! ## Known answers of the standards the spec names -/

/-- FIPS 180-4: SHA-256 of "abc". -/
theorem test_sha256 : beNat (sha256 [97, 98, 99]) = 0xBA7816BF8F01CFEA414140DE5DAE2223B00361A396177A9CB410FF61F20015AD := by decide +kernel

/-- FIPS 197, appendix C.1 and C.3. -/
theorem test_aes :
    let text := natBE 16 0x00112233445566778899AABBCCDDEEFF
    beNat (aesEnc (natBE 16 0x000102030405060708090A0B0C0D0E0F) text) = 0x69C4E0D86A7B0430D8CDB78070B4C55A ∧
    beNat (aesEnc (natBE 32 0x000102030405060708090A0B0C0D0E0F101112131415161718191A1B1C1D1E1F) text) = 0x8EA2B7CA516745BFEAFC49904B496089 := by
  decide +kernel

/-- CRC-32C and CRC_A: the check values of "123456789" and of two zero bytes (ISO/IEC 14443-3, annex B). -/
theorem test_crcs : crc32c [49, 50, 51, 52, 53, 54, 55, 56, 57] = 0xE3069283#32 ∧ crcA [0, 0] = [0xA0, 0x1E] := by decide +kernel

/-! ## Worked examples of the spec -/

/-- Chapter 02: verdict words A and B of the PRP stream, byte for byte. -/
theorem test_verdict_words :
    let v (flags : BitVec 5) (port ns : Nat) : Verdict := {
      ver := 2, code := .authOk, flags := flags, corr := false, cinc := false, memerr := false, len := 126
      ts := (1742000000 * 1000000000 + ns) * 65536, stream := 0x2A51, port := port, rclass := 1, fclass := 1, vtag := true, epoch := 7 }
    verdictBytes (v 0 0 250000000) = [0x02, 0x00, 0x00, 0x00, 0x80, 0xB2, 0xE6, 0x0E, 0x80, 0xCF, 0x51, 0x2A, 0x00, 0x94, 0x07, 0x00] ∧
    verdictBytes (v 2 1 250000140) = [0x02, 0x02, 0x00, 0x00, 0x0C, 0xB3, 0xE6, 0x0E, 0x80, 0xCF, 0x51, 0x2A, 0x00, 0x95, 0x07, 0x00] := by
  decide

/-- The window gives copy B, on the pair's other port, DUPLICATE and nothing else (R120). -/
theorem test_duplicate : (window {} 9 0 true).1 = 0 ∧ (window (window {} 9 0 true).2 9 1 true).1 = 2 ∧ (window (window {} 9 0 true).2 9 0 true).1 = 1 := by
  decide

/-- Chapter 03: the slots of the epoch change, before the instant, after it, and for a frame of the peer. -/
theorem test_epoch_change :
    let s (e : Nat) : State := { up with se := { epoch := e, kslots := [(246, { state := 1, keyId := 0xA029, epoch := 41 }), (247, { state := 1, keyId := 0xA02A, epoch := 42 })] } }
    let b : Bank := { kpair := 123, prof := 1, kepoch := 40 }
    selectPub b 41 (s 41) = some 246 ∧ selectPub b 42 (s 42) = some 247 ∧ selectSub b 0xA029 42 (s 42) = some 246 ∧
      selectSub b 0xA02A 41 (s 41) = some 247 := by
  decide

/-- Chapter 04: the pump that the mismatches of three periods have in common. -/
theorem test_followed : followed [[[2, 3]], [[1, 2]], [[0, 2]]] = [2] ∧ followed [[], [[1, 2]], [[0, 2]]] = [] := by decide

/-- Chapter 05: groups 17 and 18 with the tampered sample, group 17 with the true one; TBND 0x48BF; the uncertainty in HOLDOVER. -/
theorem test_consistency :
    let op (i : Nat) (gain : Int) : Operand := { idx := i, chan := 0, gain := gain, sOff := 0, qOff := 4 }
    let g17 : Group := { ops := [op 0x1A02 0x10000, op 0x1A05 0x10000, op 0x1A09 0x10000], thr := 2000, prop := 0x148 }
    let g18 : Group := { ops := [op 0x1A09 0x10000, op 0x1A0B (-0x10000)], thr := 500, prop := 0x290 }
    let c (l : SMap Int) : CSlot := { n := 1234, xs := l }
    answerOf g17 (c [(0, 812400), (1, -530150), (2, -181900)]) = .inconsistent ∧ answerOf g17 (c [(0, 812400), (1, -530150), (2, -281900)]) = .consistent ∧
    answerOf g18 (c [(0, -181900), (1, -281910)]) = .inconsistent := by
  decide +kernel

theorem test_time_bounds :
    let v : TimeSnap := { state := 2, uset := 300, tset := 0, drift := 100 }
    tbndMode 0x48BF = 1 ∧ tbndEarly 0x48BF = 2000 ∧ tbndMax 0x48BF = 1024000 ∧ uEff v (123 * 1000000000 * 65536) = 12600 * uScale ∧
    uEff v (997 * 1000000000 * 65536) = 100000 * uScale := by
  decide +kernel

/-- Chapter 06: the host that speaks 2.3, on command ring 1. -/
def relay (e : Sess) : State := { up with
  cmd := { rings := [(1, { size := 16, sess := e, intMask := true })] }, nv := { State.reset.nv with life := .operational } }
def ask (major minor tag : Nat) (expert : Bool) (tlvs : List (Nat × Bytes)) : Call :=
  { via := .ring 1, desc := 4, pkt := {
      major := major, minor := minor, tag := tag, fence := false, expert := expert
      tlvs := tlvs.map (fun e => { ty := e.1, crit := false, val := e.2 }) } }

/-- The first reply a row emits: version, status, elements. -/
def replyOf (r : Res) : Option (List Nat × List (Nat × Bytes)) :=
  match r with
  | .next t => t.out.findSome? (fun o => match o with
    | .reply x => some ([x.major, x.minor, x.status], x.tlvs.map (fun t => (t.ty, t.val)))
    | _ => none)
  | _ => none

def sessAfter (r : Res) (n : Nat) : Option Sess :=
  match r with
  | .next t => some (ringOf n t).sess
  | _ => none

def spoke23 : Sess := { negotiated := true, maj := 2, min := 3, feat := 0x31 }

def helloRow : Res := exec (.hello (ask 2 3 2 false [n1 1 2, n1 2 3, n1 3 2, n8 4 0x37])) (relay {})
def helloReply : Option (List Nat × List (Nat × Bytes)) := replyOf helloRow
def helloSess : Option Sess := sessAfter helloRow 1
def rxqReply : Option (List Nat × List (Nat × Bytes)) :=
  replyOf (exec (.rxqCfg (ask 2 3 3 false [n1 1 5, n1 7 2])) (relay spoke23))

theorem test_hello :
    helloReply = some ([2, 3, 0], [n1 1 2, n1 2 3, n8 3 0x31, n2 4 0x0300]) ∧ helloSess = some spoke23 := by
  decide +kernel

/-- Step 3: the reply DETAIL names byte 24, reason 8 and type 7. -/
theorem test_rxq_feature :
    rxqReply = some ([2, 3, 0x12], [(tyDetail, natLE 2 24 ++ natLE 2 8 ++ natLE 2 7 ++ [0, 0])]) := by
  decide +kernel

/-- Steps 7 and 8: a header of 3.0 in a session of 2.3 is BAD_VERSION; one of 2.1 is served. -/
def echoReply (major minor : Nat) : Option (List Nat × List (Nat × Bytes)) :=
  replyOf (exec (.echo (ask major minor 7 false [(1, [1, 2, 3])])) (relay spoke23))

theorem test_echo_versions : echoReply 3 0 = some ([2, 3, 0x10], []) ∧ echoReply 2 1 = some ([2, 3, 0], [(1, [1, 2, 3])]) := by
  decide +kernel

/-- Chapter 15: words of BAR0 right after a cold reset (R520 to R522). -/
theorem test_bar_at_reset :
    readBar 0 State.reset = 0x4016 ∧ readBar 0x1C State.reset = 2 ∧ readBar 0x40 State.reset = 0x800 ∧ readBar 0x1020 State.reset = 0xFFFFFFFF ∧
      readBar 0x1040 State.reset = 0xFFFFFFFF ∧ readBar 0x1080 State.reset = 3 ∧ readBar 0x1084 State.reset = 0 ∧ readBar 0x2014 State.reset = 0 := by
  decide +kernel

end Sys2Proof.Tests
end

