-- ==== Sys2Proof/Tests/WitnessVault.lean ====
section
/-! SUPPORT. Concrete states and requests that meet the hypotheses of the statements about the vault's commands, the tag
area, the lifecycle, maintenance and firmware, a clause at a time; requests with authority objects as in WitnessCommands. -/
set_option Elab.async false
namespace Sys2Proof.Tests
open Sys2Proof.Machine Sys2Proof.Claim

/-! ## Vault keys and vault cryptography -/

/-- Slot 16 holds a key of a type with a usage; the key-encryption key is 0, and what is wrapped under it is 1 to 8. -/
def keyed (ktype usage : Nat) : State := { host with nv := { host.nv with
  bbram := { kek := some 0 }
  slots := [(16, { ktype := ktype, usage := usage, wrapped := [52, 165, 250, 94, 77, 203, 107, 25, 201, 232, 93, 22, 56, 208, 126, 144] })] } }

def keyBytes8 : Bytes := [1, 2, 3, 4, 5, 6, 7, 8]

set_option maxRecDepth 100000 in
theorem keyed_unwraps : kwpUnwrap (bytes256 0) [52, 165, 250, 94, 77, 203, 107, 25, 201, 232, 93, 22, 56, 208, 126, 144] = some keyBytes8 := by
  decide +kernel

/-- The slot's key, as VaultCryptoCommands names it. -/
theorem keyed_key (kt u : Nat) : (slotKey 16 (keyed kt u)).1 = some keyBytes8 := by
  have h : slotKey 16 (keyed kt u) = (match kwpUnwrap (bytes256 0) (vslot 16 (keyed kt u)).wrapped with
    | some k => (some k, cacheKey 16 k (keyed kt u))
    | none => (none, raise evVkey [16] (keyed kt u))) := rfl
  have hw : (vslot 16 (keyed kt u)).wrapped = [52, 165, 250, 94, 77, 203, 107, 25, 201, 232, 93, 22, 56, 208, 126, 144] := rfl
  rw [h, hw, keyed_unwraps]

/-- VaultKeyCommands: the lowest EMPTY slot 16, and 255 named by an expert form, of the first and the last type; a slot to
destroy and to show. -/
theorem witness_VaultKeyCommands :
    (Ready 0x0801 (call false [n1 1 9]) host ∧ host.nw.lost = false ∧ (vslot 16 host).ktype = 255) ∧
    (let c := call true [n1 1 0, n2 2 255, (3, [31, 2, 40])]
     Ready 0x0801 c host ∧ argN c 2 = some 255 ∧ argOf c 3 = some [31, 2, 40] ∧ (vslot 255 host).ktype = 255) ∧
    (let s := keyed 9 32
     Ready 0x0803 (call false [n2 1 16]) s ∧ (vslot 16 s).ktype ≠ 255 ∧ s.eng.vcHead = s.eng.vcTail ∧ s.eng.meHead = s.eng.meTail ∧
       s.eng.vcTail < 256 ∧ s.eng.meTail < 8 ∧ Ready 0x0804 (call false [n2 1 16]) s ∧ Ready 0x0801 (call false [n1 1 0]) s ∧ (vslot 17 s).ktype = 255) := by
  simp only [ready_iff]
  decide +kernel

theorem witness_VkeyImport (v : Verified (obj 0x13 0x10 pkgBody)) (hs : Config.serial % 2 ^ 64 = 0) (x : Bytes)
    (hu : unwrapPackage x [] pkgBody = .ok { ktype := 0, keyId := 0, epoch := 0, notAfter := 0, key := zs 16 }) :
    let c := call false [(1, objData 0x13 0x10 pkgBody)]
    let s := { host with pol := { kemreq := false } }
    (slotKey slotX25519 s).1 = some x →
    Ready 0x0802 c s ∧ (vslot 16 s).ktype = 255 ∧ authArg c 1 [0x13] s = some (obj 0x13 0x10 pkgBody) ∧
      ∃ p, (openPackage c (obj 0x13 0x10 pkgBody) s).1 = .ok p := by
  intro c s hx
  have hp := parse_objData 0x13 0x10 pkgBody (by decide) (by decide) (by decide +kernel)
  have hb : 1148 ≤ (obj 0x13 0x10 pkgBody).body.length ∧ leNat (slice (obj 0x13 0x10 pkgBody).body 8 1) = 1 ∧
      leNat (slice (obj 0x13 0x10 pkgBody).body 0 8) = 0 := by decide +kernel
  refine ⟨?_, rfl, authArg_of_verified rfl hp rfl ⟨rfl, rfl, rfl, rfl⟩ v, _,
    openPackage_of_key (c := c) (s := s) ⟨hb.1, hb.2.1, hb.2.2, rfl, rfl⟩ hs hx hu⟩
  simp only [ready_iff]
  decide +kernel

/-- VaultCryptoCommands: VC_BLOCK of one block and of the most, both ways. -/
theorem witness_VcBlock :
    let s := keyed 1 27
    (let c := call false [n2 1 16, n1 2 1, (3, zs 16)]
     Ready 0x0805 c s ∧ mayUse (vslot 16 s) 0 = true ∧ (vslot 16 s).nmode = 0 ∧ vcQueueFull s = false ∧
       (zs 16).length / 16 ≤ 2 ^ (vslot 16 s).slimit) ∧
    Ready 0x0805 (call false [n2 1 16, n1 2 2, (3, zs 16000)]) s ∧ mayUse (vslot 16 s) 1 = true := by
  simp only [ready_iff]
  decide +kernel

def oneTag : Bytes := [176, 248, 14, 211, 81, 187, 44, 211, 216, 117, 226, 123, 237, 20, 138, 1]

set_option maxRecDepth 100000 in
theorem oneTag_is : gcmTag (fit 16 keyBytes8) (zs 12) [] [0] = oneTag := by decide +kernel

/-- VC_DECRYPT_VERIFY with the tag of the ciphertext, and with another. -/
theorem witness_VcDecryptVerify :
    let s := keyed 0 27
    let c (t : Bytes) := call false [n2 1 16, (2, zs 12), (3, []), (4, [0]), (5, t)]
    (Ready 0x0806 (c oneTag) s ∧ mayUse (vslot 16 s) 4 = true ∧ vcQueueFull s = false) ∧ Ready 0x0806 (c (zs 16)) s ∧ oneTag ≠ zs 16 := by
  simp only [ready_iff]
  decide +kernel

/-- VC_HASH of each kind, VVERIFY, RNG_GET and NOISE_STATUS; MOD_OP of a point on P-256 and of one that is not. -/
theorem witness_VaultServices :
    (∀ n : Fin 3, Ready 0x0807 (call false [n1 1 n.val, (2, [])]) host) ∧
    Ready 0x080A (call false [(1, zs 1952), (2, []), (3, [])]) host ∧
    (let pk (x y : Nat) : Bytes := [4] ++ natBE 32 x ++ natBE 32 y
     let gx := 0x6B17D1F2E12C4247F8BCE6E563A440F277037D812DEB33A0F4A13945D898C296
     let gy := 0x4FE342E2FE1A7F9B8EE7EB4A7C0F9E162BCE33576B315ECECBB6406837BF51F5
     (Ready 0x080A (call false [(1, pk gx gy), (2, []), (3, [])]) host ∧ onCurve p256 gx gy = true ∧ gx < p256.p ∧ gy < p256.p ∧
       (pk gx gy).length = 65 ∧ beNat (slice (pk gx gy) 1 32) = gx ∧ beNat (slice (pk gx gy) 33 32) = gy) ∧
     onCurve p256 0 0 = false ∧
     let point (x y : Nat) : Bytes := [4, 0, 0, 0] ++ natLE 32 x ++ natLE 32 y
     let c (x y : Nat) := call false [n1 1 0x13, n1 2 1, (3, point x y)]
     (Ready 0x0808 (c gx gy) host ∧ host.nw.lost = false ∧ argOf (c gx gy) 4 = none ∧ leNat (slice (point gx gy) 1 3) = 0 ∧ meFits 0x13 1 4 = true ∧ ((point gx gy).drop 4).length = 8 * 4 * meArity 0x13 ∧
       (meCompute 0x13 1 4 ((point gx gy).drop 4)).status = stOk) ∧
     Ready 0x0808 (c 0 0) host ∧ (meCompute 0x13 1 4 ((point 0 0).drop 4)).status = stNotOnCurve) ∧
    (Ready 0x080B (call false [n2 1 4096]) { host with nw := { lost := true } }) ∧
    (let s := { host with nw := { drbg := some ⟨0, 0, 0, 0⟩ } }
     Ready 0x080B (call false [n2 1 1]) s ∧ s.nw.lost = false ∧ s.nw.drbg.isSome = true) ∧
    Ready 0x080C (call false []) host := by
  simp only [ready_iff]
  decide +kernel

/-- A request of a command while descriptors of the vault core wait: two of them, and as many as the queue holds. -/
theorem witness_VcHash_waits :
    let c := call false [n1 1 0, (2, [1])]
    let busy (tail : Nat) : State := { host with eng := { vcTail := tail, vcQBase := 0x100000 }, me := { vaultRam := [(0, 0x10)] } }
    (Ready 0x0807 c (busy 2) ∧ (busy 2).eng.vcHead ≠ (busy 2).eng.vcTail ∧ (busy 2).eng.vcDone ∉ (busy 2).eng.vcMine ∧
      vcOps.contains (vcDescAt (busy 2).eng.vcHead (busy 2)).op = true ∧ vcQueueFull (busy 2) = false) ∧
    Ready 0x0807 c (busy 255) ∧ (busy 255).eng.vcTail < 256 ∧ vcQueueFull (busy 255) = true := by
  simp only [ready_iff]
  decide +kernel

/-- VSIGN with a key of every signing type. -/
theorem witness_Vsign : ∀ kt ∈ [3, 4, 5, 7, 9], Ready 0x0809 (call false [n2 1 16, (2, [])]) (keyed kt 32) ∧
    (vslot 16 (keyed kt 32)).ktype = kt ∧ mayUse (vslot 16 (keyed kt 32)) 5 = true ∧ (keyed kt 32).nw.lost = false := by
  simp only [ready_iff]
  decide +kernel

/-! ## Tag area and badges -/

/-- TagCommands, but for TAG_ACCESS: reads and writes at the ends of their ranges, a counter read, moved and refused, and
modes in and out of a handshake. -/
theorem witness_TagCommands :
    jhdrSeq host = jdoneSeq host ∧ host.cl.fuel = none ∧ host.cl.lockTo ≤ host.clk.now ∧
    (let s := { host with cl := { lockTo := 1 } }
     s.clk.now < s.cl.lockTo ∧ Ready 0x0901 (call false [n2 1 0, n2 2 4]) s ∧ Ready 0x0902 (call false [n2 1 96, (2, zs 16)]) s ∧
       Ready 0x0903 (call false [n1 1 63]) s) ∧
    (Ready 0x0901 (call false [n2 1 2047, n2 2 1]) host ∧ readRange 2047 1 = true ∧ tagTorn (16 * 2047) 16 host = false) ∧
    (Ready 0x0901 (call false [n2 1 0, n2 2 4]) host ∧ readRange 0 4 = true) ∧
    Ready 0x0902 (call false [n2 1 96, (2, zs 16000)]) host ∧ Ready 0x0902 (call false [n2 1 2047, (2, zs 16)]) host ∧
    (Ready 0x0903 (call false [n1 1 63]) host ∧ ctrCopy 63 false host = some 0 ∧ ctrCopy 63 true host = some 0) ∧
    Ready 0x0903 (call false [n1 1 63, n1 2 255]) host ∧
    (let s := { host with nv := { host.nv with tag := [(256, 1), (257, 255), (258, 255), (259, 255), (260, 254), (261, 0), (262, 0),
         (263, 0), (264, 1), (265, 255), (266, 255), (267, 255), (268, 254), (269, 0), (270, 0), (271, 0)] } }
     jhdrSeq s = jdoneSeq s ∧ Ready 0x0903 (call false [n1 1 0, n1 2 255]) s ∧ ctrCopy 0 false s = some 0xFFFFFF01 ∧
       ctrCopy 0 true s = some 0xFFFFFF01 ∧ 0xFFFFFFFF < 0xFFFFFF01 + 255) ∧
    (let s := { host with cl := { field := true, rndB := some 0 } }
     Ready 0x0905 (call false [n1 1 2]) s ∧ s.cl.field = true ∧ s.cl.rndB.isSome = true) ∧
    (let s := { host with cl := { field := true } }
     Ready 0x0905 (call false [n1 1 1]) s ∧ s.cl.rndB = none ∧ s.cl.execAt = none ∧ s.cl.frameTo ≤ s.clk.now) ∧
    (Ready 0x0905 (call false [n1 1 0]) host ∧ host.cl.field = false) ∧
    (let b : BadgeRun := { call := call false [], step := .sensing, startedAt := 0, timeout := 100, pollAt := 0, saved := 1, cert := [], challenge := [] }
     Ready 0x0905 (call false [n1 1 0]) { host with cl := { badge := some b } } ∧ b.step ≠ .waiting) ∧
    (Ready 0x0906 (call false [n2 1 100]) host ∧ host.nw.lost = false ∧ host.cl.badge = none) ∧
    Ready 0x0906 (call false [n2 1 30000]) host := by
  simp only [ready_iff]
  decide +kernel

theorem witness_TagAccess (v : Verified (obj 0x13 0x10 pkgBody)) (hs : Config.serial % 2 ^ 64 = 0) (x : Bytes)
    (hu : unwrapPackage x [] pkgBody = .ok { ktype := 0, keyId := 0, epoch := 0, notAfter := 0, key := zs 16 }) :
    let c := call false [(1, zs 8), (2, objData 0x13 0x10 pkgBody), (3, zs 80)]
    let s := { host with pol := { kemreq := false } }
    (slotKey slotX25519 s).1 = some x →
    jhdrSeq s = jdoneSeq s ∧ s.cl.fuel = none ∧ s.cl.lockTo ≤ s.clk.now ∧ Ready 0x0904 c s ∧ mapsOk (zs 80) = true ∧
      authArg c 2 [0x13] s = some (obj 0x13 0x10 pkgBody) ∧
      ∃ p, (openPackage c (obj 0x13 0x10 pkgBody) s).1 = .ok p ∧ p.key.length = 16 ∧ p.ktype = 0 := by
  intro c s hx
  have hp := parse_objData 0x13 0x10 pkgBody (by decide) (by decide) (by decide +kernel)
  have hb : 1148 ≤ (obj 0x13 0x10 pkgBody).body.length ∧ leNat (slice (obj 0x13 0x10 pkgBody).body 8 1) = 1 ∧
      leNat (slice (obj 0x13 0x10 pkgBody).body 0 8) = 0 := by decide +kernel
  refine ⟨?_, rfl, by decide, ?_, by decide, authArg_of_verified rfl hp rfl ⟨rfl, rfl, rfl, rfl⟩ v, _,
    openPackage_of_key (c := c) (s := s) ⟨hb.1, hb.2.1, hb.2.2, rfl, rfl⟩ hs hx hu, rfl, rfl⟩
  · decide +kernel
  · simp only [ready_iff]
    decide +kernel

/-! ## Lifecycle -/

/-- A token for serial 0 with COUNTER 1, no badge (R336). -/
def tokBody (target scope duration : Nat) : Bytes :=
  zs 8 ++ natLE 4 1 ++ natLE 1 target ++ natLE 1 scope ++ zs 2 ++ zs 16 ++ natLE 4 duration

/-- What a token of a kind meets on a state: accepted by a part with serial 0, fresh, and no badge asked for. -/
theorem token_of_verified {kind target scope duration ty : Nat} {c : Call} {s : State}
    (v : Verified (obj kind 0x10 (tokBody target scope duration))) (hs : Config.serial % 2 ^ 64 = 0)
    (hc : argOf c ty = some (objData kind 0x10 (tokBody target scope duration)))
    (hk : kind < 256)
    (hf : signerFits (obj kind 0x10 (tokBody target scope duration)) s = true)
    (hn : s.nv.domain = zs 16 ∧ s.nv.ownerHash = some ownHash) (hl : lcctr s = some 0)
    (hm : tokenMalformed kind (tokBody target scope duration) = false)
    (ht : tokenOf (tokBody target scope duration) = ⟨0, 1, target, scope, zs 16, duration⟩) :
    tokenArg c ty kind s = .ok ⟨0, 1, target, scope, zs 16, duration⟩ := by
  have hp := parse_objData kind 0x10 (tokBody target scope duration) hk (by decide) (by simp [tokBody, length_natLE, zs])
  have ha : authArg c ty [kind] s = some (obj kind 0x10 (tokBody target scope duration)) :=
    authArg_of_verified hc hp (by simp [obj]) ⟨rfl, rfl, hf, by simp [signerHash, obj, hn, ownHash]⟩ v
  have hfresh : tokenFresh (tokenOf (obj kind 0x10 (tokBody target scope duration)).body) s = true := by
    rw [show (obj kind 0x10 (tokBody target scope duration)).body = tokBody target scope duration from rfl, ht]
    unfold tokenFresh
    rw [hs, hl]
    rfl
  have h2 := tokenArg_of_verified ha hm (by rw [hl]; rfl) hfresh
  rw [h2]
  simp only [obj, ht]

/-- LifecycleCommands without a token: status, a test, the lifecycle shown. -/
theorem witness_LifecycleCommands :
    Ready 0x0A01 (call false []) host ∧ Ready 0x0A02 (call false [n2 1 23]) host ∧ Ready 0x0A03 (call false []) host := by
  simp only [ready_iff]
  decide +kernel

/-- An OWNED part with a stored policy. -/
def owned : State := { host with nv := { host.nv with life := .owned, polA := some (obj 0x10 0x10 polBody) } }

theorem chosen_of_accepted {s : State} {o : AuthObj} (h : s.nv.polA = some o) (hk : o.kind = 0x10) (ha : accepted o s = true) :
    chosenPolicy s ≠ none := by
  unfold chosenPolicy
  simp only [h, hk, ha, decide_true, Bool.and_self, if_true]
  split <;> simp_all

theorem owned_policy (v : Verified (obj 0x10 0x10 polBody)) : chosenPolicy owned ≠ none :=
  chosen_of_accepted rfl rfl (accepted_of_verified ⟨rfl, rfl, rfl, rfl⟩ v)

/-- LIFECYCLE_SET to OPERATIONAL (with a stored policy), to OWNED and to RETIRED. -/
theorem witness_LifecycleSet (hs : Config.serial % 2 ^ 64 = 0) (v : ∀ n, Verified (obj 0x22 0x10 (tokBody n 0 0))) :
    let c (n : Nat) := call false [n1 1 n, (2, objData 0x22 0x10 (tokBody n 0 0))]
    (Ready 0x0A04 (c 2) owned ∧ tokenArg (c 2) 2 0x22 owned = .ok ⟨0, 1, 2, 0, zs 16, 0⟩ ∧ owned.nv.zeroised = false) ∧
    (Ready 0x0A04 (c 1) host ∧ tokenArg (c 1) 2 0x22 host = .ok ⟨0, 1, 1, 0, zs 16, 0⟩ ∧
      badgeNamed ⟨0, 1, 1, 0, zs 16, 0⟩ host = true) ∧
    Ready 0x0A04 (c 4) host ∧ tokenArg (c 4) 2 0x22 host = .ok ⟨0, 1, 4, 0, zs 16, 0⟩ := by
  intro c
  refine ⟨⟨?_, ?_, rfl⟩, ⟨?_, ?_, ?_⟩, ?_, ?_⟩
  · simp only [ready_iff]; decide +kernel
  · exact token_of_verified (v 2) hs rfl (by decide) rfl ⟨rfl, rfl⟩ (by decide) (by decide +kernel) (by decide +kernel)
  · simp only [ready_iff]; decide +kernel
  · exact token_of_verified (v 1) hs rfl (by decide) rfl ⟨rfl, rfl⟩ (by decide) (by decide +kernel) (by decide +kernel)
  · decide +kernel
  · simp only [ready_iff]; decide +kernel
  · exact token_of_verified (v 4) hs rfl (by decide) rfl ⟨rfl, rfl⟩ (by decide) (by decide +kernel) (by decide +kernel)

/-- UNLOCK of a SEALED part to OWNED, DEBUG_AUTH for the longest time, ROOT_REVOKE of a slot that signs nothing. -/
theorem witness_Tokens (hs : Config.serial % 2 ^ 64 = 0) (v : Verified (obj 0x21 0x10 (tokBody 1 0 0)))
    (v2 : Verified (obj 0x23 0x10 (tokBody 0 15 86400))) (v3 : Verified (obj 0x24 0x10 (tokBody 3 0 0))) :
    (let c := call false [(1, objData 0x21 0x10 (tokBody 1 0 0))]
     let s := { host with nv := { host.nv with life := .sealed, zeroised := true }, nw := { drbg := some ⟨0, 0, 0, 0⟩ } }
     Ready 0x0A05 c s ∧ s.nv.life = .sealed ∧ tokenArg c 1 0x21 s = .ok ⟨0, 1, 1, 0, zs 16, 0⟩ ∧
       badgeOk ⟨0, 1, 1, 0, zs 16, 0⟩ s = true ∧ (∀ n, n < 24 → s.bk.active.getLsbD n = true → tampOff n s = true ∨ tampLevel n s < 2)) ∧
    (let c := call false [(1, objData 0x23 0x10 (tokBody 0 15 86400))]
     Ready 0x0A06 c host ∧ tokenArg c 1 0x23 host = .ok ⟨0, 1, 0, 15, zs 16, 86400⟩ ∧
       badgeOk ⟨0, 1, 0, 15, zs 16, 86400⟩ host = true) ∧
    (let c := call false [n2 1 3, (2, objData 0x24 0x10 (tokBody 3 0 0))]
     let s := { host with nv := { host.nv with areas := [] } }
     Ready 0x0A07 c s ∧ tokenArg c 2 0x24 s = .ok ⟨0, 1, 3, 0, zs 16, 0⟩ ∧ badgeNamed ⟨0, 1, 3, 0, zs 16, 0⟩ s = true ∧
       rootRevoked 0 s = false ∧ (∀ a, a < 4 → areaSigner a s ≠ some 3) ∧ s.fw.sessions.length = 0) := by
  refine ⟨⟨?_, rfl, ?_, ?_, ?_⟩, ⟨?_, ?_, ?_⟩, ?_, ?_, ?_, ?_, ?_, rfl⟩
  · simp only [ready_iff]; decide +kernel
  · exact token_of_verified v hs rfl (by decide) rfl ⟨rfl, rfl⟩ (by decide) (by decide +kernel) (by decide +kernel)
  · decide +kernel
  · decide +kernel
  · simp only [ready_iff]; decide +kernel
  · exact token_of_verified v2 hs rfl (by decide) rfl ⟨rfl, rfl⟩ (by decide) (by decide +kernel) (by decide +kernel)
  · decide +kernel
  · simp only [ready_iff]; decide +kernel
  · exact token_of_verified v3 hs rfl (by decide) rfl ⟨rfl, rfl⟩ (by decide) (by decide +kernel) (by decide +kernel)
  · decide +kernel
  · decide +kernel
  · decide +kernel

/-- The last step of a token, before its instant and at it: no source bars it, one that is active does, one that fired in this clock does;
DEBUG_AUTH in OPERATIONAL, SEALED and RETIRED. -/
theorem witness_LastSteps :
    (∀ w ∈ [Wait.unlock 1 50, .debug 15 86400 50], let s (t : Nat) : State := { host with
        clk := { now := t }, cmd := { host.cmd with owed := [{ call := call false [], opcode := 0x0A05, wait := w }] } }
      calm (onCmd (fun x => { x with owed := [] }) (advance 0 (s 49))) = true ∧ (advance 0 (s 49)).clk.now < 50 ∧
      calm (onCmd (fun x => { x with owed := [] }) (advance 0 (s 50))) = true ∧ 50 ≤ (advance 0 (s 50)).clk.now ∧
      (advance 0 (s 50)).bk.active = 0 ∧ (advance 0 (s 50)).bk.disarmed = 0) ∧
    (let a := advance 0 { host with bk := { table := List.replicate 24 2, active := 1 } }
     tampOff 0 a = false ∧ 2 ≤ tampLevel 0 a ∧ a.bk.active.getLsbD 0 = true) ∧
    (let a := advance 0 { host with clk := { now := 50 }, bk := { table := List.replicate 24 2, disarmed := 0x40000, offAt := [(18, 50)] } }
     tampOff 18 a = false ∧ 2 ≤ tampLevel 18 a ∧ a.bk.disarmed.getLsbD 18 = true ∧ smGet 0 a.bk.offAt 18 = a.clk.now) ∧
    ∀ l ∈ [Life.operational, .sealed, .retired],
      (advance 0 { host with nv := { host.nv with life := l } }).nv.life = l := by
  simp only
  decide +kernel

/-- An ownership object for serial 0 (R354). -/
def ownBody : Bytes := zs 72

/-- OWN_TAKE of a part in FACTORY, whose root slot 0 holds the hash of the object's keys. -/
theorem witness_OwnTake (hs : Config.serial % 2 ^ 64 = 0) (v : Verified (obj 0x11 0 ownBody))
    (hr : natBE 48 (Config.rootHash 0).toNat = ownHash) :
    let c := call false [(1, objData 0x11 0 ownBody)]
    let s := { host with nv := { host.nv with life := .factory } }
    Ready 0x0A08 c s ∧ authArg c 1 [0x11] s = some (obj 0x11 0 ownBody) ∧ ownBody.length = 72 ∧
      leNat (slice ownBody 16 8) = Config.serial % 2 ^ 64 := by
  intro c s
  refine ⟨?_, authArg_of_verified rfl (parse_objData _ _ _ (by decide) (by decide) (by decide)) rfl ⟨rfl, rfl, rfl, ?_⟩ v, rfl, ?_⟩
  · simp only [ready_iff]; decide +kernel
  · have h1 : rootRevoked 0 s = false := by decide
    have h2 : (zs 16).any (· ≠ 0) = false := by decide
    show (if (0 : Nat) < 4 then if rootRevoked 0 s || (zs 16).any (· ≠ 0) then none else some (natBE 48 (Config.rootHash 0).toNat)
      else _) = some ownHash
    rw [h1, h2, hr]
    rfl
  · rw [hs]; decide +kernel

/-! ## Maintenance and firmware -/

/-- MaintenanceCommands, each command at the ends of its ranges. -/
theorem witness_MaintenanceCommands :
    Ready 0x0B01 (call false []) host ∧ Ready 0x0B02 (call false [n1 1 0]) host ∧
    (Ready 0x0B03 (call false [n1 1 3]) host ∧ (pump 3 host).failed = false) ∧
    (∀ n ∈ [999, 1000], let s := { host with pu := { pumps := [(3, { failed := true, katPasses := n })] } }
      Ready 0x0B03 (call false [n1 1 3]) s ∧ (pump 3 s).failed = true ∧ (pump 3 s).katPasses = n) ∧
    (Ready 0x0B04 (call false [n1 1 0, n1 2 5, n1 3 0]) host ∧ marchRegion 0 5 = some .pumpStore) ∧
    (Ready 0x0B04 (call false [n1 1 0, n1 2 0, n1 3 0]) host ∧ marchRegion 0 0 = some .controlRam) ∧
    (Ready 0x0B04 (call false [n1 1 1, n1 2 4, n1 3 0]) host ∧ marchRegion 1 4 = some .engineBuffers ∧ enginesIdle host = true ∧
      enginesIdle { host with eng := { vcTail := 1 } } = false) ∧
    (Ready 0x0D01 (call false [n2 1 0x0100]) host ∧ (calItem 0x0100).isSome = true) ∧
    Ready 0x0D02 (call false [n2 1 0x0100, n4 2 0xFFFFFFFF]) host ∧ Ready 0x0D03 (call false [n2 1 0x0100]) host ∧
    (Ready 0x0E01 (call false [n2 1 255, n1 2 3, n1 3 1]) host ∧ evListed 255 = true) ∧
    Ready 0x0E02 (call false [n1 1 7]) host ∧ (∀ a : Fin 4, Ready 0x0E03 (call false [n1 1 a.val, n4 2 4095]) host) ∧
    (∀ a : Fin 3, Ready 0x0E04 (call false [n1 1 a.val, (2, zs 32)]) host) ∧
    Ready 0x0E04 (call false [n1 1 3, n4 3 4095, n4 4 4095]) host ∧
    (Ready 0x0E05 (call false [n4 tyOffset 0x0FFFFFFF, n2 1 1]) host ∧ dmaGranted host.vtP 1 (0xA0000000 + 0x0FFFFFFF) 1 .read = false) ∧
    (let s := withValve (openAll false) host
     Ready 0x0E05 (call false [n4 tyOffset 0, n2 1 16000]) s ∧ dmaGranted s.vtP 1 0xA0000000 16000 .read = true) := by
  simp only [ready_iff]
  decide +kernel

/-- An image body for a target, of one byte, with the hash of an erased byte (R362). -/
def fwBytes (target isa abi : Nat) : Bytes :=
  natLE 1 target ++ natLE 1 isa ++ natLE 2 abi ++ natLE 4 1 ++ natLE 4 0 ++ natLE 4 1 ++ zs 48 ++ zs 12

/-- FW_BEGIN of an applet of each core, from the owner. -/
theorem witness_FwBegin (v : ∀ t, Verified (obj 3 0x10 (fwBytes t 2 1))) : ∀ t : Fin 2,
    let o := obj 3 0x10 (fwBytes t.val 2 1)
    let c := call false [n1 1 (2 + t.val), n4 2 1, (3, objData 3 0x10 (fwBytes t.val 2 1))]
    let k : CoreId := if t.val = 0 then .control else .vault
    Ready 0x0C02 c host ∧ parseAuth (objData 3 0x10 (fwBytes t.val 2 1)) = some o ∧ accepted o host = true ∧ o.body.length = 76 ∧
      (fwBodyOf o.body).target = t.val ∧ (fwBodyOf o.body).size = 1 ∧ (beginArea k true (fwBodyOf o.body) host).any (fun a => !(sectorOf (areaFirst a) host).bad) = true ∧
      host.fw.sessions.length = 0 ∧ host.me.erase = none := by
  intro t o c k
  refine ⟨?_, ?_, accepted_of_verified ⟨rfl, rfl, rfl, rfl⟩ (v t.val), ?_⟩
  · simp only [ready_iff]
    revert t
    decide +kernel
  · exact parse_objData _ _ _ (by decide) (by decide) (by revert t; decide +kernel)
  · revert t
    decide +kernel

/-- FW_BEGIN of a core's image under root slot 0. -/
theorem witness_FwBegin_image (v : Verified (obj 1 0 (fwBytes 0 2 0))) (hr : natBE 48 (Config.rootHash 0).toNat = ownHash) :
    let o := obj 1 0 (fwBytes 0 2 0)
    let c := call false [n1 1 0, n4 2 1, (3, objData 1 0 (fwBytes 0 2 0))]
    Ready 0x0C02 c host ∧ parseAuth (objData 1 0 (fwBytes 0 2 0)) = some o ∧ accepted o host = true ∧ beginArea .control false (fwBodyOf o.body) host = some 1 := by
  intro o c
  refine ⟨?_, parse_objData _ _ _ (by decide) (by decide) (by decide), accepted_of_verified ⟨rfl, rfl, rfl, ?_⟩ v, rfl⟩
  · simp only [ready_iff]; decide +kernel
  · have h1 : rootRevoked 0 host = false := by decide
    have h2 : (zs 16).any (· ≠ 0) = false := by decide
    show (if (0 : Nat) < 4 then if rootRevoked 0 host || (zs 16).any (· ≠ 0) then none else some (natBE 48 (Config.rootHash 0).toNat)
      else _) = some ownHash
    rw [h1, h2, hr]
    rfl

/-- A session with all of an area's one byte programmed, which is still the erased byte. -/
def session (area : Nat) (k : CoreId) (applet : Bool) (toErase : List Nat) (done : List (Nat × Nat)) : FwSess :=
  { id := 1, core := k, applet := applet, area := area, obj := obj 3 0x10 [], done := done, toErase := toErase
    body := { size := 1, abi := 1, hash := sha384 [0xFF] } }
def inSession (x : FwSess) : State := { host with fw := { sessions := [x], nextSess := 2 } }

/-- FirmwareCommands: FW_INFO, a chunk that waits and one that is programmed, a complete image and a complete applet, both
sides of a rollback, and an installed applet. -/
theorem witness_FirmwareCommands :
    Ready 0x0C01 (call false []) host ∧
    (let c := call false [n4 1 1, n4 tyOffset 0, (2, [0xFF])]
     let secs := rangeSectors (areaCode 4) 1
     (let s := inSession (session 4 .control true secs [])
      Ready 0x0C03 c s ∧ (sessOfId 1 s).isSome = true ∧ ∃ y ∈ secs, y ∈ secs) ∧
     (let s := inSession (session 4 .control true [] [])
      Ready 0x0C03 c s ∧ ∀ y ∈ secs, (sectorOf y s).bad = false ∧ (sectorOf y s).flag = false)) ∧
    (let x := session 1 .control false [] [(0, 1)]
     Ready 0x0C04 (call false [n4 1 1]) (inSession x) ∧ sessOfId 1 (inSession x) = some x ∧ fwComplete x = true ∧
       sha384 (flashRange (areaCode 1) 1 (inSession x)) = x.body.hash) ∧
    (let x := session 19 .vault true [] [(0, 1)]
     Ready 0x0C06 (call false [n4 1 1]) (inSession x) ∧ sessOfId 1 (inSession x) = some x ∧ fwComplete x = true ∧
       sha384 (flashRange (areaCode 19) 1 (inSession x)) = x.body.hash) ∧
    (Ready 0x0C05 (call false [n1 1 0]) host ∧ host.fw.trialWas = none ∧ (recOf .control host).prev = false) ∧
    (let s := { host with nv := { host.nv with recV := { prev := true }, areas := [(3, .factory)] } }
     Ready 0x0C05 (call false [n1 1 1]) s ∧ (recOf .vault s).prev = true ∧ imageValid .vault 1 s = true ∧
       (recOf .vault s).floor ≤ imageSvn .vault 1 s) ∧
    (∀ op : Fin 3, let s := { host with cmd := { host.cmd with applets := [(areaApplet 19, { installed := true })] } }
     Ready 0x0C07 (call false [n4 1 15, n1 2 op.val]) s ∧ (appletOf (areaApplet 19) s).installed = true ∧
       (appletOf (areaApplet 19) s).running = false) := by
  simp only [ready_iff]
  decide +kernel

end Sys2Proof.Tests
end

