-- ==== Sys2Proof/Tests/WitnessEngines.lean ====
section
/-! SUPPORT. Concrete states that meet the hypotheses of the statements about the noise well and the two engines of the vault, a
clause at a time. -/
set_option Elab.async false
namespace Sys2Proof.Tests
open Sys2Proof.Machine Sys2Proof.Claim

/-- NoiseWell: banks in each state, estimates at the limits and beyond, failures of the first and the last oscillator with one and two
near ones before, the second bank failed or not, a generator due and not, a pool entry for the engine's generator. -/
theorem witness_NoiseWell :
    let s (b : BankState) : State := { up with clk := { now := 25000000 }, nw := { bank0 := { st := b }, pool := List.replicate 15 7 } }
    (∀ b ∈ [BankState.testing, .inService, .failed], running (s b) = true ∧ (bankOf 0 (s b)).st = b ∧ (s b).nw.pool.length < 16) ∧
    ((4096 : Int).natAbs ≤ 4096 ∧ 4096 < (-4097 : Int).natAbs ∧ [0, 0, 0, (8192 : Int)].length = 4 ∧ 8192 < (8193 : Int).natAbs) ∧
    (let a (recent : List Nat) (other : BankState) : State := advance 0 { up with
       clk := { now := 250000005 }, nw := { bank0 := { st := other }, bank1 := { st := .inService, recent := recent } } }
     (running (a [] .failed) = true ∧ ((bankOf 1 (a [5, 6] .failed)).recent.filter (fun t => (a [5, 6] .failed).clk.now < t + 250000000)).length = 1 ∧
       ((bankOf 1 (a [6, 7] .failed)).recent.filter (fun t => (a [6, 7] .failed).clk.now < t + 250000000)).length = 2 ∧
       (bankOf 1 (a [6, 7] .failed)).st = .inService ∧ (bankOf 0 (a [6, 7] .failed)).st = .failed ∧ (bankOf 0 (a [6, 7] .testing)).st ≠ .failed)) ∧
    (let a (t : Nat) : State := advance 0 { up with
       clk := { now := 25000000 }, nw := { drbg := some { key := 0, v := 0, served := 9, reseedAt := t }, pool := [5] } }
     (a 0).nw.drbg = some { key := 0, v := 0, served := 9, reseedAt := 0 } ∧ 0 + 25000000 ≤ (a 0).clk.now ∧ (a 1).clk.now < 1 + 25000000 ∧
       (a 0).eng.vcReseedAt + 250000 ≤ (a 0).clk.now ∧ (a 0).nw.lost = false ∧ (a 0).nw.pool = 5 :: []) := by
  decide +kernel

/-! ## The cipher engine -/

/-- A cipher descriptor for slot 16 of session 0 with its interrupt, its operands in vault RAM (R251). -/
def vcBytes (op len : Nat) (arg : Bytes) : Bytes :=
  natLE 1 op ++ [16, 128, 0] ++ natLE 4 0x140000 ++ natLE 4 0x120000 ++ natLE 4 len ++ fit 16 arg

/-- Slot 16 with a key type, an NMODE and every use, the descriptor at the head of the last entry of the queue, bytes at SRC, and a valve
table that grants the engines what they ask. -/
def vcState (ktype nmode : Nat) (desc src : Bytes) : State :=
  ramPut .vault 0x140000 src (ramPut .vault (0x100000 + 32 * 255) desc
    { withValve (openAll false) (keyed ktype 0) with
      nv := { (keyed ktype 0).nv with slots := [(16, { vslot 16 (keyed ktype 0) with usage := 31, nmode := nmode })] }
      eng := { vcQBase := 0x100000, vcCBase := 0x110000, vcHead := 255 } })

/-- What every clause of CipherEngine assumes, as a test that evaluates. -/
def vcWaits (op : Nat) (s : State) : Bool :=
  calm s && decide (s.eng.vcHead ≠ s.eng.vcTail) && unserved (turnMram * 2 ^ 32) s && (vcDescAt s.eng.vcHead s).op == op

/-- CipherEngine, refusals: a length of zero; a use the slot does not grant, and a table that grants nothing, the request otherwise good;
an input word with an uncorrectable error. -/
theorem witness_CipherEngine_refused :
    (∀ op ∈ [1, 2, 3, 4], let s := vcState 0 1 (vcBytes op 0 []) []
      vcWaits op s = true ∧ vcRefuse true (vcDescAt s.eng.vcHead s) s = some stBadParam) ∧
    (let deny (kt : Nat) (d : Bytes) : State := { vcState kt 1 d [] with nv := (keyed kt 0).nv }
     (∀ op ∈ [1, 2, 3, 4], let s := deny 0 (vcBytes op 16 [])
       vcWaits op s = true ∧ vcBad true (vcDescAt s.eng.vcHead s) (vslot 16 s) = false ∧ (vslot 16 s).usage = 0) ∧
     (let s := deny 2 (vcBytes 0x12 0 [0x36])
      vcWaits 0x12 s = true ∧ vcBad true (vcDescAt s.eng.vcHead s) (vslot 16 s) = false)) ∧
    (∀ op ∈ [1, 2, 4, 0x10, 0x11], let s := { vcState 0 0 (vcBytes op 128 []) [] with vtW := [] }
      vcWaits op s = true ∧ vcBad true (vcDescAt s.eng.vcHead s) (vslot 16 s) = false ∧ vcGranted (vcDescAt s.eng.vcHead s) s = false) ∧
    (let s := onMe (fun m => { m with faulty := [(.vaultY, 1)] }) (vcState 0 0 (vcBytes 1 16 []) [])
     vcWaits 1 s = true ∧ vcRefuse true (vcDescAt s.eng.vcHead s) s = none ∧
       ∃ e ∈ s.me.faulty, ramWordIn .vault e.1 e.2 (vcDescAt 255 s).src (srcLen (vcDescAt 255 s)) = true) := by
  decide +kernel

/-- CipherEngine, requests that pass every check: each operation with its key type and nonce mode, the key unwrapped (`keyed_unwraps`), in
the cache, and with the key-encryption key erased. -/
theorem witness_CipherEngine :
    (∀ x ∈ [(1, 0, 0, 16), (1, 1, 0, 65536), (2, 0, 0, 16), (3, 1, 1, 16), (4, 0, 0, 16384), (5, 0, 2, 0), (0x10, 0, 0, 64), (0x11, 0, 0, 128)],
      let s := vcState x.2.1 x.2.2.1 (vcBytes x.1 x.2.2.2 []) []
      vcWaits x.1 s = true ∧ vcRefuse true (vcDescAt s.eng.vcHead s) s = none ∧ s.me.faulty = []) ∧
    (let s := vcState 2 0 (vcBytes 0x12 0 [0x5C]) []
     vcWaits 0x12 s = true ∧ vcRefuse true (vcDescAt s.eng.vcHead s) s = none ∧ s.nv.bbram.kek = some 0 ∧
       (vslot 16 s).wrapped = (vslot 16 (keyed 2 0)).wrapped) ∧
    (let s := onEng (fun e => { e with vcCache := [⟨16, [5, 3], [6, 1]⟩] }) (vcState 2 0 (vcBytes 0x12 0 [0x5C]) [])
     vcWaits 0x12 s = true ∧ vcRefuse true (vcDescAt s.eng.vcHead s) s = none ∧
       s.eng.vcCache.find? (fun l => l.slot == 16) = some ⟨16, [5, 3], [6, 1]⟩) ∧
    (let s := onNv (fun n => { n with bbram := { kek := none } }) (vcState 2 0 (vcBytes 0x12 0 [0x5C]) [])
     vcWaits 0x12 s = true ∧ vcRefuse true (vcDescAt s.eng.vcHead s) s = none ∧ s.nv.bbram.kek = none) := by
  decide +kernel

/-- CipherEngine: a VDEC of one byte with its tag, and with another. -/
theorem witness_CipherEngine_vdec :
    let s (t : Bytes) : State := vcState 0 0 (vcBytes 4 1 []) ([0] ++ t)
    let r (t : Bytes) := vcDescAt (s t).eng.vcHead (s t)
    let src (t : Bytes) := ramGet .vault (r t).src (srcLen (r t)) (s t)
    (∀ t ∈ [oneTag, zs 16], vcWaits 4 (s t) = true ∧ vcRefuse true (r t) (s t) = none ∧ (vslot 16 (s t)).ktype = 0) ∧
    gcmTag (fit 16 keyBytes8) ((r oneTag).arg.take 12) ((src oneTag).take (aadLen (r oneTag))) (slice (src oneTag) (aadLen (r oneTag)) (r oneTag).len) =
      slice (src oneTag) (aadLen (r oneTag) + (r oneTag).len) 16 ∧
    gcmTag (fit 16 keyBytes8) ((r (zs 16)).arg.take 12) ((src (zs 16)).take (aadLen (r (zs 16)))) (slice (src (zs 16)) (aadLen (r (zs 16))) (r (zs 16)).len) ≠
      slice (src (zs 16)) (aadLen (r (zs 16)) + (r (zs 16)).len) 16 := by
  intro s r src
  have p : ∀ t ∈ [oneTag, zs 16], (r t).arg.take 12 = zs 12 ∧ (src t).take (aadLen (r t)) = [] ∧ slice (src t) (aadLen (r t)) (r t).len = [0] ∧
      slice (src t) (aadLen (r t) + (r t).len) 16 = t := by
    simp only [r, src, s]
    decide +kernel
  obtain ⟨a1, a2, a3, a4⟩ := p oneTag (by simp)
  obtain ⟨b1, b2, b3, b4⟩ := p (zs 16) (by simp)
  refine ⟨?_, ?_, ?_⟩
  · simp only [r, s]
    decide +kernel
  · rw [a1, a2, a3, a4]; exact oneTag_is
  · rw [b1, b2, b3, b4, oneTag_is]; decide

/-! ## The modular engine -/

/-- A modular descriptor for slot 16 with flags, operands at the start of vault RAM's second half (R265). -/
def meBytes (op curve len flags : Nat) : Bytes :=
  natLE 1 op ++ natLE 1 curve ++ natLE 1 len ++ natLE 1 flags ++ [16, 0, 0, 0] ++ natLE 4 0x140000 ++ natLE 4 0x17F000

def meState (desc src : Bytes) (lost : Bool) : State :=
  ramPut .vault 0x140000 src (ramPut .vault (0x100000 + 16 * 7) desc
    { withValve (openAll false) up with eng := { meQBase := 0x100000, meHead := 7 }, nw := { lost := lost } })

def meWaits (op : Nat) (s : State) : Bool :=
  calm s && decide (s.eng.meHead ≠ s.eng.meTail) && unserved (turnPool * 2 ^ 32) s && (meDescAt s.eng.meHead s).op == op

/-- ModularEngine: a CURVE that does not fit, VERIFY with KEYSRC, a table that grants nothing, a key its slot does not lend, a blinding draw without entropy, and every operation on operands from SRC
whose draws can be served or need none. -/
theorem witness_ModularEngine :
    (let s := meState (meBytes 1 1 4 0) [] false
     meWaits 1 s = true ∧ meFits 1 1 4 = false) ∧
    (let s := meState (meBytes 1 0 128 5) [] false
     meWaits 1 s = true ∧ meFits 1 0 128 = true ∧ meAddrOk (meDescAt 7 s) = true ∧ (meDescAt 7 s).keySrc = true ∧ (meDescAt 7 s).verify = true) ∧
    (let s := { meState (meBytes 1 0 128 0) [] false with vtW := [] }
     meWaits 1 s = true ∧ meFits 1 0 128 = true ∧ meAddrOk (meDescAt 7 s) = true ∧ (meDescAt 7 s).keySrc = false ∧
       meGranted (meDescAt 7 s) s = false) ∧
    (let s := meState (meBytes 0x10 1 4 1) [] false
     meWaits 0x10 s = true ∧ meFits 0x10 1 4 = true ∧ meAddrOk (meDescAt 7 s) = true ∧ (meDescAt 7 s).keySrc = true ∧
       (meDescAt 7 s).verify = false ∧ meGranted (meDescAt 7 s) s = true ∧ s.me.faulty = [] ∧ bitN (vslot 16 s).usage 5 = false ∧
       bitN (vslot 16 s).usage 6 = false) ∧
    (let s := meState (meBytes 4 0 1 2) [] true
     meWaits 4 s = true ∧ meFits 4 0 1 = true ∧ meAddrOk (meDescAt 7 s) = true ∧ (meDescAt 7 s).keySrc = false ∧
       meGranted (meDescAt 7 s) s = true ∧ s.me.faulty = [] ∧ blindBits 4 1 ≠ 0 ∧ (meDescAt 7 s).verify = false ∧ s.nw.lost = true) ∧
    (∀ x ∈ [(1, 0, 1), (2, 0, 128), (3, 0, 1), (4, 0, 1), (5, 0, 1), (0x10, 1, 4), (0x11, 2, 6), (0x12, 3, 9), (0x13, 5, 4), (0x14, 4, 4),
        (0x20, 6, 128), (0x21, 7, 128), (0x22, 6, 128), (0x23, 7, 128), (0x24, 6, 128)],
      let s := meState (meBytes x.1 x.2.1 x.2.2 2) [] false
      meWaits x.1 s = true ∧ meFits x.1 x.2.1 x.2.2 = true ∧ meAddrOk (meDescAt 7 s) = true ∧ (meDescAt 7 s).keySrc = false ∧
        meGranted (meDescAt 7 s) s = true ∧ s.me.faulty = [] ∧ s.nw.lost = false) := by
  decide +kernel

/-- ModularEngine: a sum whose modulus is below 3 and one that is served, with nothing drawn, and the product 1 · G on P-256, which a fault
may strike. -/
theorem witness_ModularEngine_results :
    (let l := fun m x y : Nat => natLE 8 x ++ natLE 8 y ++ natLE 8 m
     blindBits 1 1 = 0 ∧ (meCompute 1 0 1 (l 2 0 0)).status ≠ stOk ∧ (meCompute 1 0 1 (l 3 2 2)).status = stOk ∧
       (operandsOf 1 (l 3 2 2)).getLastD 0 = 3 ∧ (operandsOf 1 (l 3 2 2)).getD 0 0 = 2 ∧ (operandsOf 1 (l 3 2 2)).getD 1 0 = 2) ∧
    (meCompute 0x10 1 4 (natLE 32 1)).status = stOk := by
  decide +kernel

/-- EngineDoorbells: a tail at the head and one past it, over a known and an unknown operation, and an abort with a descriptor and none. -/
theorem witness_EngineDoorbells :
    (∀ op ∈ [1, 0xFF], let s := onEng (fun e => { e with vcTail := 255 }) (vcState 0 0 (natLE 1 op) [])
      calm s = true ∧ s.eng.vcMine = [] ∧ s.eng.meMine = [] ∧ s.eng.vcHead = 255 ∧ (0xFFFFFF00 : Word).toNat % 256 = (s.eng.vcHead + 1) % 256 ∧ (vcDescAt 255 s).op = op ∧
        (vcDescAt 255 s).irq = false) ∧
    (∀ op ∈ [1, 0xFF], let s := onEng (fun e => { e with meTail := 7 }) (meState (natLE 1 op) [] false)
      calm s = true ∧ s.eng.vcMine = [] ∧ s.eng.meMine = [] ∧ s.eng.meHead = s.eng.meTail ∧ (0xFFFFFFF8 : Word).toNat % 8 = (s.eng.meHead + 1) % 8 ∧ (meDescAt 7 s).op = op ∧
        (meDescAt 7 s).irq = false) ∧
    (meState [] [] false).eng.meHead ≠ (meState [] [] false).eng.meTail := by
  decide +kernel

end Sys2Proof.Tests
end

