-- ==== Sys2Proof/Tests/WitnessField.lean ====
section
/-! SUPPORT. Concrete states that meet the hypotheses of the statements about the contactless part, the tamper logic and the test
access port, a clause at a time. -/
set_option Elab.async false
namespace Sys2Proof.Tests
open Sys2Proof.Machine Sys2Proof.Claim

/-! ## The tag -/

/-- A powered part in the field, at a point of activation. -/
def inField (f : Cl → Cl) : State := { up with cl := f { field := true } }

/-- The same part without main power. -/
def dark (s : State) : State := { s with plat := { s.plat with pwrOk := false } }

/-- CardActivation: no field, with and without main power; the field and its role, with and without main power; each state of
activation, the identifier of the field and another, the serving part and one that does not run, a running EXEC at its time. -/
theorem witness_CardActivation :
    (up.cl.field = false ∧ up.plat.pwrOk = true ∧ (dark up).plat.pwrOk = false) ∧
    (∀ s ∈ [inField id, dark (inField id)], s.cl.field = true ∧ (if s.plat.pwrOk then s.cl.role else storedMode s) = 1 ∧ s.cl.iso = .idle ∧
      s.cl.uid = 0 ∧ (1 : BitVec 32) ≠ s.cl.uid ∧ jhdrSeq s = jdoneSeq s) ∧
    (∀ i ∈ [Iso.ready, .active, .halted], (inField (fun c => { c with iso := i })).cl.iso = i) ∧
    (inField (fun c => { c with iso := .active })).cl.rats = false ∧
    (let s := inField (fun c => { c with iso := .active, rats := true })
     s.cl.iso = .active ∧ s.cl.rats = true ∧ s.cl.app = .none ∧ s.plat.pwrOk = true ∧ isReady s = true ∧ s.cpuV.stopped = false ∧
       s.cpuV.halted = false ∧ (dark s).plat.pwrOk = false) ∧
    (let s := inField (fun c => { c with iso := .active, rats := true, app := .command })
     s.cl.app = .command ∧ s.cl.execAt = none) ∧
    (let a := advance 0 { onCmd (fun c => { c with clSess := true }) (inField (fun c => { c with iso := .active, rats := true, app := .command, execAt := some 0 })) with
       clk := { now := 3866430 } }
     a.cl.execAt = some 0 ∧ a.cmd.clSess = true ∧ 0 + 3866430 ≤ a.clk.now) ∧
    (let s := onCmd (fun c => { c with owed := [{ call := { call false [] with via := .contactless }, opcode := 0x0401, wait := .held }] }) (inField id)
     s.cl.field = true ∧ ∃ o ∈ s.cmd.owed, o.call.via = .contactless) := by
  decide +kernel

/-- The tag application selected, in a memory security state, with readable and writable pages and a counter the field may use. -/
def tagged (sec : MemSec) : State :=
  { inField (fun c => { c with iso := .active, rats := true, app := .tag, sec := sec, rndB := some 0 }) with
    nv := { State.reset.nv with tag := [(131, 0x77), (191, 0x77), (192, 0x03), (207, 0xC0)] } }

/-- A command of the field with the MAC it has in secured, the session keys and CC being zero. -/
def fieldCmd (ins p1 p2 : Nat) (data : Bytes) (le : Nat) : Apdu7816 :=
  { p1 := p1, p2 := p2, data := data, le := le
    mac := (cmac (bytes128 0) (natBE 2 0 ++ ([0x80] ++ natBE 1 ins ++ natBE 1 p1 ++ natBE 1 p2 ++ data))).take 8 }

/-- TagCommandsInTheField: the application selected or not; in each security state; in secured a command with its MAC and one without; the
lock of the tag memory held and free. -/
theorem witness_TagCommandsInTheField :
    (∀ sec ∈ [MemSec.closed, .open_, .secured], (tagged sec).cl.field = true ∧
      (if (tagged sec).plat.pwrOk then (tagged sec).cl.role else storedMode (tagged sec)) = 1 ∧ (tagged sec).cl.iso = .active ∧
      (tagged sec).cl.rats = true ∧ (tagged sec).cl.app = .tag ∧ (tagged sec).cl.sec = sec) ∧
    (inField (fun c => { c with iso := .active, rats := true })).cl.app ≠ .tag ∧
    (∀ ins p1 p2 le : Nat, ∀ data, (fieldCmd ins p1 p2 data le).mac = (cmac (bytes128 (tagged .secured).cl.skMac)
      (natBE 2 (tagged .secured).cl.cc ++ ([0x80] ++ natBE 1 ins ++ natBE 1 p1 ++ natBE 1 p2 ++ data))).take 8) ∧
    (let s := inField (fun c => { c with mirror := true, lockTo := 1 })
     s.cl.mirror = true ∧ s.plat.pwrOk = true ∧ s.clk.now < s.cl.lockTo ∧ s.cl.fuel = none) ∧
    (let s := inField (fun c => { c with mirror := true })
     s.cl.mirror = true ∧ s.plat.pwrOk = true ∧ isReady s = true ∧ s.cpuV.stopped = false ∧ s.cpuV.halted = false ∧ s.cl.lockTo ≤ s.clk.now) := by
  refine ⟨by decide +kernel, by decide, ?_, by decide +kernel, by decide +kernel⟩
  intro ins p1 p2 le data
  have h : (tagged .secured).cl.skMac = 0 := rfl
  have c : (tagged .secured).cl.cc = 0 := rfl
  rw [h, c, fieldCmd]

/-- TagCommandsInTheField, the conditions of its commands: the ranges of READ at their ends, pages the maps let the field read and write,
counters it may read and increment, one that cannot pass its top; words that do not read, of the password and of a page. -/
theorem witness_TagCommandsInTheField_maps :
    let readable (p n : Nat) : Bool := decide (p + n ≤ 4) || decide (8 ≤ p) && decide (p + n ≤ 13) || decide (96 ≤ p) && decide (p + n ≤ 2048)
    (readable 3 1 = true ∧ readable 3 2 = false ∧ readable 8 5 = true ∧ readable 12 2 = false ∧ readable 96 8 = true ∧ readable 2047 1 = true ∧
      readable 2041 8 = false) ∧
    (bitN (pageEntry 96 (tagged .open_)) 0 = true ∧ bitN (pageEntry 96 (tagged .secured)) 2 = true ∧ bitN (pageEntry 2047 (tagged .secured)) 1 = true ∧
      bitN (pageEntry 112 (tagged .secured)) 2 = true ∧ bitN (pageEntry 128 (tagged .secured)) 2 = false) ∧
    (bitN (ctrEntry 0 (tagged .open_)) 0 = true ∧ bitN (ctrEntry 63 (tagged .secured)) 1 = true ∧ bitN (ctrEntry 1 (tagged .secured)) 1 = false) ∧
    (ctrValue 63 (tagged .secured)).1 = some 0 ∧ pwdFails (tagged .closed) = 0 ∧ (tagged .closed).nv.torn = [] ∧
    (∀ e ∈ [(8, 64, 8), (192, 1536, 16)], let s := onNv (fun n => { n with torn := [e.1] }) (tagged .open_)
      s.nv.torn.any (fun w => decide (e.2.1 < 8 * w + 8 ∧ 8 * w < e.2.1 + e.2.2)) = true) := by
  decide +kernel

/-- A read at one of its steps, with a generator or without it. -/
def reading (step : BadgeStep) (now : Nat) (drbg : Option Drbg) : State :=
  let b : BadgeRun := {
    call := call false [], step := step, startedAt := 0, timeout := 100, pollAt := 1, saved := 0, cert := [], challenge := [] }
  { up with
    clk := { now := now }, nw := { drbg := drbg }, cl := { role := 2, badge := some b }
    cmd := { owed := [{ call := call false [], opcode := 0x0906, wait := .badge }] } }

/-- BadgeReader: each step before and at its times; a field transaction of each kind that runs; no generator. -/
theorem witness_BadgeReader :
    (∀ step ∈ [BadgeStep.waiting, .sensing, .polling, .selecting, .reading, .challenged], ∀ now ∈ [1250000, 1250001, 5000000, 5000001, 25000000, 150000000],
      let a := advance 0 (reading step now none)
      calm (onCmd (fun c => { c with owed := [] }) a) = true ∧ a.cmd.owed = [{ call := call false [], opcode := 0x0906, wait := .badge }] ∧
        a.cl.badge.map (·.step) = some step ∧ a.cl.badge.map (·.call.via) = some .spi ∧ a.cl.badge.map (·.startedAt) = some 0 ∧
        a.cl.badge.map (·.pollAt) = some 1 ∧ a.cl.badge.map (·.timeout) = some 100 ∧ a.cl.field = false ∧ a.clk.now = now) ∧
    (∀ f ∈ [fun c : Cl => { c with rndB := some 0 }, fun c => { c with execAt := some 0 }, fun c => { c with frameTo := 295 }],
      let a := advance 0 (onCl (fun c => f { c with field := true }) (reading .waiting 0 none))
      a.cl.field = true ∧ (a.cl.rndB ≠ none ∨ a.cl.execAt ≠ none ∨ a.clk.now < a.cl.frameTo)) ∧
    (drbgGenerate 32 (advance 0 (reading .reading 0 none))).1 = none := by
  decide +kernel

/-- BadgeReader: a challenge that is drawn without waiting. -/
theorem witness_BadgeReader_challenge :
    ∃ ch t, drbgGenerate 32 (advance 0 (reading .reading 0 (some { key := 0, v := 0, served := 0, reseedAt := 0 }))) = (some ch, t) ∧
      t.clk.now = (advance 0 (reading .reading 0 none)).clk.now :=
  ⟨_, _, rfl, rfl⟩

/-! ## Tamper and test access -/

/-- A part in service whose sources have the given table bytes, with a valid time base. -/
def tampered (entry : Nat) (f : Bk → Bk) : State := { host with bk := f { table := List.replicate 32 entry } }

/-- TamperLogic: armed sources of each level, one that is OFF, active or disarmed; a device held in reset, and one without main power; an input at rest either way; sources that become
inactive and are re-armed at 10 ms; main power or none, before and at a sample, a loop that was missing at the sample before. -/
theorem witness_TamperLogic :
    (∀ l ∈ [0, 1, 2, 3, 4], let a := advance 0 (tampered l id)
      calm a = true ∧ unserved (turnMram * 2 ^ 32) a = true ∧ unserved (turnMram * 2 ^ 32 + 2) a = true ∧ tampLevel 23 a = l ∧ tampOff 23 a = false ∧ a.bk.active.getLsbD 23 = false ∧ a.bk.disarmed.getLsbD 23 = false ∧
        tampLevel 0 a = l ∧ tampOff 0 a = false ∧ a.nv.life = .operational) ∧
    (tampOff 0 (tampered 8 id) = true ∧ (tampered 1 (fun b => { b with active := 1 })).bk.active.getLsbD 0 = true ∧
      (tampered 1 (fun b => { b with disarmed := 1 })).bk.disarmed.getLsbD 0 = true) ∧
    (let a := advance 0 (tampered 1 (fun b => { b with active := 16 }))
     a.bk.active.getLsbD 4 = true ∧ a.bk.active.getLsbD 23 = false) ∧
    (∀ l ∈ [0, 4], let a := advance 0 { tampered l id with plat := {} }
      running a = false ∧ a.plat.pwrOk = true ∧ unserved (turnMram * 2 ^ 32) a = true ∧ unserved (turnMram * 2 ^ 32 + 2) a = true ∧
        tampLevel 23 a = l ∧ tampOff 23 a = false ∧ a.bk.active.getLsbD 23 = false ∧ a.bk.disarmed.getLsbD 23 = false) ∧
    (let a := advance 0 (dark (tampered 1 id))
     running a = false ∧ a.plat.pwrOk = false) ∧
    (let a := advance 0 { tampered 1 id with clk := { now := 2500000 } }
     a.bk.active.getLsbD 23 = false ∧ smGet 0 a.bk.offAt 23 + 2500000 ≤ a.clk.now) ∧
    (advance 0 (tampered 1 id)).clk.now < smGet 0 (advance 0 (tampered 1 id)).bk.offAt 23 + 2500000 ∧
    (let a := advance 0 { dark (tampered 4 (fun b => { b with loopMiss := 8 })) with clk := { now := 3906250 } }
     a.plat.pwrOk = false ∧ a.plat.vbat = true ∧ a.bk.sampleAt + 3906250 ≤ a.clk.now ∧ a.bk.loopMiss.getLsbD (7 - 4) = true ∧
       tampOff 17 a = false ∧ tampLevel 17 a = 4 ∧ smGet 0 a.nv.bbram.times 17 = 0) ∧
    (advance 0 (dark up)).clk.now < (advance 0 (dark up)).bk.sampleAt + 3906250 := by
  simp only
  decide +kernel

/-- TestAccess: every scope open and none, a denied instruction with and without main power and with DBG_DENIED armed or not, a scope at
its end and before it, under an instruction that needs it and one that does not. -/
theorem witness_TestAccess :
    (∀ scope ∈ [1, 2, 4, (15 : BitVec 4)], (onTap (fun t => { t with scope := scope }) up).tap.scope = scope) ∧
    ((1 : BitVec 4).getLsbD 0 = true ∧ (2 : BitVec 4).getLsbD 1 = true ∧ (4 : BitVec 4).getLsbD 2 = true) ∧
    (up.tap.scope.getLsbD 0 = false ∧ up.tap.scope.getLsbD 1 = false ∧ up.tap.scope.getLsbD 2 = false ∧ up.plat.pwrOk = true ∧
      (dark up).plat.pwrOk = false ∧ tampOff 23 up = false ∧ up.bk.active.getLsbD 23 = false ∧ up.bk.disarmed.getLsbD 23 = false) ∧
    (∀ ins ∈ [TapIns.extest, .debug, .idcode], let a := advance 0 { up with clk := { now := 5 }, tap := { ins := ins, scope := 15, until_ := 5 } }
      a.tap.scope ≠ 0 ∧ a.tap.until_ ≤ a.clk.now ∧ a.tap.ins = ins) ∧
    (let a := advance 0 { up with clk := { now := 5 }, tap := { scope := 15, until_ := 6 } }
     a.clk.now < a.tap.until_) ∧
    (let s := { up with fp := { ports := [(2, { mode := 1, link := true })] }, tap := { ins := .extest } }
     s.fp.egr = [] ∧ (portOf 2 (relinkAll s)).link ≠ (portOf 2 s).link) := by
  decide +kernel

end Sys2Proof.Tests
end

