-- ==== Sys2Proof/Tests/WitnessPath.lean ====
section
/-! SUPPORT. Concrete states that meet the hypotheses of the statements about the order of refusals, the frame path, pumps,
key store, riser, transactions and the time unit, a clause at a time; where a statement lets ticks pass, none pass here. -/
set_option Elab.async false
namespace Sys2Proof.Tests
open Sys2Proof.Machine Sys2Proof.Claim

/-! ## The order of refusals -/

/-- A request with n zero bytes in one element. -/
def bulk (n : Nat) : Call := call false [(1, zs n)]

/-- What every clause about a refusal assumes: a calm device in which an interpreter takes the session's packets. -/
def heard (c : Call) (s : State) : Bool := calm s && mayTake c.via s && viaOpen c.via s && !controlDown s

/-- Size, stage and version pass. -/
def versionOk (opc : Nat) (c : Call) (s : State) : Bool :=
  heard c s && decide (16 + (c.pkt.tlvs.map tlvSize).sum ≤ 16384) && isReady s &&
    (if (sessOf c.via s).negotiated then c.pkt.major == (sessOf c.via s).maj && decide (c.pkt.minor ≤ (sessOf c.via s).min)
     else (opc == 0x0101 || opc == 0x0103 || opc == 0x0104) && decide (2 ≤ c.pkt.major))

/-- The feature of an opcode is agreed, and an expert form granted. -/
def featureOk (opc : Nat) (c : Call) (s : State) : Bool :=
  match featureOf opc with
  | some b => bitN (sessOf c.via s).feat b
  | none => true
def expertOk (opc : Nat) (c : Call) (s : State) : Bool := !c.pkt.expert || bitN (expertMask c.via s) (opc / 256 - 1)

/-- CommandAcceptance: a device in reset; an applet that does not run; a ring whose earlier request is not taken yet and one whose
reply ring is full; SPI with its sixteen slots full; a control core that is down; a packet past 16,384 bytes
and one of that length in a stage that serves nothing; the wrong version before and after HELLO; a request the field may not
make, another it may not make in its expert form; a feature not agreed; expert forms not granted. -/
theorem witness_CommandAcceptance :
    let sess (e : Sess) : State := { host with cmd := { spiSess := e } }
    let c := call false []
    let f := { c with via := .contactless }
    let field := { host with cmd := { clSess := true } }
    running { host with plat := { stage := .reset } } = false ∧
    (calm up = true ∧ viaOpen (.applet .vault 7) up = false) ∧
    (let s := { host with cmd := { rings := [(3, { size := 16, rspTail := 15 })] } }
     calm s = true ∧ mayTake (.ring 3) s = false) ∧
    (let s := { host with cmd := { spiReplies := List.replicate 16 (mkReply c 0x0104 stOk [] (3, 0)) } }
     calm s = true ∧ mayTake c.via s = false ∧ 16 ≤ s.cmd.spiReplies.length) ∧
    (let s := { host with cpuC := { stopped := true } }
     calm s = true ∧ mayTake c.via s = true ∧ viaOpen c.via s = true ∧ controlDown s = true) ∧
    (heard (bulk 16365) host = true ∧ 16 + ((bulk 16365).pkt.tlvs.map tlvSize).sum = 16388) ∧
    (let s := { host with plat := { stage := .tableInit } }
     heard (bulk 16364) s = true ∧ 16 + ((bulk 16364).pkt.tlvs.map tlvSize).sum = 16384 ∧ isReady s = false) ∧
    (heard c (sess {}) = true ∧ isReady (sess {}) = true ∧ versionOk 0x0102 c (sess {}) = false ∧
      versionOk 0x0101 c (sess {}) = true) ∧
    (heard c host = true ∧ versionOk 0x0102 { c with pkt := { c.pkt with minor := 1 } } host = false) ∧
    (versionOk 0x0105 f field = true ∧ contactlessOps.contains 0x0105 = false ∧ contactlessOps.contains 0x0104 = true ∧
      versionOk 0x0104 { f with pkt := { f.pkt with expert := true } } field = true) ∧
    (let s := sess { negotiated := true, maj := 3, min := 0, feat := 255 - 4 }
     versionOk 0x0701 c s = true ∧ featureOk 0x0701 c s = false) ∧
    (let s := { host with pol := {} }
     versionOk 0x0D03 (call true []) s = true ∧ featureOk 0x0D03 (call true []) s = true ∧ expertOk 0x0D03 (call true []) s = false) := by
  decide +kernel

/-- CommandAcceptance, the later steps: SEALED and RETIRED; a missing parameter; a parameter that needs a feature; a vault that is
down, and a part in recovery; too many outstanding commands, and one with the same TAG. -/
theorem witness_CommandAcceptance_later :
    let c := call false []
    let reach (opc : Nat) (c : Call) (s : State) : Bool := versionOk opc c s && featureOk opc c s && expertOk opc c s
    let life (l : Life) : State := { host with nv := { host.nv with life := l } }
    let owe (n : Nat) : State := { host with cmd := { host.cmd with
      owed := (List.range n).map (fun i => { call := { c with pkt := { c.pkt with tag := 2 + i } }, opcode := 0x0401, wait := .held }) } }
    (reach 0x0401 c (life .sealed) = true ∧ sealedRefuses 0x0401 c = true) ∧
    (reach 0x0201 c (life .retired) = true ∧ retiredServes.contains 0x0201 = false) ∧
    (reach 0x0203 c host = true ∧ acceptRefuse 0x0203 c host = none ∧ vaultServed 0x0203 c = false ∧
      ((checkTlvs c.pkt.expert (agreed c.via 7 host) (params 0x0203) c.pkt.tlvs [] 16).or (missingPar (params 0x0203) c.pkt)).isSome = true) ∧
    (let c := call false [n1 tyTxn 7, (1, zs 12)]
     let s := { open7 with cmd := { spiSess := { negotiated := true, maj := 3, min := 0, feat := 254 } } }
     reach 0x0502 c s = true ∧ acceptRefuse 0x0502 c s = none ∧ s.ri.st ≠ .retraining ∧
      (checkTlvs c.pkt.expert (agreed c.via 7 s) (params 0x0502) c.pkt.tlvs [] 16).or (missingPar (params 0x0502) c.pkt) = none ∧
      (featureRefuse 0x0502 c s).isSome = true) ∧
    (let s := { host with cpuV := { stopped := true } }
     reach 0x0A03 c s = true ∧ acceptRefuse 0x0A03 c s = none ∧ featureRefuse 0x0A03 c s = none ∧ vaultServed 0x0A03 c = true ∧
       (checkTlvs c.pkt.expert (agreed c.via 7 s) (params 0x0A03) c.pkt.tlvs [] 16).or (missingPar (params 0x0A03) c.pkt) = none ∧
       vaultDown s = true) ∧
    (let s := { host with plat := { stage := .recovery } }
     reach 0x0601 c s = true ∧ acceptRefuse 0x0601 c s = none ∧ featureRefuse 0x0601 c s = none ∧
       (checkTlvs c.pkt.expert (agreed c.via 7 s) (params 0x0601) c.pkt.tlvs [] 16).or (missingPar (params 0x0601) c.pkt) = none ∧
       recoveryServes 0x0601 c s = false) ∧
    (running (owe 8) = true ∧ (outstanding c.via (owe 8)).length = 8 ∧ sessLimit c.via = 8 ∧ isReady (owe 8) = true) ∧
    (let d := { c with pkt := { c.pkt with tag := 8 } }
     (outstanding d.via (owe 7)).length = 7 ∧ ∃ o ∈ outstanding d.via (owe 7), o.call.pkt.tag = d.pkt.tag) := by
  decide +kernel

/-! ## The frame path -/

/-- A frame without an application unit, of a length and an EtherType. -/
def frame (len ety : Nat) : Frame :=
  { len := len, fcsOk := true, codingError := false, dst := 0x010CCD040001, src := 2, tags := [], etherType := ety, ip := none,
    ptp := none, apdu := none, rct := none, rest := [] }

/-- An application unit with one secret segment and a Bluortis extension of a profile. -/
def unit (prof : Nat) (tag : BitVec 128) : Apdu :=
  { appid := 0x4000, ident := some [65], gocbRef := [], lens := [], asdus := [{ smpCnt := 1, smpSynch := 2 }], stNum := 0,
    sqNum := 0, tSec := 0, tFrac := 0, clockFailure := false, clockNotSync := false, spdu := 0
    segs := [{ secret := false, bytes := [1, 2] }, { secret := true, bytes := [3, 4, 5] }], sec := .bluortis 0xB7 34 1 prof 9 0 7 tag }

/-- Every port up at 25 Gbit/s, PCIe up, queue 5 with four buffers, and interrupts of queues masked. -/
def lines : State := { host with
  plat := { stage := .ready, dpReleased := true }
  fp := {
    ports := [0, 1, 2, 3].map (fun p => (p, { mode := 1, link := true, mapUnprot := 5, mapUnknown := 5, mapMalformed := 5 }))
    rxq := [(5, { size := 64, csize := 64, bufs := List.replicate 4 (4096, 2048), intMask := true })]
    txq := [(63, { size := 64, csize := 64, intMask := true })] } }

/-- Records that hold all the tickets a direction may hold. -/
def crowd (n : Nat) : List Rec := List.replicate n
  { verdict := { ver := 1, code := .unprotected, flags := 0, corr := false, cinc := false, memerr := false, len := 60, ts := 0,
                 stream := 0xFFFFFF, port := 0, rclass := 0, fclass := 0, vtag := false, epoch := 0 }
    frame := frame 60 0x88F7, flen := 60, port := 0, rel := 1, at_ := 0, ticket := some 0, cells := 2 }

/-- FrameArrival: an open port; the frames of each clause at the ends of the lengths; a bypass and a malformed class; no ticket, and
no cells. -/
theorem witness_FrameArrival :
    let a := pass 0 lines
    let full (r : RxQ) : State := inTurn turnTicket 0 3 (pass 0 { lines with fp := { lines.fp with rxq := [(5, r)] } })
    (∀ p : Fin 4, portUp p a = true ∧ (pairOf (p / 2) a).mode ≠ .hsr) ∧ a.plat.dpReleased = true ∧ a.plat.pwrOk = true ∧
    (let f := { frame 63 0x88F7 with codingError := true }
     f.codingError = true ∧ f.len < 64) ∧
    (frame 63 0x88F7).len < 64 ∧ 2000 < (frame 2001 0x88F7).len ∧
    (let f := { frame 2000 0x88F7 with fcsOk := false }
     f.codingError = false ∧ f.fcsOk = false ∧ 64 ≤ f.len ∧ f.len ≤ 2000) ∧
    (let c := classify 3 (pairOf 1 a).mode (frame 64 0x88F7) a
     let b := inTurn turnTicket 0 3 a
     ingressMayTake b = true ∧ (16 + c.view.len + 63) / 64 ≤ freeDelivery b ∧ c.fclass = .bypass) ∧
    (let c := classify 3 (pairOf 1 a).mode (frame 64 0x88BA) a
     c.fclass = .sv ∧ c.parseOk = false) ∧
    ingressMayTake (full { recs := crowd 896 }) = false ∧
    (let s := pass 0 { lines with fp := { lines.fp with wdDelivery := 32767 } }
     let c := classify 3 (pairOf 1 s).mode (frame 64 0x88F7) s
     freeDelivery (inTurn turnTicket 0 3 s) < (16 + c.view.len + 63) / 64) := by
  decide +kernel

/-- An ingress frame of queue 5's map, with its lookup done; the work is on lanes 0 and 1. -/
def inFlight (prof : Nat) (tag : BitVec 128) : Ing :=
  { ticket := 7, port := 2, frame := { frame 80 0x88BA with apdu := some (unit prof tag) }, flen := 80, fclass := .sv
    parseOk := true, rclass := 0, vtag := false, ts := 0, sofTick := 0, lastBit := 0, sec := (unit prof tag).sec, hsr := none, rct := none
    ptpMark := false, key := none, cands := [], snap := {}
    paired := false, stage := .working, entry := some 3, bank := some { prof := prof }, slot := some 2, lanes := [0, 1], latched := [⟨7, 7, 5⟩, ⟨9, 9, 6⟩]
    cells := 2 }

/-- The key each lane has latched, zero here by shares of its own, and the tag of the frame under it. -/
def latchedKey (prof : Nat) : Bytes := (bytes256 0).drop (if prof = 1 then 16 else 0)
def goodTag (prof : Nat) : BitVec 128 := frameTag prof (latchedKey prof) (unit prof 0).segs (unit prof 0).sec

/-- A frame at its tag work. -/
def atWork (prof : Nat) (tag : BitVec 128) : State := { lines with fp := { lines.fp with ing := [inFlight prof tag], nextTicket := 8 } }

/-- TagWork: a frame at its work on two lanes, whose tag is the extension's and fits its profile, in each profile. -/
theorem witness_TagWork :
    (∀ prof ∈ [0, 1, 2, 3],
      ingOf 7 (pass 0 (atWork prof 0)) = some (inFlight prof 0) ∧ (inFlight prof 0).bank = some { prof := prof } ∧
      (inFlight prof 0).frame.apdu = some (unit prof 0) ∧ (inFlight prof 0).stage = .working ∧
      (inFlight prof 0).lanes.length = 2 ∧ (inFlight prof 0).sec = (unit prof 0).sec ∧
      ∀ l ∈ (inFlight prof 0).latched, (bytes256 (l.share0 ^^^ l.share1)).drop (if prof = 1 then 16 else 0) = latchedKey prof) ∧
    ∀ prof tag, frameTag prof (latchedKey prof) (unit prof (goodTag prof)).segs (unit prof (goodTag prof)).sec =
      extTag (unit prof (goodTag prof)).sec ∧ extFitsProf prof (unit prof tag).sec = true := by
  refine ⟨by decide +kernel, fun prof tag => ⟨?_, by simp [unit, extFitsProf]⟩⟩
  simp [goodTag, unit, frameTag, extCovered, extIv, extTag]

/-- A complete instant of a group of one operand, with sample x. -/
def instant (x : Int) : CSlot := { n := 3, xs := [(0, x)], have_ := 1, queued := true, from_ := [(0, 7)] }
def grouped (x : Int) : State := { lines with co := {
  groups := [(4095, { ops := [{ idx := 3, chan := 0, gain := 65536, sOff := 0, qOff := 4 }], thr := 1, slots := [instant x] })]
  queue := [⟨0, 0, 4095, 3⟩] } }

/-- TagWork: an instant on the bound of the inequality and one just beyond it, its frame no longer in flight. -/
theorem witness_TagWork_evaluation :
    (∀ x ∈ [1, -1, 2, (-2 : Int)], (pass 0 (grouped x)).co.queue = [⟨0, 0, 4095, 3⟩] ∧
      (groupOf 4095 (pass 0 (grouped x))).slots.find? (fun c => c.n == 3 && c.queued) = some (instant x) ∧ (instant x).bad = 0) ∧
    65536 * (65536 * 1 : Int).natAbs ≤ 2 ^ 32 * 1 ∧ 2 ^ 32 * 1 < 65536 * (65536 * 2 : Int).natAbs := by
  decide +kernel

/-- A frame whose work is done, 276 ticks after its last bit; and one whose work ended 285 ticks after it. -/
def judged (code : Code) (bank : Option Bank) (doneAt : Nat) : State :=
  { lines with
    clk := { now := 1000 }
    fp := { lines.fp with ing := [{ inFlight 0 0 with
      stage := .done, code := some code, bank := bank, lastBit := 724, doneAt := doneAt }], nextTicket := 8 } }

/-- VerdictRelease: on time at both ends and late; steered by the entry and by each map; a queue whose mask drops the code, one
without a mask, none of them spilling. -/
theorem witness_VerdictRelease :
    (∀ doneAt ∈ [0, 1008, 1009], ∀ code ∈ [Code.authOk, .unknownStream, .malformed, .unprotected], ∀ bank ∈ [none, some ({ rxq := 5 } : Bank)],
      let a := pass 0 (judged code bank doneAt)
      ∃ x, ingOf 7 a = some x ∧ x.stage = .done ∧ x.committed = false ∧ x.memErr = false ∧ x.code = some code ∧ x.slot = some 2 ∧
        (if doneAt = 1009 then x.lastBit + 284 < x.doneAt else x.lastBit + 276 ≤ a.clk.now ∧ x.doneAt ≤ x.lastBit + 284)) ∧
    (let o := rxqOf 5 lines
     o.size ≠ 0 ∧ o.drop = 0 ∧ o.spilling = false) ∧
    (8 : Nat).testBit (codeNo .noKey) = true := by
  refine ⟨?_, by decide, by decide⟩
  intro d hd c hc b hb
  simp only [List.mem_cons, List.not_mem_nil, or_false] at hd hc hb
  rcases hd with rfl | rfl | rfl <;> rcases hc with rfl | rfl | rfl | rfl <;> rcases hb with rfl | rfl <;>
    exact ⟨_, rfl, rfl, rfl, rfl, rfl, rfl, by decide⟩

/-- DeliveryAndSpill: a record in memory and one in staging with ring space; one behind a frame without its verdict; and one that has waited 2 µs without it. -/
theorem witness_DeliveryAndSpill :
    let q (f : RxQ → RxQ) : State := { lines with clk := { now := 500 }, fp := { lines.fp with rxq := [(5, f (rxqOf 5 lines))] } }
    let r := (crowd 1).headD ((crowd 1).head (by decide))
    (let s := q (fun x => { x with recs := crowd 2 })
     (rxqOf 5 s).recs = r :: crowd 1 ∧ (rxqOf 5 s).staged = [] ∧ nextQueue s = some 5) ∧
    (let y := { inFlight 0 0 with bank := none, stage := .waitRead 0 }
     let t := q (fun x => { x with recs := crowd 2 })
     let s := { t with fp := { t.fp with ing := [y] } }
     (rxqOf 5 s).recs = r :: crowd 1 ∧ (rxqOf 5 s).staged = [] ∧
       ∃ y ∈ s.fp.ing, y.lastBit < r.rel ∧ y.bank = none ∧ y.code = none ∧ y.memErr = false) ∧
    (let s := q (fun x => { x with staged := crowd 2, spilling := true })
     (rxqOf 5 s).staged = r :: crowd 1 ∧ nextQueue s = some 5) ∧
    (let a := pass 0 (q (fun x => { x with recs := crowd 2, bufs := [] }))
     (rxqOf 5 a).recs = r :: crowd 1 ∧ (rxqOf 5 a).staged = [] ∧ (crowd 2).Pairwise (fun a b => recBefore a b = true) ∧ r.at_ + 500 ≤ a.clk.now ∧ ringSpace (rxqOf 5 a) ((16 + r.flen + 15) / 16 * 16) = false ∧
       (rxqOf 5 a).spilling = false) := by
  decide +kernel

/-- A bypass frame of 14 bytes to port 3. -/
def plain : TxDesc :=
  { len := 14, port := 3, pair := false, bypass := true, oneStep := false, stream := 0xFFFFFF, frame := frame 14 0x88F7 }

/-- A frame of queue 63 at a stage, its descriptor the only one owed. -/
def leaving (stage : EgrStage) (doneAt : Nat) (port : Port) : State :=
  { lines with
    clk := { now := 1000 }
    fp := { lines.fp with
      ports := [(3, { port with line := if stage = .released then [⟨1000, 63, .mine 9⟩] else [] })]
      txq := [(63, { size := 64, csize := 64, intMask := true, dhead := 1, order := [(0, none)] })]
      egr := [{ ticket := 9, q := 63, desc := 0, d := plain, stage := stage, lastByte := if stage = .fetching then none else some 814
                out := if stage = .fetching then none else some (frame 64 0x88F7), toSend := if stage = .released then [3] else []
                doneAt := doneAt, cells := 1 }]
      nextTicket := 10 } }

/-- TransmitPath: a descriptor fetched and one retried, with tickets and without; data complete; release on time at both ends and
late, to a port that is up and one that is down; the last bit of the only released frame. -/
theorem witness_TransmitPath :
    (let q (w : Bool) (wd : Nat) : State := { lines with fp := { lines.fp with
       wdTransmit := wd, txq := [(63, { size := 64, csize := 64, descs := [plain, plain], waiting := w })] } }
     (∀ w ∈ [true, false], ∀ n ∈ [0, 24576], (txqOf 63 (q w n)).descs = [plain, plain] ∧ (txqOf 63 (q w n)).size ≠ 0 ∧
       pcieDown (q w n) = false ∧ (txqOf 63 (q w n)).waiting = w ∧ (q w n).fp.egr = [] ∧
       egressMayTake (inTurn turnTicket 0 (4 + 63) (q w n)) = decide (n = 0)) ∧ plain.bypass = true ∧ descBad plain (q true 0) = false) ∧
    (let a := pass 0 (leaving .fetching 0 { mode := 1, link := true })
     ∃ x, egrOf 9 a = some x ∧ x.d.bypass = true ∧ x.refusal = none ∧ x.stage = .fetching ∧ x.cells ≠ 0 ∧ x.lastByte = none ∧ wireLen x.d x.d.len a ≤ 2000) ∧
    (∀ up ∈ [true, false], ∀ doneAt ∈ [0, 1008, 1009],
      let a := pass 0 (leaving .signed doneAt { mode := 1, link := up })
      ∃ x, egrOf 9 a = some x ∧ x.stage = .signed ∧ x.d.pair = false ∧ (pairOf (x.d.port / 2) a).mode = .independent ∧ x.lastByte = some 814 ∧
        (if doneAt = 1009 then 814 + 194 < x.doneAt else 814 + 186 ≤ a.clk.now ∧ x.doneAt ≤ 814 + 194) ∧ portUp x.d.port a = up ∧
        (txqOf x.q a).order = [(x.desc, none)] ∧ pcieDown a = false ∧ (txqOf x.q a).csize ≠ 0 ∧
        ((txqOf x.q a).ctail + 1) % (txqOf x.q a).csize ≠ (txqOf x.q a).chead ∧ x.entry = none) ∧
    (let a := pass 0 (leaving .released 1000 { mode := 1, link := true })
     ∃ x, egrOf 9 a = some x ∧ x.stage = .released ∧ x.toSend = [x.d.port.val] ∧ x.sent = [] ∧ x.d.pair = false ∧ x.d.oneStep = false ∧ x.out = some (frame 64 0x88F7) ∧
       x.entry = none ∧ (portOf x.d.port a).line.head?.map (·.item) = some (.mine 9) ∧
       (txqOf x.q a).order = [(x.desc, none)] ∧ pcieDown a = false ∧ (txqOf x.q a).csize ≠ 0 ∧
       ((txqOf x.q a).ctail + 1) % (txqOf x.q a).csize ≠ (txqOf x.q a).chead) := by
  refine ⟨by decide +kernel, ⟨_, rfl, by decide⟩, ?_, ⟨_, rfl, by decide⟩⟩
  intro u hu d hd
  simp only [List.mem_cons, List.not_mem_nil, or_false] at hu hd
  rcases hu with rfl | rfl <;> rcases hd with rfl | rfl | rfl <;> exact ⟨_, rfl, by decide⟩

end Sys2Proof.Tests
end

