-- ==== Sys2Proof/Tests/WitnessPlatform.lean ====
section
/-! SUPPORT. Concrete states that meet the hypotheses of the statements about power, resets, clocks, flash, memory tests, firmware
events, rings, SPI and applet calls, a clause at a time. -/
set_option Elab.async false
namespace Sys2Proof.Tests
open Sys2Proof.Machine Sys2Proof.Claim

/-! ## Power, resets, clocks -/

/-- PowerAndClocks: main power or none, with a source whose condition stands and with none, with VBAT and without; a start in progress, TESTMODE held, neither; a device that may start, at the ends of both times, and
each thing that keeps it in reset; a clock lost while running and not, its sources armed; a sensor at its threshold, below it, and above it
before. -/
theorem witness_PowerAndClocks :
    (running up = true ∧ up.plat.pwrOk = true ∧ (dark up).plat.pwrOk = false ∧ running (dark up) = false) ∧
    (let a := advance 0 { dark up with bk := { cond := 1 } }
     a.plat.pwrOk = false ∧ unserved (turnMram * 2 ^ 32) a = true ∧ unserved (turnMram * 2 ^ 32 + 2) a = true ∧
       a.bk.cond.getLsbD 0 = true ∧ tampOff 0 a = false ∧ a.bk.active.getLsbD 0 = false ∧ a.bk.disarmed.getLsbD 0 = false) ∧
    ((advance 0 (dark up)).bk.cond = 0 ∧ (advance 0 up).plat.vbat = true ∧
      (advance 0 { up with plat := { stage := .ready, vbat := false } }).plat.vbat = false) ∧
    (starting up = false ∧ up.plat.testMode = false ∧ starting State.reset = true ∧
      starting { up with plat := { stage := .ready, testMode := true } } = false) ∧
    (let a (p : Plat) : State := advance 0 { State.reset with clk := { now := 500000 }, plat := p }
     let may (x : State) : Bool := x.plat.stage == .reset && x.plat.pwrOk && !x.plat.testMode && x.plat.refLine && x.plat.pcieRef && x.plat.xtal25 &&
       decide (x.plat.pwrOkAt + 500000 ≤ x.clk.now) && decide (x.plat.resetAt + 2500 ≤ x.clk.now)
     may (a {}) = true ∧ may (a { resetAt := 497500 }) = true ∧ may (a { resetAt := 497501 }) = false ∧ may (a { pwrOkAt := 1 }) = false ∧
       may (a { testMode := true }) = false ∧ may (a { stage := .ready }) = false ∧ may (a { refLine := false }) = false ∧
       may (a { xtal25 := false }) = false) ∧
    (let k : State := { State.reset with nv := { State.reset.nv with life := .owned, bbram := { kek := none } } }
     k.nv.bbram.kek = none ∧ k.nv.life = .owned) ∧
    (∀ n ∈ [12, 13], tampOff n up = false ∧ up.bk.active.getLsbD n = false ∧ up.bk.disarmed.getLsbD n = false) ∧
    (let s (l : List Nat) : State := { up with factoryPageOk := false, plat := { stage := .ready, overtemp := l } }
     running (s []) = true ∧ 10 * calEff 0x0800 (s []) ≤ 1050 + calEff (0x0600 + (3 : Fin 4)) (s []) ∧
       ¬ (10 * calEff 0x0800 (s []) ≤ 1049 + calEff (0x0600 + (3 : Fin 4)) (s [])) ∧ 3 ∈ (s [3]).plat.overtemp ∧ 3 ∉ (s []).plat.overtemp) := by
  simp only
  decide +kernel

/-! ## Flash -/

/-- A READY part whose vault core calls a routine with these arguments. -/
def callRom (r1 r2 r3 : Nat) : State :=
  onCpu .vault (fun c => ((c.set 1 (BitVec.ofNat 32 r1)).set 2 (BitVec.ofNat 32 r2)).set 3 (BitVec.ofNat 32 r3)) up

/-- What RoutineRuns says, as a test that evaluates. -/
def runs (s : State) : Bool := running s && !s.cpuV.stopped && !s.cpuV.halted && s.cpuV.priv

/-- Fields of the flash controller's record and the flash. -/
def withSector (n : Nat) (x : Sector) (s : State) : State := { s with nv := { s.nv with sectors := [(n, x)] } }
def erasing (e : Erase) (s : State) : State := { s with me := { s.me with erase := some e } }

/-- An erase of sector 960, of bank 0, under way. -/
def run960 : Erase :=
  { sector := 960, suspended := false, resumedAt := 0, everResumed := false, requestedAt := none, haltedAt := 0, lastRead := 0 }

/-- FlashReadAndProgram, FL_READ: tenant code; an empty range and one past the end; the last byte; a flagged sector; a unit that errs. -/
theorem witness_FlashRead :
    let bad (s : State) : Bool := let off := (s.cpuV.regs[1]).toNat
      let n := (s.cpuV.regs[3]).toNat
      n == 0 || decide (65536 < n) || decide (16777216 < off + n) || !inVaultRam (s.cpuV.regs[2]).toNat n
    (let s := onCpu .vault (fun c => { c with priv := false }) up
     running s = true ∧ s.cpuV.stopped = false ∧ s.cpuV.halted = false ∧ s.cpuV.priv = false) ∧
    (runs (callRom 0 0x100000 0) = true ∧ bad (callRom 0 0x100000 0) = true ∧ bad (callRom 16777215 0x100000 2) = true ∧
      bad (callRom 0 0x17FFFF 2) = true) ∧
    (let s := callRom 16777215 0x17FFFF 1
     runs s = true ∧ bad s = false ∧ rangeSectors 16777215 1 = [2047] ∧ (sectorOf (redirect 2047 s) s).flag = false ∧ s.me.erase = none ∧
       s.nv.flashTorn = [] ∧ 16777215 % 32 + 1 ≤ 32) ∧
    (let s := withSector 2047 { flag := true } (callRom 16777215 0x17FFFF 1)
     bad s = false ∧ 2047 ∈ rangeSectors 16777215 1 ∧ (sectorOf (redirect 2047 s) s).flag = true) := by
  decide +kernel

/-- FlashReadAndProgram, FL_PROGRAM and FL_BLANK: ranges that are bad, a protected sector, one being erased, one flagged, a unit programmed,
and units all erased. -/
theorem witness_FlashProgram :
    let sec := 960
    let off := 8192 * 960
    let bad (s : State) : Bool := let off := (s.cpuV.regs[1]).toNat
      let n := (s.cpuV.regs[3]).toNat
      off % 32 != 0 || n == 0 || n % 32 != 0 || decide (16777216 < off + n) || (off + n - 1) / 8192 != off / 8192 || (flSource (s.cpuV.regs[2]).toNat n s).isNone
    let prog (f : State → State) : State := f (callRom off 0x100000 64)
    (runs (callRom 1 0x100000 32) = true ∧ bad (callRom 1 0x100000 32) = true ∧ bad (callRom (off + 8160) 0x100000 64) = true ∧
      bad (callRom off 0 32) = true) ∧
    (bad (callRom 0 0x100000 32) = false ∧ protectedSector 0 (callRom 0 0x100000 32) = true) ∧
    (let s := prog (erasing { run960 with sector := sec })
     bad s = false ∧ protectedSector sec s = false ∧ (s.me.erase.any (fun e => e.sector = sec)) = true) ∧
    (let s := prog (withSector sec { flag := true })
     bad s = false ∧ (flSource 0x100000 64 s).map (·.length) = some 64 ∧ (s.me.erase.any (fun e => e.sector = sec)) = false ∧
       (sectorOf sec s).flag = true) ∧
    (let s := prog (fun s => { s with nv := { s.nv with units := [(off / 32 + 1, zs 32)] } })
     bad s = false ∧ (sectorOf sec s).flag = false ∧ unitErased (off / 32 + 1) s = false ∧ unitErased (off / 32) s = true) ∧
    (let s := prog id
     bad s = false ∧ ∀ j, j < 64 / 32 → unitErased (off / 32 + j) s = true) ∧
    (let bad (off n : Nat) : Bool := off % 32 != 0 || n == 0 || n % 32 != 0 || decide (16777216 < off + n)
     bad 0 0 = true ∧ bad 16777184 64 = true ∧ bad off 64 = false ∧ rangeSectors off 64 = [960] ∧
       (sectorOf sec (withSector sec { flag := true } (callRom off 64 0))).flag = true) := by
  decide +kernel

/-- FlashErase, the routines: sectors out of range, protected, while another erase runs, bad and good, at the count that raises its event;
both settings of FL_CONFIG; a refresh with no sector queued, and one at its last step. -/
theorem witness_FlashErase_routines :
    runs (callRom 2048 0 0) = true ∧ protectedSector 2047 (callRom 2047 0 0) = true ∧ protectedSector 960 (callRom 960 0 0) = false ∧
    (erasing run960 (callRom 960 0 0)).me.erase.isSome = true ∧ (callRom 960 0 0).me.erase = none ∧
    (sectorOf 960 (withSector 960 { bad := true } (callRom 960 0 0))).bad = true ∧ (sectorOf 960 (callRom 960 0 0)).bad = false ∧
    (sectorOf 960 (withSector 960 { erases := 99999 } (callRom 960 0 0))).erases + 1 = 100000 ∧
    ((callRom 1 0 0).cpuV.regs[1]).toNat = 1 ∧ ((callRom 2 0 0).cpuV.regs[1]).toNat = 2 ∧
    (up.nv.refresh = .none ∧ (∀ e ∈ up.nv.sectors, e.2.refreshQ = false ∨ e.2.flag = true) ∧ (sectorOf up.me.margin up).flag = false) ∧
    (let s := { up with nv := { up.nv with refresh := .copied 2047 1016, refreshStage := 5 } }
     runs s = true ∧ 2047 < 2048 ∧ s.nv.refresh = .copied 2047 1016 ∧ s.nv.refreshStage = 5 ∧ s.me.erase = none ∧ (sectorOf 2047 s).flag = false) := by
  decide +kernel

/-- FlashErase, an erase under way: reads that meet it, suspended or not, and one of the other bank; a suspend to accept at once, 500 µs after
a resume and before; a resume by either time and neither; its end. -/
theorem witness_FlashErase_events :
    let a (e : Erase) (now : Nat) : State := advance 0 { erasing e up with clk := { now := now } }
    ((a run960 0).me.erase = some run960 ∧ (a run960 0).me.unified = true) ∧
    (let b := advance 0 { up with me := { erase := some run960, unified := false } }
     b.me.unified = false ∧ run960.sector / 1024 = redirect (0 / 8192) b / 1024 ∧ run960.sector / 1024 ≠ redirect (16777215 / 8192) b / 1024) ∧
    (let e : Erase := { run960 with requestedAt := some 0, everResumed := true, resumedAt := 5 }
     (a e 125005).me.erase = some e ∧ e.requestedAt.isSome = true ∧ e.resumedAt + 125000 ≤ (a e 125005).clk.now ∧ (a e 125004).clk.now < e.resumedAt + 125000) ∧
    (let e : Erase := { run960 with suspended := true, lastRead := 1000000, haltedAt := 1 }
     e.lastRead + 500 ≤ (a e 1000500).clk.now ∧ e.haltedAt + 500000 ≤ (a e 500001).clk.now) ∧
    (let e : Erase := { run960 with suspended := true, lastRead := 1000, haltedAt := 1000 }
     (a e 1499).clk.now < e.lastRead + 500 ∧ (a e 1499).clk.now < e.haltedAt + 500000) ∧
    (calm (a run960 0) = true ∧ (a run960 0).fw.sessions = [] ∧ calm (a { run960 with suspended := true } 0) = true) := by
  decide +kernel

/-! ## Memory tests and firmware events -/

/-- MemoryTests, the scrubbers: the last word of each memory, a way at 63 corrected errors, the last way in use, and a queue
that holds the one record of the path. -/
theorem witness_MemoryTests_scrub :
    running up = true ∧ (∀ m ∈ [MemId.controlRam, .controlRom, .controlBit, .streamCache, .pumpStore, .delivery, .transmit, .vaultX, .vaultY, .vaultRom,
      .mailbox, .vaultBit, .engineBuffers, .mram], memWords m - 1 < memWords m ∧ (m, memWords m - 1) ∉ up.me.faulty) ∧ up.nv.torn = [] ∧
    (let s := { up with se := { corrWays := [(15, 62)] } }
     smGet 0 s.se.corrWays (255 % 256 / 16) + 1 < 64 ∧ 255 % 256 / 16 ∉ s.se.wdWays ∧ s.se.wdWays.length < 15) ∧
    (let s := { up with se := { wdWays := List.range 15 } }
     255 % 256 / 16 ∉ s.se.wdWays ∧ 15 ≤ s.se.wdWays.length) ∧
    (let x : RxQ := { size := 64, recs := crowd 1 }
     let s := { up with fp := { rxq := [(5, x)] } }
     s.fp.rxq = [(5, x)] ∧ x.recs.length = 1 ∧ s.fp.ing = [] ∧ rxRecs up = []) := by
  decide +kernel

/-- MemoryTests, the march tests: a block that is not tested, or out of range, or too soon; the first and the next test of a die; a commanded
run at its last block and before. -/
theorem witness_MemoryTests_march :
    let c := call false []
    let s (p : Nat) (w : List Owed) : State := advance 0 { up with clk := { now := 25001 }, me := { marchAtP := p }, cmd := { owed := w } }
    (calm (onCmd (fun c => { c with owed := [] }) (s 0 [])) = true ∧ (s 0 []).cmd.owed = [] ∧ memWell .delivery = false ∧ (s 0 []).me.marchAtP = 0) ∧
    ((s 1 []).me.marchAtP + 25000 ≤ (s 1 []).clk.now ∧ (s 2 []).me.marchAtP ≠ 0 ∧ (s 2 []).clk.now < (s 2 []).me.marchAtP + 25000) ∧
    (memBlocks .controlBit = 1 ∧ 0 * 256 + 63 < memWords .controlBit ∧ 63 < 256) ∧
    (let o : Owed := { call := c, opcode := 0x0B04, wait := .march .controlBit 0 0 [] }
     (s 0 [o]).cmd.owed = [o] ∧ 0 + 1 = memBlocks .controlBit ∧ memBlocks .controlBit ≤ 1) ∧
    (let o : Owed := { call := c, opcode := 0x0B04, wait := .march .delivery 1022 3 [1, 2] }
     (s 0 [o]).cmd.owed = [o] ∧ 1022 + 1 < memBlocks .delivery) := by
  decide +kernel

/-- FirmwareEvents: a trial at its end and not due, on each core; an armed swap at its instant, before it, and whose session is gone;
a swap before its swap point, at it, between it and its commit point, at that one, of a session and of a rollback, and at its end. -/
theorem witness_FirmwareEvents :
    (∀ k ∈ [CoreId.control, .vault], let a (now : Nat) : State := advance 0 { up with
        clk := { now := now }, nv := { up.nv with recC := { trial := true, active := 1 }, recV := { trial := true, active := 1 } }
        fw := { chosenC := some 1, chosenV := some 1 } }
      running (a 0) = true ∧ (recOf k (a 0)).trial = true ∧ chosenOf k (a 0) = some (recOf k (a 0)).active ∧ (cpu k (a 0)).stopped = false ∧
        (a 75000000000).clk.now = 0 + 250000000 * (a 0).pol.trial ∧ (a 74999999999).clk.now < 0 + 250000000 * (a 0).pol.trial) ∧
    (let o (t : Nat) : Owed := { call := call false [n4 1 1], opcode := 0x0C04, wait := .armedSwap 1 t }
     let s (t : Nat) (l : List FwSess) : State := advance 0 { up with cmd := { owed := [o t] }, fw := { sessions := l } }
     calm (onCmd (fun c => { c with owed := [] }) (s 0 [])) = true ∧ (s 0 []).cmd.owed = [o 0] ∧ ptp16 (s 1 []) < 1 ∧ 0 ≤ ptp16 (s 0 []) ∧
       sessOfId 1 (s 0 []) = none ∧ (sessOfId 1 (s 0 [session 0 .control false [] []])).map (·.core) = some .control ∧
       (sessOfId 1 (s 0 [session 2 .vault false [] []])).map (·.core) = some .vault) ∧
    (∀ id ∈ [some 1, none], let w (p c : Bool) : Swap :=
       { core := .vault, sess := id, cause := 0, pointAt := 750000, commitAt := 5025000, endsAt := 15525000, pointed := p, committed := c }
     let s (now : Nat) (p c : Bool) : State :=
       advance 0 { up with clk := { now := now }, plat := { stage := if p then .swapV else .ready, swap := some (w p c) } }
     (∀ x ∈ [(749999, false, false), (750000, false, false), (5024999, true, false), (5025000, true, false), (15525000, true, true)],
       (s x.1 x.2.1 x.2.2).plat.swap = some (w x.2.1 x.2.2) ∧ (s x.1 x.2.1 x.2.2).clk.now = x.1 ∧
         calm (onPlat (fun p => { p with swap := none }) (s x.1 x.2.1 x.2.2)) = true) ∧
     (w true true).apps = []) ∧
    ∀ i, (appletOf i up).running = false := by
  refine ⟨?_, ?_, ?_, fun _ => rfl⟩ <;>
  decide +kernel

/-! ## Rings, SPI, applets -/

/-- A ring of 16 entries at given pointers. -/
def ring (f : Ring → Ring) : State := { host with cmd := { host.cmd with rings := [(3, f { size := 16, sizeReg := 4 })] } }

/-- n replies waiting on SPI. -/
def replies (n : Nat) : List Reply :=
  List.replicate n { via := .spi, major := 3, minor := 0, opcode := 0x0103, tag := 1, status := stOk, tlvs := [], desc := 0 }

/-- RingsAndSpi: a disabled ring, a tail that gives nothing, one that gives the last entry while one more reply fits, with
room for every reply and without; SPI with room, with eight
waiting, full, and with no reply to shift. -/
theorem witness_RingsAndSpi :
    (calm host = true ∧ pcieDown host = false ∧ (ringOf 3 host).size = 0) ∧
    (let s := ring (fun g => { g with reqTail := 15 })
     calm s = true ∧ (ringOf 3 s).size ≠ 0 ∧ 15 % 1024 % (ringOf 3 s).size = (ringOf 3 s).reqTail) ∧
    (let s := ring (fun g => { g with reqTail := 15, rspTail := 14 })
     let g := ringOf 3 s
     smSorted s.cmd.rings = true ∧ 1 < g.size ∧ g.reqTail < g.size ∧ 16 % 1024 % g.size = (g.reqTail + 1) % g.size ∧
       (g.rspTail + g.size - g.rspHead) % g.size + 1 < g.size ∧ controlDown s = false) ∧
    (let e (room : Nat) : Bytes := zs 8 ++ natLE 2 16 ++ zs 2 ++ natLE 4 room ++ zs 16
     leNat (slice (e 16384) 12 4) = 16384 ∧ leNat (slice (e 16) 12 4) = 16 ∧ leNat (slice (e 15) 12 4) = 15) ∧
    (let s (w k : Nat) : State := { host with cmd := { spiReplies := replies k, owed := List.replicate w { call := call false [], opcode := 0x0401, wait := .held } } }
     running (s 8 7) = true ∧ pinsTaken (s 8 7) = false ∧ (outstanding .spi (s 8 7)).length = 8 ∧ (s 8 7).cmd.spiReplies.length = 7 ∧
       calm (s 0 15) = true ∧ (s 0 15).cmd.spiReplies.length = 15 ∧ (s 8 8).cmd.spiReplies.length + (outstanding .spi (s 8 8)).length = 16 ∧
       (s 0 0).cmd.spiReplies = [] ∧ (s 0 1).cmd.spiReplies ≠ []) := by
  decide +kernel

/-- Applet 15 of the control core runs, with g1 to g3 as given. -/
def applet (r1 r2 r3 : Nat) (f : Applet → Applet) (owed : Nat) : State :=
  { onCpu .control (fun c => ((c.set 1 (BitVec.ofNat 32 r1)).set 2 (BitVec.ofNat 32 r2)).set 3 (BitVec.ofNat 32 r3)) host with
    cmd := {
      applets := [(15, f { id := 15, tid := 15, installed := true, running := true })]
      owed := List.replicate owed { call := { call false [] with via := .applet .control 15 }, opcode := 0x0401, wait := .held } } }
def asTenant (s : State) : State := onCpu .control (fun c => { c with tid := 15, priv := false, ppriv := false }) s

/-- AppletCalls: a call with four commands outstanding and with none; a reply buffer too small and one that fits; a reply that has come and
one that has not; waits that have run out and not, of the applet the core runs and of another; a raise that ends a wait. -/
theorem witness_AppletCalls :
    (∀ n ∈ [0, 4], let s := asTenant (applet 1 0 16384 id n)
      coreRuns .control s = true ∧ (appletOf (appletKey .control (cpu .control s).tid.toNat) s).running = true ∧
        (appletOf 15 s).wait = .none ∧ (outstanding (.applet .control 15) s).length = n) ∧
    (calm (asTenant (applet 1 0 16383 id 0)) = true ∧ ((cpu .control (asTenant (applet 1 0 16383 id 0))).get 3).toNat = 16383) ∧
    (let s := asTenant (applet 1 5 0 (fun x => { x with replies := replies 2 }) 0)
     (appletOf 15 s).replies = replies 2 ∧ ((cpu .control s).get 1).toNat = 1 ∧ (replies 2).map (·.tag) = [1, 1]) ∧
    (∀ w ∈ [AppWait.reply 1 (some 5), .event 77 (some 5), .event 77 none, .event 77 (some 6)], ∀ tid ∈ [15, 0],
      let a := advance 0 { applet 1 0 0 (fun x => { x with wait := w }) 0 with clk := { now := 5 } }
      calm (onCmd (fun c => { c with applets := [] }) (onCpu .control (fun c => { c with tid := tid }) a)) = true ∧
        (∀ e ∈ a.cmd.applets, e.2.wait = w) ∧ (appletOf 15 a).wait = w ∧ a.clk.now = 5) ∧
    (let s := applet 1 0 0 (fun x => { x with wait := .event 77 none }) 0
     s.cmd.applets.map (fun e => (e.1, e.2.wait)) = [(15, .event 77 none)]) := by
  decide +kernel

end Sys2Proof.Tests
end

