-- ==== Sys2Proof/Tests/WitnessUnits.lean ====
section
/-! SUPPORT. Concrete states that meet the hypotheses of the statements about doorbells and exchanges, pumps and the key store, the
riser, transactions and the time unit, a clause at a time; where a statement lets ticks pass, none pass here. -/
set_option Elab.async false
namespace Sys2Proof.Tests
open Sys2Proof.Machine Sys2Proof.Claim

/-- QueuesAndExchanges: enabled queues, a read that is out, a request and a grant on the KEY channel, a port whose link changes and
one whose link does not. -/
theorem witness_QueuesAndExchanges :
    (pcieDown lines = false ∧ (rxqOf 5 lines).size ≠ 0 ∧ (txqOf 63 lines).size ≠ 0 ∧ (rxqOf 5 lines).csize ≠ 0 ∧
      (txqOf 63 lines).csize ≠ 0 ∧ (txqOf 63 lines).order = []) ∧
    (let a := pass 0 { lines with se := { reads := [1048575] } }
     1048575 ∈ a.se.reads ∧ cacheLine 1048575 a = none ∧ a.se.wdWays.length < 16 ∧ a.fp.ing = [] ∧ a.fp.egr = []) ∧
    (let s := { lines with se := { blockReqs := [4095] } }
     s.se.blockReqs = 4095 :: [] ∧ riserUp s = true ∧ vaultDown s = false) ∧
    (let s := { lines with se := { grants := [(4095, 1048576)] }, nv := { lines.nv with lines := [(4095, { entry := some 9 })] } }
     s.se.grants = (4095, 1048576) :: [] ∧ riserUp s = true ∧ (ctrLine 4095 s).entry = some 9) ∧
    (let x := portOf 3 (pass 0 lines)
     x.mode ≠ 0 ∧ lines.plat.refLine = true ∧ pinsTaken lines = false ∧ x.link = true) := by
  decide +kernel

/-- A message of the KEY channel. -/
def keyMsg : KeyMsg := { slot := 32767, ktype := 2, keyId := 9, epoch := 1, notAfter := 7, share0 := 5, share1 := 3 }

/-- The same device with a command that waits. -/
def owing (opc : Nat) (w : Wait) (s : State) : State :=
  onCmd (fun c => { c with owed := [{ call := call false [], opcode := opc, wait := w }] }) s

/-- PumpsAndKeyStore, the timed rows: a round due by its tick and one asked for at once, with a failed and with a passed round before,
and none due; a rotation due and not; a mask generator due, and overdue; a sweep due over an ACTIVE slot. -/
theorem witness_PumpsAndKeyStore :
    (let a := pass 0 { up with pu := { pumps := [(2, { katAt := 5 }), (3, { katFails := 1, katNow := true })], rotAt := 1 } }
     running a = true ∧ 1 ≤ (pump 3 a).katFails ∧ (pump 3 a).katNow = true ∧ (pump 0 a).katAt ≤ a.clk.now ∧
       ¬ (1 ≤ (pump 0 a).katFails) ∧ (∀ k, smFind a.pu.testRows k = none) ∧ (pump 2 a).katNow = false ∧ a.clk.now < (pump 2 a).katAt ∧
       a.clk.now < a.pu.rotAt) ∧
    (let a := pass 0 { up with clk := { now := 7130318 }, nw := { pool := [5] }, se := { kslots := [(0, { state := 1 })] } }
     running a = true ∧ a.pu.rotAt ≤ a.clk.now ∧ failedPumps a = [] ∧ (pump 3 a).reseedAt + 419431 + 6710887 = a.clk.now ∧ a.nw.lost = false ∧
       riserUp a = true ∧ a.nw.pool = 5 :: [] ∧ (pump 3 a).overdue = false ∧ a.pu.sweepAt + 26 ≤ a.clk.now ∧ a.pu.sweep < 32768 ∧
       (kslot a.pu.sweep a).spare = none ∧ (kslot a.pu.sweep a).state = 1) := by
  refine ⟨⟨by decide +kernel, by decide +kernel, by decide +kernel, by decide +kernel, by decide +kernel, fun _ => rfl, by decide +kernel,
    by decide +kernel, by decide +kernel⟩, by decide +kernel⟩

/-- PumpsAndKeyStore, the KEY channel: a message with no command owed and with its KEY_LOAD; a drained slot with none and with its
KEY_RELEASE. -/
theorem witness_PumpsAndKeyStore_messages :
    let l := { up with pu := { keyChan := [keyMsg] } }
    let d := { up with pu := { drained := [4], queued := [keyMsg] } }
    (∀ i j n, (kslot i l).spare = some n → (kslot j l).spare = some n → i = j) ∧
    (∀ i j n, (kslot i d).spare = some n → (kslot j d).spare = some n → i = j) ∧
    (∀ s ∈ [l, owing 0x0401 (.keyLoaded 32767) l, d, owing 0x0402 (.slotEmpty [4]) d],
      running s = true ∧ s.ri.st = .up ∧ vaultDown s = false ∧ s.plat.swap = none ∧ s.cpuC.restarting = none ∧ s.cpuV.restarting = none ∧
        s.cmd.rings = [] ∧ s.cmd.applets = [] ∧ s.cmd.stuck = [] ∧ NothingDue s) ∧
    (l.pu.keyChan = keyMsg :: [] ∧ keyMsg.slot < 32768 ∧ (kslot keyMsg.slot l).drainBad = false ∧ l.cmd.owed = []) ∧
    (let s := owing 0x0401 (.keyLoaded 32767) l
     s.pu.keyChan = keyMsg :: [] ∧ s.cmd.owed = [{ call := call false [], opcode := 0x0401, wait := .keyLoaded keyMsg.slot }] ∧
       (call false []).via = .spi) ∧
    (4 ∈ d.pu.drained ∧ (kslot 4 d).drainBad = false ∧ (kslot 4 d).drainAt ≠ some d.clk.now ∧ (∀ m ∈ d.pu.queued, m.slot ≠ 4) ∧ d.cmd.owed = []) ∧
    (owing 0x0402 (.slotEmpty [4]) d).cmd.owed = [{ call := call false [], opcode := 0x0402, wait := .slotEmpty [4] }] := by
  refine ⟨fun _ _ _ h => (nomatch h), fun _ _ _ h => (nomatch h), ?_⟩
  simp only [nothingDue_iff]
  decide +kernel

/-- RiserLink: the link up and a group due, with three failures of it before and with two, and a struck number and a struck tag;
retraining for 10 ms with an event that waits; down; and a key with 2^40 groups under it in one direction, and with one fewer. -/
theorem witness_RiserLink :
    let r (x : Ri) : State := advance 0 { up with ri := x }
    (∀ n ∈ [2, 3], let a := advance 0 { up with clk := { now := 4 }, ri := { toW := { failed := n } } }
      Calm a ∧ a.ri.st = .up ∧ a.ri.at_ + 4 = a.clk.now ∧ a.clk.now < a.ri.at_ + 8 ∧ (riserDir true a.ri).failed = n ∧
      (a.ri.recent.filter (fun t => a.clk.now < t + 250000000)).length < 15) ∧
    (let f : BitVec 1024 := BitVec.twoPow 1024 16
     f.toNat / 2 ^ 16 % 2 ^ 48 ≠ 0) ∧
    (let f : BitVec 1024 := BitVec.twoPow 1024 127
     f.toNat < 2 ^ 128 ∧ f.toNat % 2 ^ 64 = 0 ∧ f ≠ 0) ∧
    (let a := advance 0 { up with ri := { st := .retraining }, ev := { waitToP := [130] }, clk := { now := 2500000 } }
     Calm a ∧ a.ri.st ≠ .up ∧ 130 ∈ a.ev.waitToP ∧ a.ri.st = .retraining ∧ a.ri.since + 2500000 ≤ a.clk.now) ∧
    (Calm (r { st := .down }) ∧ (r { st := .down }).ri.st ≠ .up) ∧
    (let x : Ri := { toP := { seq := 2 ^ 40, next := 2 ^ 40 } }
     Calm (r x) ∧ (r x).ri.st = .up ∧ vaultDown (r x) = false ∧ linkQuiet (r x).ri = true ∧ (r x).clk.now = (r x).ri.at_ ∧
       (r x).ri.toP.seq - (r x).ri.keySeqP = 2 ^ 40) ∧
    (let x : Ri := { toP := { seq := 2 ^ 40 - 1, next := 2 ^ 40 - 1 } }
     Calm (r x) ∧ (r x).ri.st = .up ∧ vaultDown (r x) = false ∧ linkQuiet (r x).ri = true ∧ (r x).clk.now = (r x).ri.at_ ∧
       (r x).ri.toP.seq - (r x).ri.keySeqP = 2 ^ 40 - 1 ∧ (r x).ri.toW.seq = 0) := by
  simp only [calm_iff]
  decide +kernel

/-- A transaction in slot 7, and a stream entry it has staged at index 5. -/
def staged7 (t : Txn) (e : Entry) : State := { up with
  clk := { now := 600000 }, tu := { time := 2 ^ 60 }, se := { txns := [(7, t)], table := [(5, e)] } }

/-- TransactionEvents, the timed rows: an instant that has come and one that has not, without and with the epoch, settling with and without
something to settle. -/
theorem witness_TransactionEvents :
    let a (t : Txn) : State := advance 0 (staged7 t {})
    let p := ptp16 (a {})
    (∀ t : Txn, (a t).fp.ing = [] ∧ (a t).fp.egr = [] ∧ ∀ j ∈ txnNos, j ≠ 7 → (txnOf j (a t)).st ≠ .armed) ∧
    (running (a {}) = true ∧ (txnOf 7 (a { st := .armed, instant := p })).st = .armed ∧ (txnOf 7 (a { st := .armed, instant := p })).instant ≤ p ∧
      Change.epoch ∉ (txnOf 7 (a { st := .armed, instant := p })).staged) ∧
    (let t : Txn := { st := .armed, instant := p, staged := [.control 5, .epoch] }
     Change.epoch ∈ (txnOf 7 (a t)).staged ∧ vaultReached (a t) = true ∧ (a t).ev.waitKey = [] ∧ (txnOf 7 (a t)).instant ≤ ptp16 (a t) ∧
       vaultReached (advance 0 { staged7 t {} with ri := { st := .retraining } }) = false) ∧
    NothingDue (a { st := .armed, instant := p + 1 }) ∧
    (let t : Txn := { st := .committed, wallAt := 100000, staged := [.control 5] }
     (txnOf 7 (a t)).settling = false ∧ (txnOf 7 (a t)).wallAt + 500000 = (a t).clk.now ∧ toSettle (txnOf 7 (a t)) = true ∧ NothingDue (a t)) ∧
    (let t : Txn := { st := .committed }
     (txnOf 7 (a t)).settling = false ∧ (txnOf 7 (a t)).wallAt + 500000 ≤ (a t).clk.now ∧ toSettle (txnOf 7 (a t)) = false ∧ NothingDue (a t)) := by
  simp only [nothingDue_iff]
  refine ⟨fun t => ⟨rfl, rfl, fun j hj hn => ?_⟩, by decide +kernel⟩
  simp only [txnNos, List.mem_cons, List.not_mem_nil, or_false] at hj
  rcases hj with rfl | rfl | rfl | rfl | rfl | rfl | rfl | rfl <;> first | exact absurd rfl hn | exact nofun

/-- TransactionEvents, the steps over entries: a control change, an addition and a deletion settled, the last step and one before;
a change and a deletion taken back, and the end of an abort. -/
theorem witness_TransactionEvents_entries :
    let pend : Entry := { used := true, sta := .active, stb := .pending, txb := 7 }
    let dying : Entry := { used := true, sta := .active, stb := .pendingDel, txb := 7 }
    (∀ l ∈ [[Change.control 5], [.add 5], [.control 5, .control 6]], ∀ b ∈ [true, false],
      let s := staged7 { st := .committed, settling := true, staged := l } { pend with publish := b }
      running s = true ∧ (txnOf 7 s).st = .committed ∧ (txnOf 7 s).settling = true ∧
        ((txnOf 7 s).staged[(txnOf 7 s).settled]? = some (.control 5) ∨ (txnOf 7 s).staged[(txnOf 7 s).settled]? = some (.add 5)) ∧
        (curEntry 5 s).stb = .pending ∧ (curEntry 5 s).txb = 7 ∧ (curEntry 5 s).sta = .active ∧ (curEntry 5 s).publish = b) ∧
    (let s := staged7 { st := .committed, settling := true, staged := [.delete 5 false] } dying
     (txnOf 7 s).staged[(txnOf 7 s).settled]? = some (.delete 5 false) ∧ (curEntry 5 s).publish = false) ∧
    (∀ l ∈ [[Change.control 5, .control 6], [.delete 5 false]], ∀ e ∈ [pend, dying],
      let s := staged7 { st := .aborting, staged := l } e
      (txnOf 7 s).st = .aborting ∧
        ((txnOf 7 s).staged[(txnOf 7 s).settled]? = some (.control 5) ∨ (txnOf 7 s).staged[(txnOf 7 s).settled]? = some (.delete 5 false)) ∧
        bankPend (curEntry 5 s).stb = true ∧ (curEntry 5 s).txb = 7 ∧ bankPend (curEntry 5 s).sta = false) ∧
    (let s := staged7 { st := .aborting, staged := [.control 5], settled := 1 } {}
     (txnOf 7 s).st = .aborting ∧ (txnOf 7 s).staged.length ≤ (txnOf 7 s).settled) := by
  decide +kernel

/-- TimeUnitEvents: TU_CTL with the STATE it has, with and without the step and ABS bits; HOLDOVER and FREERUN entered at
their limits; a reference to lose; edges outside the window, in it, and the first; an edge missing for 1.1 s; a second to give and a
pulse to end, the calibrated delays as shipped; a re-anchor due; an offset at its instant and before it. -/
theorem witness_TimeUnitEvents :
    let a (t : Tu) : State := advance 0 { up with clk := { now := 750000000 }, tu := t, factoryPageOk := false }
    (running up = true ∧ (0x40 : Word).getLsbD 5 = false ∧ (0x40 : Word).toNat % 4 = up.tu.state ∧ (0x40 : Word).getLsbD 6 = true ∧
      (0x44 : Word).getLsbD 2 = true ∧ up.tu.refPresent = true) ∧
    (running (a {}) = true ∧ (a { state := 1 }).tu.state = 1 ∧
      (a { state := 1 }).tu.tsetAt + 25000000 * (a { state := 1 }).tu.holdto = (a { state := 1 }).clk.now) ∧
    (let t : Tu := { state := 2, uset := 100001, umax := 100000 }
     (a t).tu.state = 2 ∧ ((a t).tu.umax : Int) * uScale < uEff (timeSnap (a t).tu) (ptp16 (a t))) ∧
    ((a { refSel := true }).tu.refSel = true ∧ riserUp (a { refSel := true }) = true) ∧
    (pinsTaken (a {}) = false ∧ (a {}).tu.src ≠ 2 ∧ (inTurn turnTime 0 0 (a {})).tu.ppsLast = none) ∧
    (let t : Tu := { ppsLast := some 5, ppsLastAt := 525000000 }
     (a t).tu.ppsLast ≠ none ∧ (a t).tu.ppsLastAt + 250000 * (a t).tu.ppsWindow ≤ (a t).clk.now) ∧
    (let t : Tu := { ppsLast := some 5, ppsLastAt := 525000001 }
     (a t).tu.ppsLast ≠ none ∧ (a t).clk.now < (a t).tu.ppsLastAt + 250000 * (a t).tu.ppsWindow) ∧
    (let t : Tu := { ppsLastAt := 475000000 }
     (a t).tu.ppsMissing = false ∧ (a t).tu.ppsLastAt + 275000000 ≤ (a t).clk.now) ∧
    (let t : Tu := { time := 3 * 10 ^ 9 * 2 ^ 48, ppsOutEn := true, ppsOut := true, ppsOutAt := 725000000 }
     (a t).tu.ppsOutEn = true ∧ (a t).tu.ppsLastEdge < (((ptp16 (a t) : Nat) : Int) + calEff 0x0301 (a t) - (a t).tu.ppsOffset * 65536) / 65536000000000 ∧
       (a t).tu.ppsOut = true ∧ (a t).tu.ppsOutAt + (a t).tu.ppsWidth / 4 = (a t).clk.now) ∧
    ((a { reanchorAt := 749999750 }).tu.reanchorAt + 250 ≤ (a { reanchorAt := 749999750 }).clk.now) ∧
    ((a { utcNext := some (37, 0) }).tu.utcNext = some (37, 0) ∧ 0 ≤ ptp16 (a { utcNext := some (37, 0) }) ∧
      ptp16 (a { utcNext := some (37, 1) }) < 1) := by
  decide +kernel

end Sys2Proof.Tests
end

section
/-! The session commands (R222 to R224, R243, R9): what HELLO, SESSION_INFO, ECHO and IDENT answer to a command that is
Ready, and O26. -/
namespace Sys2Proof.Claim
open Sys2Proof.Machine

/-! ## Setting a session -/

theorem setSess_taken (v : Via) (e : Sess) (opc : Nat) (c : Call) (s : State) :
    setSess v e (taken opc c s) = taken opc c (setSess v e s) := by cases v <;> rfl

@[simp] theorem setSess_owed (v : Via) (e : Sess) (s : State) : (setSess v e s).cmd.owed = s.cmd.owed := by cases v <;> rfl

theorem Quiet.setSess {s : State} (h : Quiet s) (v : Via) (e : Sess) : Quiet (setSess v e s) := by
  cases v with
  | ring r => exact h.onRing r _ (fun _ hg => hg)
  | spi => exact h
  | applet k t => exact h.onApplet _ _ (fun _ ha => ha)
  | contactless => exact h

/-! ## Commands that reply at once -/

theorem owed_nil_of_ready {opc : Nat} {c : Call} {s : State} (h : Ready opc c s) : s.cmd.owed = [] := by
  obtain ⟨⟨-, howed, -⟩, -⟩ := h
  exact howed

theorem quiet_of_ready {opc : Nat} {c : Call} {s : State} (h : Ready opc c s) : Quiet s := by
  obtain ⟨hcalm, -⟩ := h
  exact quiet_of_calm hcalm

/-- A Ready command that only replies changes nothing but its reply. -/
theorem serve_replies {opc : Nat} {c : Call} {s : State} (h : Ready opc c s) {st : Nat} {tlvs : List Tlv}
    (hrun : run opc c (taken opc c s) = reply c st tlvs (taken opc c s)) : serve opc c s = answered opc c st tlvs s :=
  serve_answers h hrun (owed_nil_of_ready h) (quiet_of_ready h)

/-- One that sets its session and replies changes nothing but that session and its reply. -/
theorem serve_replies_setSess {opc : Nat} {c : Call} {s : State} (h : Ready opc c s) {st : Nat} {tlvs : List Tlv} {e : Sess}
    (hrun : run opc c (taken opc c s) = reply c st tlvs (setSess c.via e (taken opc c s))) :
    serve opc c s = answered opc c st tlvs (setSess c.via e s) := by
  rw [setSess_taken] at hrun
  exact serve_answers h hrun ((setSess_owed _ _ _).trans (owed_nil_of_ready h)) ((quiet_of_ready h).setSess _ _)

/-! ## HELLO (R223) -/

theorem argD_of_argN {c : Call} {ty n : Nat} (h : argN c ty = some n) (d : Nat) : argD c ty d = n := by simp [argD, h]

section hello
variable {c : Call} {hi lo minor feat : Nat} (hHi : argN c 1 = some hi) (hLo : argN c 3 = some lo)
include hHi hLo

/-- One with no major in common with the device is answered BAD_VERSION, and its session stays unnegotiated. -/
theorem helloBody_of_noCommon (s : State) (hord : lo ≤ hi) (hno : 3 < lo ∨ hi < 2) :
    helloBody c s = reply c stBadVersion [r16 4 0x0300] (setSess c.via {} s) := by
  have ordered : ¬ hi < lo := by omega
  simp only [helloBody, argD_of_argN hHi, argD_of_argN hLo, ordered, hno, protoMax, Bool.or_eq_true,
    decide_eq_true_eq, if_true, if_false]

section featuresAndMinor
variable (hMinor : argN c 2 = some minor) (hFeat : argN c 4 = some feat)
include hMinor hFeat

/-- A host that speaks protocol 3 gets 3.0 and the features it offers of 0xFF. -/
theorem helloBody_of_major3 (s : State) (hlo : lo ≤ 3) (hhi : 3 ≤ hi) :
    helloBody c s = reply c stOk [r8 1 3, r8 2 0, r64 3 (feat &&& 0xFF), r16 4 0x0300]
      (setSess c.via { negotiated := true, maj := 3, min := 0, feat := feat &&& 0xFF } s) := by
  have ordered : ¬ hi < lo := by omega
  have common : ¬ (3 < lo ∨ hi < 2) := by omega
  simp only [helloBody, argD_of_argN hHi, argD_of_argN hMinor, argD_of_argN hLo, argD_of_argN hFeat, ordered, common, hhi,
    Bool.or_eq_true, decide_eq_true_eq, if_true, if_false]
  rfl

/-- One whose highest major is 2 gets the lower of its minor and 4, and the features it offers of 0x71. -/
theorem helloBody_of_major2 (s : State) (hlo : lo ≤ 2) (hhi : hi = 2) :
    helloBody c s = reply c stOk [r8 1 2, r8 2 (min minor 4), r64 3 (feat &&& 0x71), r16 4 0x0300]
      (setSess c.via { negotiated := true, maj := 2, min := min minor 4, feat := feat &&& 0x71 } s) := by
  have ordered : ¬ hi < lo := by omega
  have common : ¬ (3 < lo ∨ hi < 2) := by omega
  have below3 : ¬ 3 ≤ hi := by omega
  simp only [helloBody, argD_of_argN hHi, argD_of_argN hMinor, argD_of_argN hLo, argD_of_argN hFeat, ordered, common, below3,
    Bool.or_eq_true, decide_eq_true_eq, if_false]
  rfl

end featuresAndMinor

end hello

/-! ## SESSION_INFO, ECHO and IDENT (R222, R243, R9) -/

/-- SESSION_INFO shows the sender's session as it is and its transport. -/
theorem sessionInfoBody_taken (opc : Nat) (c : Call) (s : State) :
    sessionInfoBody c (taken opc c s) =
      reply c stOk [r8 1 (sessOf c.via s).maj, r8 2 (sessOf c.via s).min, r64 3 (sessOf c.via s).feat,
        r8 4 (transportNo c.via), r16 5 (expertMask c.via s)] (taken opc c s) := by
  have hmask : expertMask c.via (taken opc c s) = expertMask c.via s := by cases c.via <;> rfl
  simp only [sessionInfoBody, replyOk, sessOf_taken, hmask]

theorem echoBody_of_argOf {c : Call} {b : Bytes} (h : argOf c 1 = some b) (s : State) :
    echoBody c s = reply c stOk [rtlv 1 b] s := by simp only [echoBody, replyOk, h, Option.getD_some]

/-- Settles O26: HELLO by the three cases of R223, the others as commands that only reply. -/
theorem sessionCommands : Obligations.SessionCommands := by
  unfold Obligations.SessionCommands RepliesOk Refuses
  intro c s
  refine ⟨?hello, ?sessionInfo, ?echo, ?ident⟩
  case hello =>
    intro h hi lo minor feat hHi hMinor hLo hFeat
    refine ⟨fun hlo hhi => ?_, fun hlo hhi => ?_, fun hord hno => ?_⟩
    · exact congrArg Host.Outcome.next
        (serve_replies_setSess h (helloBody_of_major3 hHi hLo hMinor hFeat _ hlo hhi))
    · exact congrArg Host.Outcome.next
        (serve_replies_setSess h (helloBody_of_major2 hHi hLo hMinor hFeat _ hlo hhi))
    · exact congrArg Host.Outcome.next
        (serve_replies_setSess h (helloBody_of_noCommon hHi hLo _ hord hno))
  case sessionInfo =>
    intro h
    exact congrArg Host.Outcome.next (serve_replies h (sessionInfoBody_taken _ c s))
  case echo =>
    intro h b hb
    exact congrArg Host.Outcome.next (serve_replies h (echoBody_of_argOf hb _))
  case ident =>
    intro h
    have hident : run 0x0104 c (taken 0x0104 c s) = reply c stOk [r16 1 0x4016, r16 2 Config.stepCode, r64 3 Config.serial,
        r32 4 Config.romVersion, r32 5 s.fw.verC, r32 6 s.fw.verV, r8 7 2, r16 8 0x0300] (taken 0x0104 c s) := rfl
    exact congrArg Host.Outcome.next (serve_replies h hident)

end Sys2Proof.Claim
end

section
/-! The state after reset where O23 misses it: the contactless session stands at protocol 3.0 without HELLO (R213), and an
EMPTY vault slot has KTYPE 0xFF (R245). -/
namespace Sys2Proof.Claim
open Sys2Proof.Machine

@[simp] theorem ringOf_reset (r : Nat) : ringOf r State.reset = {} := smGet_nil _ r
@[simp] theorem appletOf_reset (i : Nat) : appletOf i State.reset = {} := smGet_nil _ i

/-- After reset the contactless session alone counts as negotiated: the others need a HELLO (R213, R222). -/
theorem sessOf_reset_negotiated_iff (v : Via) : (sessOf v State.reset).negotiated = true ↔ v = .contactless := by
  cases v with
  | ring r => simp [sessOf]
  | spi => simp [sessOf, State.reset]
  | applet k t => simp [sessOf]
  | contactless => simp [sessOf]

/-- The keeper's own keys lie in vault slots 0 to 4 alone (R245; log 123). -/
theorem smFind_keeperSlots_of_le {n : Nat} (h : 5 ≤ n) (w : Nat → Bytes) : smFind (keeperSlots w) n = none := by
  have other : 0 ≠ n ∧ 1 ≠ n ∧ 2 ≠ n ∧ 3 ≠ n ∧ 4 ≠ n := by omega
  simp [keeperSlots, smFind, other]

/-- After reset the slots from 5 on are EMPTY: their KTYPE is 0xFF, not 0. -/
theorem vslot_reset_ktype {n : Nat} (h : 5 ≤ n) : (vslot n State.reset).ktype = 0xFF := by
  have unlisted : smFind State.reset.nv.slots n = none := smFind_keeperSlots_of_le h _
  simp [vslot, smGet, unlisted]

/-- Refutes O23: its clause on sessions ranges over every transport, and the contactless session runs at protocol 3.0 without
HELLO (R213), in the state after reset as in every other. Its clause that a vault slot from 5 on has KTYPE 0 fails as well:
an EMPTY slot has 0xFF (R245, `vslot_reset_ktype`). -/
theorem not_resetState : ¬ Obligations.ResetState := by
  unfold Obligations.ResetState
  rintro ⟨_, _, _, _, _, _, _, _, _, _, _, _, _, _, unnegotiated, _⟩
  have negotiated : (sessOf .contactless State.reset).negotiated = true := (sessOf_reset_negotiated_iff _).mpr rfl
  exact Bool.false_ne_true ((unnegotiated .contactless).symm.trans negotiated)

end Sys2Proof.Claim
end

section
/-! The replacement of the riser session key (R18), and O45. A link whose books are up to date counts its groups from the
number it stores; O45 counts them from that number reduced to its 48 bits, so the two part where a number is not
reduced. -/
namespace Sys2Proof.Claim
open Sys2Proof.Machine

/-! ## Groups under the key -/

theorem linkRun_zero (f : Nat) (r : Ri) : linkRun (f + 1) 0 r = r := rfl

/-- With no group due the books stay as they are. -/
theorem linkSync_zero (r : Ri) : linkSync 0 r = r := linkRun_zero (2 * (dirLoad r.toW + dirLoad r.toP) + 63) r

/-- With no group due the groups under the key are counted from the number as it is stored. -/
theorem groupsUnderKey_of_noneDue (w : Bool) {s : State} (h : linkDue s.clk.now s.ri = 0) :
    groupsUnderKey w s = ((riserDir w s.ri).seq + 2 ^ 48 - (if w then s.ri.keySeqW else s.ri.keySeqP)) % 2 ^ 48 := by
  unfold groupsUnderKey
  rw [h, linkSync_zero]

/-! ## What keeps the key's number -/

theorem takeGroup_keyGen (w : Bool) (g : RGroup) (r : Ri) : (takeGroup w g r).keyGen = r.keyGen := by cases w <;> rfl

theorem formGroup_keyGen (w last : Bool) (r : Ri) : (formGroup w last r).2.keyGen = r.keyGen := by
  unfold formGroup
  simp only
  split
  · rfl
  · cases w <;> rfl

theorem linkStep_keyGen (last : Bool) (r : Ri) : (linkStep last r).keyGen = r.keyGen := by
  simp only [linkStep, takeGroup_keyGen, formGroup_keyGen]

theorem linkRun_keyGen (f n : Nat) (r : Ri) : (linkRun f n r).keyGen = r.keyGen := by
  induction f generalizing n r with
  | zero => rfl
  | succ f ih =>
    unfold linkRun
    split
    · rfl
    · split
      · rfl
      · rw [ih, linkStep_keyGen]

theorem linkSync_keyGen (n : Nat) (r : Ri) : (linkSync n r).keyGen = r.keyGen := linkRun_keyGen _ n r

/-! ## The new key -/

/-- The DRBG stands, and neither its count of requests nor its age makes a reseed due (R279). -/
def DrbgFresh (s : State) : Prop :=
  ∃ d, s.nw.drbg = some d ∧ ¬ (2 ^ 20 ≤ d.served ∨ d.reseedAt + msTicks 100 ≤ s.clk.now)

theorem DrbgFresh.onRi {s : State} (h : DrbgFresh s) (f : Ri → Ri) : DrbgFresh (onRi f s) := h

/-- Such a generator serves a key by rule and leaves the riser alone (R283). -/
theorem ruleKey_ri_of_fresh (label : Nat) {s : State} (h : DrbgFresh s) : (ruleKey label s).2.ri = s.ri := by
  obtain ⟨d, hd, fresh⟩ := h
  simp only [ruleKey, drbgGenerate, hd, Bool.or_eq_true, decide_eq_true_eq, fresh, if_false, onNw_ri]

/-- The session key drawn is the next one (R18). -/
theorem newRiserKey_keyGen {s : State} (h : DrbgFresh s) : (newRiserKey s).ri.keyGen = s.ri.keyGen + 1 :=
  congrArg (fun r : Ri => r.keyGen + 1) (ruleKey_ri_of_fresh labelRiser h)

/-- After 2^40 groups towards Wellhead a vault core that is reached replaces the key by the next (R18). -/
theorem keyReplacement_of_full {dt : Nat} {s t : State} (hrun : running (advance dt s) = true)
    (hvault : vaultReached (advance dt s) = true) (hfull : 2 ^ 40 ≤ groupsUnderKey true (advance dt s))
    (hdrbg : DrbgFresh (advance dt s)) (h : exec (.riserKeyReplacement dt) s = .next t) :
    t.ri.keyGen = (advance dt s).ri.keyGen + 1 := by
  have hexec : exec (.riserKeyReplacement dt) s = execRiserKeyReplacement dt s := rfl
  simp only [hexec, execRiserKeyReplacement, hrun, hvault, hfull, done, Bool.not_true, Bool.false_eq_true, if_false,
    Bool.true_and, decide_true, Bool.true_or, if_true, Host.Outcome.next.injEq] at h
  rw [← h, newRiserKey_keyGen (hdrbg.onRi _)]
  simp only [onRi_ri, linkStep_keyGen, linkSync_keyGen]

/-! ## O45 fails -/

/-- A calm device whose riser stores group number 2^49, past 48 bits, 2^40 groups after the first under its key. -/
def unreducedLink : State := { State.reset with
  plat := { stage := .ready }
  nw := { drbg := some { key := 0, v := 0, served := 0, reseedAt := 0 } }
  ri := { toW := { seq := 2 ^ 49, next := 2 ^ 49 }, keySeqW := 2 ^ 49 - 2 ^ 40 } }

theorem unreducedLink_calm : Calm (advance 0 unreducedLink) := by
  unfold Calm Quiet NothingDue
  decide

/-- Refutes O45, in its last clause. With no group due the model counts the groups under the key from the stored number and
replaces the key after 2^40 of them; the statement reduces the number to 48 bits first and then counts none. No run stores
a number past 48 bits, for every group made reduces it (R16); but the statement ranges over every calm state. -/
theorem not_riserLink : ¬ Obligations.RiserLink := by
  unfold Obligations.RiserLink
  intro h
  obtain ⟨-, -, -, keyReplacement⟩ := h 0 unreducedLink unreducedLink_calm
  obtain ⟨-, keptUnlessFull⟩ := keyReplacement (by decide) (by decide) (by decide)
  have stays := keptUnlessFull (by decide)
  have full : 2 ^ 40 ≤ groupsUnderKey true (advance 0 unreducedLink) := by
    rw [groupsUnderKey_of_noneDue true (by decide)]
    decide
  have replaced := keyReplacement_of_full (by decide) (by decide) full ⟨_, rfl, by decide⟩ stays
  exact absurd replaced (by decide)

end Sys2Proof.Claim
end

section
/-! The order of refusals (R220), and O25. A calm device has nothing to catch up with, so a refused request ends its row with
the answer; one refused at its parameters ends it with its reply. -/
namespace Sys2Proof.Claim
open Sys2Proof.Machine

/-! ## What an answer changes (R228, R229, R298, R453) -/

/-- An answer changes its sender's queue and buffer, the message it causes, and the record of outputs. -/
def Handed (s t : State) : Prop :=
  ∃ p g a q m l o, t = { s with
    ev := { s.ev with msixPba := p }, cmd := { s.cmd with rings := g, applets := a, spiReplies := q }, me := m, cl := l, out := o }

theorem Handed.refl (s : State) : Handed s s := ⟨_, _, _, _, _, _, _, rfl⟩

theorem Handed.trans {s t u : State} (h : Handed s t) (h2 : Handed t u) : Handed s u := by
  obtain ⟨_, _, _, _, _, _, _, rfl⟩ := h
  obtain ⟨_, _, _, _, _, _, _, rfl⟩ := h2
  exact ⟨_, _, _, _, _, _, _, rfl⟩

theorem handed_emit (o : Out) (s : State) : Handed s (emit o s) := ⟨_, _, _, _, _, _, _, rfl⟩
theorem handed_onRing (n : Nat) (f : Ring → Ring) (s : State) : Handed s (onRing n f s) := ⟨_, _, _, _, _, _, _, rfl⟩
theorem handed_onApplet (i : Nat) (f : Applet → Applet) (s : State) : Handed s (onApplet i f s) := ⟨_, _, _, _, _, _, _, rfl⟩

theorem ramPut_parts (k : CoreId) (a : Nat) (b : Bytes) (s : State) : ramPut k a b s = { s with me := (ramPut k a b s).me } := by
  unfold ramPut
  cases k <;> simp only <;> split <;> rfl

theorem ramPut_handed (k : CoreId) (a : Nat) (b : Bytes) (s : State) : Handed s (ramPut k a b s) :=
  ⟨_, _, _, _, _, _, _, ramPut_parts k a b s⟩

theorem msix_handed (v : Nat) (s : State) : Handed s (msix v s) := by
  unfold msix
  split
  · exact .refl s
  · split
    · exact ⟨_, _, _, _, _, _, _, rfl⟩
    · exact handed_emit _ s

theorem ringPut_handed (n : Nat) (r : Reply) (len : Nat) (s : State) : Handed s (ringPut n r len s) := by
  unfold ringPut
  simp only
  split
  · exact .refl s
  · split
    · exact ((handed_emit _ s).trans (handed_emit _ _)).trans (handed_onRing _ _ _)
    · exact (((handed_emit _ s).trans (handed_emit _ _)).trans (handed_onRing _ _ _)).trans (msix_handed _ _)

theorem deliver_handed (r : Reply) (s : State) : Handed s (deliver r s) := by
  unfold deliver
  split
  · split
    · exact .refl s
    · exact ((handed_emit _ s).trans (handed_emit _ _)).trans (ringPut_handed _ _ _ _)
  · exact (handed_emit _ s).trans ⟨_, _, _, _, _, _, _, rfl⟩
  · simp only
    split
    · exact .refl s
    · refine Handed.trans ?_ (handed_onApplet _ _ _)
      split
      · exact (handed_emit _ s).trans (ramPut_handed _ _ _ _)
      · exact handed_emit _ s
  · split
    · exact ((handed_emit _ s).trans ⟨_, _, _, _, _, _, _, rfl⟩).trans (handed_emit _ _)
    · exact .refl s

/-- A calm device is calm behind an answer. -/
theorem Calm.deliver {s : State} (h : Calm s) (r : Reply) : Calm (deliver r s) := by
  obtain ⟨hrun, howed, hswap, hctl, hvlt, hquiet, hdue⟩ := h
  have quiet := deliver_quiet r hquiet
  obtain ⟨_, _, _, _, _, _, _, parts⟩ := deliver_handed r s
  rw [parts] at quiet ⊢
  exact ⟨hrun, howed, hswap, hctl, hvlt, quiet, hdue.of_parts rfl rfl rfl rfl rfl⟩

/-! ## Nothing to catch up with -/

/-- No swap and no core restart runs, nothing falls due, and every command taken waits to start. -/
def Idle (s : State) : Prop :=
  s.plat.swap = none ∧ s.cpuC.restarting = none ∧ s.cpuV.restarting = none ∧ NothingDue s ∧ ∀ o ∈ s.cmd.owed, o.wait = .held

theorem swapTick_of_none {s : State} (h : s.plat.swap = none) : swapTick s = s := by
  have part : swapPart s = s := by simp only [swapPart, h]
  simp only [swapTick, part]

theorem restartTick_of_none {s : State} (hc : s.cpuC.restarting = none) (hv : s.cpuV.restarting = none) : restartTick s = s := by
  simp only [restartTick, restartEnds, cpu, hc, hv]

/-- A step that passes over the commands that wait to start passes over a list of them. -/
theorem foldl_of_held {f : State → Owed → State} (hf : ∀ s o, o.wait = .held → f s o = s) {l : List Owed}
    (h : ∀ o ∈ l, o.wait = .held) (s : State) : l.foldl f s = s := by
  induction l with
  | nil => rfl
  | cons o l ih =>
    rw [List.foldl_cons, hf s o (h o (List.mem_cons_self ..))]
    exact ih (fun x hx => h x (List.mem_cons_of_mem _ hx))

theorem marchWake_of_held {s : State} (h : ∀ o ∈ s.cmd.owed, o.wait = .held) : marchWake s = s := by
  unfold marchWake
  split
  · exact foldl_of_held (fun s o ho => by simp only [ho]) h s
  · rfl

theorem tokensDue_of_held {s : State} (h : ∀ o ∈ s.cmd.owed, o.wait = .held) : tokensDue s = s :=
  foldl_of_held (fun s o ho => by simp only [ho]) h s

theorem catchUp_of_idle {s : State} (h : Idle s) : catchUp s = startWaiting s := by
  obtain ⟨hswap, hctl, hvlt, hdue, hheld⟩ := h
  unfold catchUp
  rw [swapTick_of_none hswap, restartTick_of_none hctl hvlt, marchWake_of_held hheld, tokensDue_of_held hheld,
    commitDue_of_nothingDue hdue, framesDue_of_nothingDue hdue, askWaiting_of_nothingDue hdue]

theorem idle_of_calm {s : State} (h : Calm s) : Idle s := by
  obtain ⟨-, howed, hswap, hctl, hvlt, -, hdue⟩ := h
  exact ⟨hswap, hctl, hvlt, hdue, by simp [howed]⟩

theorem running_of_calm {s : State} (h : Calm s) : running s = true := h.1

theorem owed_nil_of_calm {s : State} (h : Calm s) : s.cmd.owed = [] := by
  obtain ⟨-, howed, -⟩ := h
  exact howed

/-- The end of a row changes nothing on a calm device. -/
theorem settle_of_calm {s : State} (h : Calm s) : settle s = s := by
  have caught : catchUp s = s := by
    rw [catchUp_of_idle (idle_of_calm h), startWaiting, owed_nil_of_calm h]
    rfl
  unfold settle
  rw [caught]
  exact rowEnd_of_quiet (quiet_of_calm h)

/-! ## Which turn a request gets (R228 to R230, R235) -/

theorem holdRoom_of_calm {s : State} (h : Calm s) (opc : Nat) (c : Call) : holdRoom opc c s = true := by
  obtain ⟨-, -, hswap, -, hvlt, -⟩ := h
  simp [holdRoom, swapHolds, hswap, hvlt]

theorem serve_of_notRunning {s : State} (h : running s = false) (opc : Nat) (c : Call) : serve opc c s = s := by
  simp [serve, h]

theorem serve_of_cannotTake {c : Call} {s : State} (hmay : mayTake c.via s = false) (hspi : c.via ≠ .spi) (opc : Nat) :
    serve opc c s = s := by
  simp [serve, hmay, hspi]

section turn
variable {opc : Nat} {c : Call} {s : State} (h : Calm s)
include h

theorem serve_of_mayTake (hmay : mayTake c.via s = true) : serve opc c s = settle (takeCall opc c s) := by
  simp [serve, running_of_calm h, holdRoom_of_calm h, hmay]

theorem serve_of_viaClosed (hopen : viaOpen c.via s = false) : serve opc c s = s := by
  cases hmay : mayTake c.via s with
  | true =>
    rw [serve_of_mayTake h hmay, takeCall, hopen]
    exact settle_of_calm h
  | false =>
    refine serve_of_cannotTake hmay (fun hspi => ?_) opc
    simp [hspi, viaOpen] at hopen

/-- A PUT while every slot is reserved or holds a reply is discarded and counted. -/
theorem serve_of_spiFull (hmay : mayTake c.via s = false) (hspi : c.via = .spi) (hfull : 16 ≤ s.cmd.spiReplies.length) :
    serve opc c s = raise 101 [] (onCmd (fun x => { x with spiOverrun := (x.spiOverrun + 1) % 2 ^ 32 }) s) := by
  have full : ¬ spiSlots s < 16 := by unfold spiSlots; omega
  rw [hspi] at hmay
  simp [serve, running_of_calm h, holdRoom_of_calm h, hmay, hspi, spiTurnAway, full]

end turn

/-! ## A request that gets its turn and is refused (R220 steps 2 to 7) -/

theorem Calm.myTurn {s : State} (h : Calm s) (v : Via) : Calm (myTurn v s) := by
  obtain ⟨hrun, howed, hswap, hctl, hvlt, hquiet, hdue⟩ := h
  exact ⟨hrun, howed, hswap, hctl, hvlt, hquiet, hdue.of_parts rfl rfl rfl rfl rfl⟩

theorem sessOf_myTurn (v w : Via) (s : State) : sessOf v (myTurn w s) = sessOf v s := by cases v <;> rfl

theorem takeCall_of_accepted {opc : Nat} {c : Call} {s : State} (howed : s.cmd.owed = []) (hopen : viaOpen c.via s = true)
    (hup : controlDown s = false) (hacc : acceptRefuse opc c s = none) : takeCall opc c s = taken opc c s := by
  have hup' : controlDown (myTurn c.via s) = false := hup
  simp only [takeCall, hopen, hup', acceptRefuse_myTurn, hacc, Bool.not_true, Bool.false_eq_true, if_false]
  simp [taken, myTurn, onCmd, howed]

theorem idle_taken {s : State} (h : Calm s) (opc : Nat) (c : Call) : Idle (taken opc c s) := by
  obtain ⟨hswap, hctl, hvlt, hdue, -⟩ := idle_of_calm h
  exact ⟨hswap, hctl, hvlt, hdue.of_parts rfl rfl rfl rfl rfl, by simp [taken]⟩

section refused
variable {opc : Nat} {c : Call} {s : State} (h : Calm s) (hmay : mayTake c.via s = true) (hopen : viaOpen c.via s = true)
include h hmay hopen

theorem serve_of_controlDown (hdown : controlDown s = true) :
    serve opc c s = deliver (mkReply c opc stBusy [] (2, 0)) (myTurn c.via s) := by
  have hdown' : controlDown (myTurn c.via s) = true := hdown
  rw [serve_of_mayTake h hmay]
  simp only [takeCall, hopen, hdown', Bool.not_true, Bool.false_eq_true, if_false, if_true]
  exact settle_of_calm ((h.myTurn c.via).deliver _)

variable (hup : controlDown s = false)
include hup

theorem serve_of_refused {r : Refuse} (hr : acceptRefuse opc c s = some r) :
    serve opc c s = deliver (mkReply c opc r.1 (refuseTlvs r) (replyVersion c s)) (myTurn c.via s) := by
  have hup' : controlDown (myTurn c.via s) = false := hup
  have hversion : replyVersion c (myTurn c.via s) = replyVersion c s := by simp only [replyVersion, sessOf_myTurn]
  rw [serve_of_mayTake h hmay]
  simp only [takeCall, hopen, hup', acceptRefuse_myTurn, hr, answer, hversion, Bool.not_true, Bool.false_eq_true, if_false]
  exact settle_of_calm ((h.myTurn c.via).deliver _)

/-! ## A request that is taken and refused at its parameters (R220 steps 8 and 9) -/

variable (hacc : acceptRefuse opc c s = none)
include hacc

/-- It starts at once: no other command is before it, and what it needs does not retrain. -/
theorem serve_of_accepted (hri : asksVault opc c = false ∨ s.ri.st ≠ .retraining) :
    serve opc c s = (let t := startCall run { call := c, opcode := opc, wait := .held } (taken opc c s)
      returnCall .vault (returnCall .control (takeTurns (backlog t) t))) := by
  obtain ⟨-, howed, hswap, -, hvlt, -⟩ := id h
  have idle := idle_taken h opc c
  have free : swapHolds { call := c, opcode := opc, wait := .held } (taken opc c s) = false := by
    simp [swapHolds, taken, hswap, hvlt]
  have reached : (asksVault opc c && (taken opc c s).ri.st == .retraining) = false := by
    rcases hri with hno | hst
    · simp [hno]
    · simp [taken, hst]
  have first : firstStart (taken opc c s) [] (taken opc c s).cmd.owed = some { call := c, opcode := opc, wait := .held } := by
    show firstStart (taken opc c s) [] [{ call := c, opcode := opc, wait := .held }] = _
    simp [firstStart, startable, free, reached]
  have caught : catchUp (taken opc c s) = startCall run { call := c, opcode := opc, wait := .held } (taken opc c s) := by
    rw [catchUp_of_idle idle]
    show startAll run 1 (taken opc c s) = _
    simp only [startAll, first]
  rw [serve_of_mayTake h hmay, takeCall_of_accepted howed hopen hup hacc, settle, caught]

/-- One that its start answers ends with that reply. -/
theorem serve_of_startReplies (hri : asksVault opc c = false ∨ s.ri.st ≠ .retraining) {st : Nat} {tlvs : List Tlv} {d : State}
    (hstart : startCall run { call := c, opcode := opc, wait := .held } (taken opc c s) = reply c st tlvs (taken opc c d))
    (hd : d.cmd.owed = []) (hq : Quiet d) : serve opc c s = answered opc c st tlvs d := by
  rw [serve_of_accepted h hmay hopen hup hacc hri, hstart, reply_taken opc c st tlvs d hd]
  have turned : Quiet (onCmd (fun x => { x with turn := (turnNo c.via + 1) % turnCount }) d) := hq
  exact rowEnd_of_quiet (handBack_quiet _ _ _ turned)

variable (hri : asksVault opc c = false ∨ s.ri.st ≠ .retraining)
include hri

theorem serve_of_parameterRefused {r : Refuse}
    (hr : (checkTlvs c.pkt.expert (agreed c.via 7 s) (params opc) c.pkt.tlvs [] 16).or (missingPar (params opc) c.pkt) = some r) :
    serve opc c s = answered opc c r.1 (refuseTlvs r) (if opc = 0x0101 then setSess c.via {} s else s) := by
  have hstart : startCall run { call := c, opcode := opc, wait := .held } (taken opc c s) =
      reply c r.1 (refuseTlvs r) (if opc = 0x0101 then setSess c.via {} (taken opc c s) else taken opc c s) := by
    simp only [startCall, agreed_taken, hr]
  split
  next hello =>
    rw [if_pos hello, setSess_taken] at hstart
    exact serve_of_startReplies h hmay hopen hup hacc hri hstart ((setSess_owed _ _ _).trans (owed_nil_of_calm h))
      ((quiet_of_calm h).setSess _ _)
  next other =>
    rw [if_neg other] at hstart
    exact serve_of_startReplies h hmay hopen hup hacc hri hstart (owed_nil_of_calm h) (quiet_of_calm h)

variable
  (hpar : (checkTlvs c.pkt.expert (agreed c.via 7 s) (params opc) c.pkt.tlvs [] 16).or (missingPar (params opc) c.pkt) = none)
include hpar

theorem serve_of_featureRefused {r : Refuse} (hr : featureRefuse opc c s = some r) :
    serve opc c s = answered opc c r.1 (refuseTlvs r) s := by
  have hr' : featureRefuse opc c (taken opc c s) = some r := by rw [← hr]; simp only [featureRefuse, agreed_taken]
  refine serve_of_startReplies h hmay hopen hup hacc hri ?_ (owed_nil_of_calm h) (quiet_of_calm h)
  simp only [startCall, agreed_taken, hpar, hr']

/-- A command whose vault is down, or which the ROM in RECOVERY does not serve, is answered HW_FAULT (R22, R35, R352). -/
theorem serve_of_noServer (hfeat : featureRefuse opc c s = none)
    (hno : vaultServed opc c = true ∧ vaultDown s = true ∨ s.plat.stage = .recovery ∧ recoveryServes opc c s = false) :
    serve opc c s = answered opc c stHwFault [] s := by
  have hfeat' : featureRefuse opc c (taken opc c s) = none := by rw [← hfeat]; simp only [featureRefuse, agreed_taken]
  have hdown : vaultDown (taken opc c s) = vaultDown s := rfl
  have hstage : (taken opc c s).plat.stage = s.plat.stage := rfl
  have hrec : recoveryServes opc c (taken opc c s) = recoveryServes opc c s := rfl
  have htlvs : refuseTlvs (stHwFault, 0, rsRange, 0) = [] := rfl
  refine serve_of_startReplies h hmay hopen hup hacc hri ?_ (owed_nil_of_calm h) (quiet_of_calm h)
  simp only [startCall, agreed_taken, hpar, hfeat', hdown, hstage, hrec, refuse, htlvs]
  rcases hno with ⟨hserved, hv⟩ | ⟨hst, hserves⟩
  · simp [hserved, hv]
  · simp [hst, hserves]

end refused

/-! ## The steps of acceptance in their order (R220 steps 1 to 7) -/

/-- Step 2: a stage in which an interpreter takes packets. -/
def Serving (s : State) : Prop :=
  s.plat.stage = .ready ∨ s.plat.stage = .recovery ∨ s.plat.stage = .swapC ∨ s.plat.stage = .swapV

/-- Step 3: the version agreed by HELLO; before it only HELLO, ECHO and IDENT, from major 2 on. -/
def VersionAgreed (opc : Nat) (c : Call) (s : State) : Prop :=
  if (sessOf c.via s).negotiated then c.pkt.major = (sessOf c.via s).maj ∧ c.pkt.minor ≤ (sessOf c.via s).min
  else (opc = 0x0101 ∨ opc = 0x0103 ∨ opc = 0x0104) ∧ 2 ≤ c.pkt.major

/-- Step 4: a request that the field may not make (R213). -/
def FieldForbids (opc : Nat) (c : Call) : Prop :=
  c.via = .contactless ∧ (c.pkt.expert = true ∨ contactlessOps.contains opc = false)

/-- Step 4: the feature of the opcode is agreed. -/
def FeatureAgreed (opc : Nat) (c : Call) (s : State) : Prop :=
  ∀ b, featureOf opc = some b → bitN (sessOf c.via s).feat b = true

/-- Step 5: an expert form is granted to its transport. -/
def ExpertGranted (opc : Nat) (c : Call) (s : State) : Prop :=
  c.pkt.expert = true → bitN (expertMask c.via s) (opc / 256 - 1) = true

theorem isReady_iff (s : State) : isReady s = true ↔ Serving s := by simp [isReady, Serving, or_assoc]

theorem versionTest_iff (opc : Nat) (c : Call) (s : State) :
    (if (sessOf c.via s).negotiated then c.pkt.major == (sessOf c.via s).maj && decide (c.pkt.minor ≤ (sessOf c.via s).min)
      else (opc == 0x0101 || opc == 0x0103 || opc == 0x0104) && decide (2 ≤ c.pkt.major)) = true ↔ VersionAgreed opc c s := by
  unfold VersionAgreed
  split <;> simp [or_assoc]

theorem fieldTest_iff (opc : Nat) (c : Call) :
    (decide (c.via = .contactless) && (c.pkt.expert || !contactlessOps.contains opc)) = true ↔ FieldForbids opc c := by
  simp [FieldForbids]

theorem featureTest_iff (opc : Nat) (c : Call) (s : State) :
    (featureOf opc).any (fun b => !bitN (sessOf c.via s).feat b) = true ↔ ¬ FeatureAgreed opc c s := by
  simp [FeatureAgreed, Option.any_eq_true]

theorem expertTest_iff (opc : Nat) (c : Call) (s : State) :
    (c.pkt.expert && !bitN (expertMask c.via s) (opc / 256 - 1)) = true ↔ ¬ ExpertGranted opc c s := by
  simp [ExpertGranted]

/-- Steps 6 and 7, and the vault core's hold list. -/
def lateRefuse (opc : Nat) (c : Call) (s : State) : Option Refuse :=
  if sessLimit c.via ≤ (outstanding c.via s).length then some (stBusy, 0, 0, 0)
  else if (outstanding c.via s).any (fun o => o.call.pkt.tag == c.pkt.tag) then some (stBadParam, 0, rsDupTag, 0)
  else if s.nv.life = .sealed && sealedRefuses opc c then some (stSealed, 0, 0, 0)
  else if s.nv.life = .retired && !retiredServes.contains opc then some (stDenied, 0, 0, 0)
  else if vaultServed opc c && 256 ≤ (s.cmd.owed.filter (fun o => vaultServed o.opcode o.call && o.wait == .held)).length
  then some (stBusy, 0, 0, 0)
  else none

open Classical in
/-- An opcode of the table is refused by the first of these steps that fails. -/
theorem acceptRefuse_eq {opc : Nat} (hop : opcodes.contains opc = true) (c : Call) (s : State) : acceptRefuse opc c s =
    if 16384 < 16 + (c.pkt.tlvs.map tlvSize).sum then some (stBadParam, 0, rsLength, 0)
    else if ¬ Serving s then some (stBusy, 0, 0, 0)
    else if ¬ VersionAgreed opc c s then some (stBadVersion, 0, 0, 0)
    else if FieldForbids opc c then some (stBadOpcode, 0, rsRange, 0)
    else if ¬ FeatureAgreed opc c s then some (stBadOpcode, 0, rsFeature, 0)
    else if ¬ ExpertGranted opc c s then some (stDenied, 0, 0, 0)
    else lateRefuse opc c s := by
  simp only [← isReady_iff, ← versionTest_iff, ← fieldTest_iff, ← featureTest_iff, ← expertTest_iff, Bool.not_eq_true,
    ← Bool.not_eq_true']
  unfold acceptRefuse
  simp only [hop, Bool.not_true, Bool.false_eq_true, if_false]
  congr!
  cases featureOf opc <;> rfl

section steps
variable {opc : Nat} {c : Call} {s : State} (hop : opcodes.contains opc = true)
include hop

theorem acceptRefuse_of_tooLong (hlong : 16384 < 16 + (c.pkt.tlvs.map tlvSize).sum) :
    acceptRefuse opc c s = some (stBadParam, 0, rsLength, 0) := by
  rw [acceptRefuse_eq hop, if_pos hlong]

variable (hfits : 16 + (c.pkt.tlvs.map tlvSize).sum ≤ 16384)
include hfits

theorem acceptRefuse_of_notServing (hnot : ¬ Serving s) : acceptRefuse opc c s = some (stBusy, 0, 0, 0) := by
  rw [acceptRefuse_eq hop, if_neg (Nat.not_lt.mpr hfits), if_pos hnot]

variable (hserving : Serving s)
include hserving

theorem acceptRefuse_of_otherVersion (hnot : ¬ VersionAgreed opc c s) :
    acceptRefuse opc c s = some (stBadVersion, 0, 0, 0) := by
  rw [acceptRefuse_eq hop, if_neg (Nat.not_lt.mpr hfits), if_neg (not_not.mpr hserving), if_pos hnot]

variable (hversion : VersionAgreed opc c s)
include hversion

theorem acceptRefuse_of_fieldForbids (hfield : FieldForbids opc c) :
    acceptRefuse opc c s = some (stBadOpcode, 0, rsRange, 0) := by
  rw [acceptRefuse_eq hop, if_neg (Nat.not_lt.mpr hfits), if_neg (not_not.mpr hserving), if_neg (not_not.mpr hversion),
    if_pos hfield]

variable (hfield : ¬ FieldForbids opc c)
include hfield

theorem acceptRefuse_of_noFeature (hnot : ¬ FeatureAgreed opc c s) :
    acceptRefuse opc c s = some (stBadOpcode, 0, rsFeature, 0) := by
  rw [acceptRefuse_eq hop, if_neg (Nat.not_lt.mpr hfits), if_neg (not_not.mpr hserving), if_neg (not_not.mpr hversion),
    if_neg hfield, if_pos hnot]

variable (hfeature : FeatureAgreed opc c s)
include hfeature

theorem acceptRefuse_of_notGranted (hnot : ¬ ExpertGranted opc c s) : acceptRefuse opc c s = some (stDenied, 0, 0, 0) := by
  rw [acceptRefuse_eq hop, if_neg (Nat.not_lt.mpr hfits), if_neg (not_not.mpr hserving), if_neg (not_not.mpr hversion),
    if_neg hfield, if_neg (not_not.mpr hfeature), if_pos hnot]

variable (hexpert : ExpertGranted opc c s)
include hexpert

theorem acceptRefuse_of_admitted : acceptRefuse opc c s = lateRefuse opc c s := by
  rw [acceptRefuse_eq hop, if_neg (Nat.not_lt.mpr hfits), if_neg (not_not.mpr hserving), if_neg (not_not.mpr hversion),
    if_neg hfield, if_neg (not_not.mpr hfeature), if_neg (not_not.mpr hexpert)]

end steps

section late
variable {opc : Nat} {c : Call} {s : State}

theorem lateRefuse_of_sessionFull (hfull : ¬ (outstanding c.via s).length < sessLimit c.via) :
    lateRefuse opc c s = some (stBusy, 0, 0, 0) := by
  rw [lateRefuse, if_pos (Nat.not_lt.mp hfull)]

theorem lateRefuse_of_sameTag (hroom : (outstanding c.via s).length < sessLimit c.via)
    (hsame : ¬ ∀ o ∈ outstanding c.via s, o.call.pkt.tag ≠ c.pkt.tag) :
    lateRefuse opc c s = some (stBadParam, 0, rsDupTag, 0) := by
  have found : (outstanding c.via s).any (fun o => o.call.pkt.tag == c.pkt.tag) = true := by simpa using hsame
  rw [lateRefuse, if_neg (Nat.not_le.mpr hroom), if_pos found]

variable (howed : s.cmd.owed = [])
include howed

/-- With no command owed a reply the session has room and the TAG is new. -/
theorem lateRefuse_of_noneOwed : lateRefuse opc c s =
    if s.nv.life = .sealed && sealedRefuses opc c then some (stSealed, 0, 0, 0)
    else if s.nv.life = .retired && !retiredServes.contains opc then some (stDenied, 0, 0, 0) else none := by
  have none_ : outstanding c.via s = [] := by simp [outstanding, howed]
  have room : ¬ sessLimit c.via ≤ 0 := by cases c.via <;> simp [sessLimit]
  simp [lateRefuse, none_, howed, room]

theorem lateRefuse_of_sealed (hlife : s.nv.life = .sealed) (hno : sealedRefuses opc c = true) :
    lateRefuse opc c s = some (stSealed, 0, 0, 0) := by
  simp [lateRefuse_of_noneOwed howed, hlife, hno]

theorem lateRefuse_of_retired (hlife : s.nv.life = .retired) (hno : retiredServes.contains opc = false) :
    lateRefuse opc c s = some (stDenied, 0, 0, 0) := by
  simp only [lateRefuse_of_noneOwed howed, hlife, hno]
  rfl

end late

/-! ## The rows of the commands -/

/-- A command's row serves its request, and its opcode is one of the table. -/
theorem exec_of_commandRow {opc : Nat} {c : Call} {i : Instr} (h : commandRow opc c = some i) :
    (∀ s, exec i s = .next (serve opc c s)) ∧ opcodes.contains opc = true := by
  unfold commandRow at h
  split at h
  all_goals cases h
  all_goals exact ⟨fun _ => rfl, rfl⟩

/-- Settles O25, step by step: what a request meets before its turn, what its acceptance refuses, what its start refuses. -/
theorem commandAcceptance : Obligations.CommandAcceptance := by
  unfold Obligations.CommandAcceptance
  intro opc c i s hrow
  obtain ⟨hexec, hop⟩ := exec_of_commandRow hrow
  rw [hexec s]
  intro size e ready version field feature expert free_ unique turned no refused
  have ends {t : State} (h : serve opc c s = t) : (.next (serve opc c s) : Res) = .next t := congrArg _ h
  refine ⟨?notRunning, ?viaClosed, ?cannotTake, ?spiFull, ?controlDown, ?itsTurn, ?outstanding⟩
  case notRunning => exact fun hrun => ends (serve_of_notRunning hrun opc c)
  case viaClosed => exact fun hcalm hopen => ends (serve_of_viaClosed hcalm hopen)
  case cannotTake => exact fun _ hmay hspi => ends (serve_of_cannotTake hmay hspi opc)
  case spiFull => exact fun hcalm hmay hspi hfull => ends (serve_of_spiFull hcalm hmay hspi hfull)
  case controlDown => exact fun hcalm hmay hopen hdown => ends (serve_of_controlDown hcalm hmay hopen hdown)
  case outstanding =>
    intro _ _ _ hfits hready hversion hfield hfeature hexpert
    have late := acceptRefuse_of_admitted hop hfits hready hversion hfield hfeature hexpert
    exact ⟨fun hfull => late.trans (lateRefuse_of_sessionFull hfull),
      fun hroom hsame => late.trans (lateRefuse_of_sameTag hroom hsame)⟩
  case itsTurn =>
    intro hcalm hmay hopen hup
    have refusedNow {r : Refuse} (h : acceptRefuse opc c s = some r) : no r :=
      ends (serve_of_refused hcalm hmay hopen hup h)
    refine ⟨fun hlong => refusedNow (acceptRefuse_of_tooLong hop hlong), fun hfits => ?_⟩
    refine ⟨?notServing, ?otherVersion, ?fieldForbids, ?noFeature, ?notGranted, ?admitted⟩
    case notServing => exact fun hnot => refusedNow (acceptRefuse_of_notServing hop hfits hnot)
    case otherVersion => exact fun hready hnot => refusedNow (acceptRefuse_of_otherVersion hop hfits hready hnot)
    case fieldForbids =>
      exact fun hready hversion hfield => refusedNow (acceptRefuse_of_fieldForbids hop hfits hready hversion hfield)
    case noFeature =>
      exact fun hready hversion hfield hnot => refusedNow (acceptRefuse_of_noFeature hop hfits hready hversion hfield hnot)
    case notGranted =>
      exact fun hready hversion hfield hfeature hnot =>
        refusedNow (acceptRefuse_of_notGranted hop hfits hready hversion hfield hfeature hnot)
    case admitted =>
      intro hready hversion hfield hfeature hexpert
      have late := acceptRefuse_of_admitted hop hfits hready hversion hfield hfeature hexpert
      have howed := owed_nil_of_calm hcalm
      refine ⟨?sealed, ?retired, fun hacc hri => ⟨?parameters, fun hpar => ⟨?features, ?noServer⟩⟩⟩
      case sealed => exact fun hlife hno => refusedNow (late.trans (lateRefuse_of_sealed howed hlife hno))
      case retired => exact fun hlife hno => refusedNow (late.trans (lateRefuse_of_retired howed hlife hno))
      case features => exact fun r hr => ends (serve_of_featureRefused hcalm hmay hopen hup hacc hri hpar hr)
      case noServer => exact fun hfeat hno => ends (serve_of_noServer hcalm hmay hopen hup hacc hri hpar hfeat hno)
      case parameters =>
        intro r hr
        have atParameters := serve_of_parameterRefused hcalm hmay hopen hup hacc hri hr
        split
        next hello => exact ends (atParameters.trans (congrArg _ (if_pos hello)))
        next other => exact ends (atParameters.trans (congrArg _ (if_neg other)))

end Sys2Proof.Claim
end

section
/-! The loss of the 25 MHz crystal without main power (R318, R484), and O56. The detector's condition is kept for the next
backup sample (R330, R536), while O56 says that nothing but the clock input changes. -/
namespace Sys2Proof.Claim
open Sys2Proof.Machine

/-- Without main power the lost crystal leaves the condition of source 12, CLK_WH, standing. -/
theorem xtal25Lost_keepsCondition {dt : Nat} {s t : State} (hpwr : (advance dt s).plat.pwrOk = false)
    (h : exec (.xtal25Lost dt) s = .next t) : t.bk.cond = (advance dt s).bk.cond ||| BitVec.twoPow 32 12 := by
  have hexec : exec (.xtal25Lost dt) s = execXtal25Lost dt s := rfl
  simp only [hexec, execXtal25Lost, tamperFires, done, onBk_plat, onPlat_plat, hpwr, Bool.false_eq_true, if_false,
    Host.Outcome.next.injEq] at h
  rw [← h]
  rfl

/-- A part on backup power: main power is gone, nothing has been detected. -/
def onBackupPower : State := { State.reset with plat := { pwrOk := false } }

/-- Refutes O56, in its clause on the 25 MHz crystal without main power: it lets nothing but the clock input change, but the
model keeps the condition of CLK_WH, as R318 and R536 ask, for a backup sample or the return of main power to judge. -/
theorem not_powerAndClocks : ¬ Obligations.PowerAndClocks := by
  unfold Obligations.PowerAndClocks Claim.ClocksAndTemperature
  rintro ⟨-, clocks, -⟩
  obtain ⟨-, -, -, -, -, onlyTheInput, -⟩ := clocks 0 onBackupPower
  have noPower : (advance 0 onBackupPower).plat.pwrOk = false := by decide
  have kept := xtal25Lost_keepsCondition noPower (onlyTheInput noPower)
  exact absurd kept (by decide)

end Sys2Proof.Claim
end

section
/-! What raising an event adds to the event registers and to the outputs, and what it leaves there (R510, R515, R517). -/
namespace Sys2Proof.Claim
open Sys2Proof.Machine

/-- Events are raised and recorded: no pending or sticky bit falls, the masks and levels stay, and outputs are only added. -/
structure Heard (s t : State) : Prop where
  told : Told s t
  waitKey : t.ev.waitKey = s.ev.waitKey
  mask : t.ev.mask = s.ev.mask
  lvl : t.ev.lvl = s.ev.lvl
  pend : ∀ n, s.ev.pend.getLsbD n = true → t.ev.pend.getLsbD n = true
  sumpP : ∀ n, s.ev.sumpP.getLsbD n = true → t.ev.sumpP.getLsbD n = true
  sumpW : ∀ n, s.ev.sumpW.getLsbD n = true → t.ev.sumpW.getLsbD n = true
  out : ∃ o, t.out = s.out ++ o

theorem Heard.refl (s : State) : Heard s s :=
  ⟨.refl s, rfl, rfl, rfl, fun _ h => h, fun _ h => h, fun _ h => h, [], (List.append_nil _).symm⟩

theorem Heard.trans {s t u : State} (h : Heard s t) (k : Heard t u) : Heard s u := by
  obtain ⟨o, ho⟩ := h.out
  obtain ⟨p, hp⟩ := k.out
  exact ⟨h.told.trans k.told, k.waitKey.trans h.waitKey, k.mask.trans h.mask, k.lvl.trans h.lvl,
    fun n hn => k.pend n (h.pend n hn), fun n hn => k.sumpP n (h.sumpP n hn), fun n hn => k.sumpW n (h.sumpW n hn),
    o ++ p, by rw [hp, ho, List.append_assoc]⟩

/-- A telling that leaves the event registers and the outputs. -/
theorem Heard.of_told {s t : State} (h : Told s t) (hev : t.ev = s.ev) (hout : t.out = s.out) : Heard s t := by
  refine ⟨h, ?_, ?_, ?_, ?_, ?_, ?_, [], by simp [hout]⟩ <;> simp [hev]

theorem set256_mono {v : BitVec 256} (m : Nat) {n : Nat} (h : v.getLsbD n = true) : (set256 v m).getLsbD n = true := by
  simp [set256, h]

theorem getLsbD_set256_same {v : BitVec 256} {n : Nat} (h : n < 256) : (set256 v n).getLsbD n = true := by
  simp [set256, h]

theorem heard_emit (o : Out) (s : State) : Heard s (emit o s) :=
  ⟨told_emit o s, rfl, rfl, rfl, fun _ h => h, fun _ h => h, fun _ h => h, [o], rfl⟩

theorem heard_msix (v : Nat) (s : State) : Heard s (msix v s) := by
  unfold msix
  split
  · exact .refl s
  · split
    · exact ⟨told_onEv _ s, rfl, rfl, rfl, fun _ h => h, fun _ h => h, fun _ h => h, [], (List.append_nil _).symm⟩
    · exact heard_emit _ s

theorem msix_pend (v : Nat) (s : State) : (msix v s).ev.pend = s.ev.pend := by
  unfold msix
  split
  · rfl
  · split <;> rfl

theorem heard_sendRiser (w : Bool) (c : RChan) (q : RQueue) (b : Bytes) (s : State) : Heard s (sendRiser w c q b s) := by
  obtain ⟨r, d, -, h⟩ := sendRiser_parts w c q b s
  exact .of_told (sendRiser_told w c q b s) (by rw [h]) (by rw [h])

theorem heard_cdcPass (q n : Nat) (s : State) : Heard s (cdcPass q n s) :=
  .of_told (cdcPass_told q n s) (by rw [cdcPass_parts]) (by rw [cdcPass_parts])

/-- The messages of the levels whose OR rises add outputs and pending vectors only. -/
theorem heard_levelMessages (b : Nat → State → Bool) (l : List Nat) (s : State) :
    Heard s (l.foldl (fun s l => if b l s then msix (60 + l) s else s) s) ∧
      (l.foldl (fun s l => if b l s then msix (60 + l) s else s) s).ev.pend = s.ev.pend := by
  induction l generalizing s with
  | nil => exact ⟨.refl s, rfl⟩
  | cons l r ih =>
    rw [List.foldl_cons]
    obtain ⟨hrest, hpend⟩ := ih (if b l s then msix (60 + l) s else s)
    split at hrest
    next rises => exact ⟨(heard_msix _ s).trans (by simpa [rises] using hrest), by rw [hpend]; simp [rises, msix_pend]⟩
    next stays => exact ⟨by simpa [stays] using hrest, by rw [hpend]; simp [stays]⟩

/-- A source reaches the pending views of Pumphouse. -/
theorem heard_evPumpViews (n : Nat) (s : State) : Heard s (evPumpViews n s) ∧
    (evPumpViews n s).ev.pend = set256 s.ev.pend n := by
  let t := onEv (fun e => { e with pend := set256 e.pend n, intcPendC := set256 e.intcPendC n }) s
  have set : Heard s t :=
    ⟨told_onEv _ s, rfl, rfl, rfl, fun _ h => set256_mono n h, fun _ h => h, fun _ h => h, [], (List.append_nil _).symm⟩
  obtain ⟨messages, hpend⟩ := heard_levelMessages (fun l u => !evOr s.ev l && evOr u.ev l) [0, 1, 2, 3] t
  exact ⟨set.trans messages, hpend⟩

theorem heard_evVaultView (n : Nat) (s : State) : Heard s (evVaultView n s) :=
  ⟨told_onEv _ s, rfl, rfl, rfl, fun _ h => h, fun _ h => h, fun _ h => h, [], (List.append_nil _).symm⟩

theorem heard_appletEvent (n : Nat) (s : State) : Heard s (appletEvent n s) := .of_told (appletEvent_told n s) rfl rfl

/-- An event that waits for the riser stays with Wellhead. -/
theorem heard_waitToP (l : List Nat) (s : State) : Heard s (onEv (fun e => { e with waitToP := e.waitToP ++ l }) s) :=
  ⟨told_onEv _ s, rfl, rfl, rfl, fun _ h => h, fun _ h => h, fun _ h => h, [], (List.append_nil _).symm⟩

/-- An event or a record that waits for the riser stays with Pumphouse. -/
theorem heard_waitToV (l : List (Nat × List Nat)) (s : State) : Heard s (onEv (fun e => { e with waitToV := e.waitToV ++ l }) s) :=
  ⟨told_onEv _ s, rfl, rfl, rfl, fun _ h => h, fun _ h => h, fun _ h => h, [], (List.append_nil _).symm⟩

theorem heard_evRaise (n : Nat) (s : State) : Heard s (evRaise n s) := by
  unfold evRaise
  refine (heard_appletEvent n s).trans ?_
  simp only
  split
  · refine (heard_evVaultView n _).trans ?_
    split
    · exact (heard_sendRiser _ _ _ _ _).trans (heard_evPumpViews n _).1
    · exact heard_waitToP _ _
  · refine ((heard_cdcPass cdcEvents 1 _).trans (heard_evPumpViews n _).1).trans ?_
    split
    · exact (heard_sendRiser _ _ _ _ _).trans (heard_evVaultView n _)
    · exact heard_waitToV _ _

/-- A source of Pumphouse is pending at once (R510). -/
theorem evRaise_pend {n : Nat} (s : State) (hn : n < 256) (hp : evWell n = false) : (evRaise n s).ev.pend.getLsbD n = true := by
  unfold evRaise
  simp only [hp, Bool.false_eq_true, if_false]
  have reached (t : State) : (evPumpViews n t).ev.pend.getLsbD n = true := by
    rw [(heard_evPumpViews n t).2]
    exact getLsbD_set256_same hn
  split
  · exact ((heard_sendRiser _ _ _ _ _).trans (heard_evVaultView n _)).pend n (reached _)
  · exact (heard_waitToV _ _).pend n (reached _)

theorem heard_sumpSet (n : Nat) (s : State) : Heard s (sumpSet n s) := by
  unfold sumpSet
  refine ⟨told_onEv _ s, ?_, ?_, ?_, ?_, ?_, ?_, [], (List.append_nil _).symm⟩ <;> simp only [onEv_ev] <;> split
  case refine_4.isTrue | refine_4.isFalse | refine_5.isTrue | refine_6.isFalse => exact fun _ h => h
  case refine_5.isFalse | refine_6.isTrue => exact fun _ h => set256_mono n h
  all_goals rfl

/-- The sticky bit of a source stands on the die that owns it (R515). -/
theorem sumpSet_sticky {n : Nat} (s : State) (hn : n < 256) :
    if evWell n then (sumpSet n s).ev.sumpW.getLsbD n = true else (sumpSet n s).ev.sumpP.getLsbD n = true := by
  unfold sumpSet
  cases evWell n <;> simp [getLsbD_set256_same hn]

theorem heard_logRecord (source die flags : Nat) (d : List Nat) (s : State) : Heard s (logRecord source die flags d s) := by
  have kept {t : State} (h : Told s t) (hev : t.ev = s.ev) (hout : t.out = s.out) : Heard s t := .of_told h hev hout
  have lost : Heard s (onNv (fun n => { n with lostRecs := satAdd 4294967295 n.lostRecs 1 }) s) :=
    kept ⟨_, _, _, _, _, _, _, _, ⟨rfl, fun _ => rfl⟩, rfl⟩ rfl rfl
  have full (t : State) : Heard t (onEv (fun e => { e with logFull := true }) t) :=
    ⟨told_onEv _ t, rfl, rfl, rfl, fun _ h => h, fun _ h => h, fun _ h => h, [], (List.append_nil _).symm⟩
  unfold logRecord logRecordAt
  simp only
  split
  · split
    · exact lost
    · exact (lost.trans (full _)).trans (heard_evRaise 152 _)
  · split
    · exact (heard_sumpSet 139 s).trans (heard_evRaise 139 _)
    · split
      · exact lost
      · exact kept ((monoWrite_told _ _ s).trans ⟨_, _, _, _, _, _, _, _, ⟨rfl, fun _ => rfl⟩, rfl⟩) rfl rfl

theorem heard_recordOf (n : Nat) (d : List Nat) (s : State) : Heard s (recordOf n d s) := by
  unfold recordOf
  split
  · exact heard_logRecord n 1 0 d s
  · split
    · exact ((heard_sendRiser _ _ _ _ s).trans (heard_sendRiser _ _ _ _ _)).trans (heard_logRecord n 0 0 d _)
    · exact heard_waitToV _ _

theorem heard_raise (n : Nat) (d : List Nat) (s : State) : Heard s (raise n d s) := by
  unfold raise
  refine (heard_evRaise n s).trans ?_
  simp only
  split
  · exact (heard_sumpSet n _).trans (heard_recordOf n d _)
  · exact .refl _

/-- A raised source of Pumphouse is pending (R510). -/
theorem raise_pend {n : Nat} (d : List Nat) (s : State) (hn : n < 256) (hp : evWell n = false) :
    (raise n d s).ev.pend.getLsbD n = true := by
  unfold raise
  simp only
  split
  · exact ((heard_sumpSet n _).trans (heard_recordOf n d _)).pend n (evRaise_pend s hn hp)
  · exact evRaise_pend s hn hp

/-- A raised sticky source has its sump bit (R515). -/
theorem raise_sticky {n : Nat} (d : List Nat) (s : State) (hn : n < 256) (hs : evSticky n = true) :
    if evWell n then (raise n d s).ev.sumpW.getLsbD n = true else (raise n d s).ev.sumpP.getLsbD n = true := by
  have sticky := sumpSet_sticky (evRaise n s) hn
  have record := heard_recordOf n d (sumpSet n (evRaise n s))
  unfold raise
  simp only [hs, if_true]
  split
  next well => exact record.sumpW n (by simpa [well] using sticky)
  next pump => exact record.sumpP n (by simpa [pump] using sticky)

@[simp] theorem raise_waitKey (n : Nat) (d : List Nat) (s : State) : (raise n d s).ev.waitKey = s.ev.waitKey :=
  (heard_raise n d s).waitKey

end Sys2Proof.Claim
end

section
/-! The frame path's operations: what a turn, a clock crossing, a returned cell and a spill leave, and what its tables read
after a write (R26, R30, R57, R63, R69, R84). -/
namespace Sys2Proof.Claim
open Sys2Proof.Machine

section turns
variable (kind id rank : Nat) (s : State)
@[simp] theorem inTurn_fp : (inTurn kind id rank s).fp = s.fp := by rw [inTurn_parts]
@[simp] theorem inTurn_se : (inTurn kind id rank s).se = s.se := by rw [inTurn_parts]
@[simp] theorem inTurn_nv : (inTurn kind id rank s).nv = s.nv := by rw [inTurn_parts]
@[simp] theorem inTurn_ev : (inTurn kind id rank s).ev = s.ev := by rw [inTurn_parts]
@[simp] theorem inTurn_out : (inTurn kind id rank s).out = s.out := by rw [inTurn_parts]
@[simp] theorem inTurn_plat : (inTurn kind id rank s).plat = s.plat := by rw [inTurn_parts]
@[simp] theorem inTurn_pu : (inTurn kind id rank s).pu = s.pu := by rw [inTurn_parts]
@[simp] theorem inTurn_co : (inTurn kind id rank s).co = s.co := by rw [inTurn_parts]
end turns

section crossings
variable (q n : Nat) (s : State)
@[simp] theorem cdcPass_clk : (cdcPass q n s).clk = s.clk := by rw [cdcPass_parts]
@[simp] theorem cdcPass_fp : (cdcPass q n s).fp = s.fp := by rw [cdcPass_parts]
@[simp] theorem cdcPass_se : (cdcPass q n s).se = s.se := by rw [cdcPass_parts]
@[simp] theorem cdcPass_nv : (cdcPass q n s).nv = s.nv := by rw [cdcPass_parts]
@[simp] theorem cdcPass_ev : (cdcPass q n s).ev = s.ev := by rw [cdcPass_parts]
@[simp] theorem cdcPass_out : (cdcPass q n s).out = s.out := by rw [cdcPass_parts]
@[simp] theorem cdcPass_plat : (cdcPass q n s).plat = s.plat := by rw [cdcPass_parts]
@[simp] theorem cdcPass_pu : (cdcPass q n s).pu = s.pu := by rw [cdcPass_parts]
end crossings

/-! ## Tables of the path -/

section tables
variable (p q : Nat) (s : State)

theorem portOf_onPort (f : Port → Port) : portOf p (onPort q f s) = if p = q then f (portOf q s) else portOf p s := by
  simp only [portOf, onPort, onFp_fp, smGet_smMod]

@[simp] theorem portOf_onPort_same (f : Port → Port) : portOf p (onPort p f s) = f (portOf p s) := by simp [portOf_onPort]

theorem pairOf_onPair (f : Pair → Pair) : pairOf p (onPair q f s) = if p = q then f (pairOf q s) else pairOf p s := by
  simp only [pairOf, onPair, onFp_fp, smGet_smMod]

@[simp] theorem rxqOf_onRxq_same (f : RxQ → RxQ) : rxqOf p (onRxq p f s) = f (rxqOf p s) := by
  simp only [rxqOf, onRxq, onFp_fp, smGet_smMod_same]

theorem rxqOf_onRxq (f : RxQ → RxQ) : rxqOf p (onRxq q f s) = if p = q then f (rxqOf q s) else rxqOf p s := by
  simp only [rxqOf, onRxq, onFp_fp, smGet_smMod]

@[simp] theorem txqOf_onTxq_same (f : TxQ → TxQ) : txqOf p (onTxq p f s) = f (txqOf p s) := by
  simp only [txqOf, onTxq, onFp_fp, smGet_smMod_same]

@[simp] theorem pairOf_onPort (f : Port → Port) : pairOf p (onPort q f s) = pairOf p s := rfl
end tables

/-! ## What returns (R63, R84) -/

/-- What a change of the path gives back is only noted in the books of the tick. -/
theorem returning_parts (f : State → State) (s : State) : ∃ a i e d x, returning f s = onFp (fun p => { p with
    backAt := a, backIng := i, backEgr := e, backDelivery := d, backTransmit := x }) (f s) := by
  unfold returning
  simp only
  split
  · exact ⟨_, _, _, _, _, rfl⟩
  · exact ⟨_, _, _, _, _, rfl⟩

section returned
variable (f : State → State) (s : State)
theorem returning_apart {α : Type} (g : State → α) (h : ∀ (k : Fp → Fp) (t : State), g (onFp k t) = g t) :
    g (returning f s) = g (f s) := by
  obtain ⟨a, i, e, d, x, hparts⟩ := returning_parts f s
  rw [hparts, h]
@[simp] theorem returning_clk : (returning f s).clk = (f s).clk := returning_apart f s _ (fun _ _ => rfl)
@[simp] theorem returning_plat : (returning f s).plat = (f s).plat := returning_apart f s _ (fun _ _ => rfl)
@[simp] theorem returning_ev : (returning f s).ev = (f s).ev := returning_apart f s _ (fun _ _ => rfl)
@[simp] theorem returning_se : (returning f s).se = (f s).se := returning_apart f s _ (fun _ _ => rfl)
@[simp] theorem returning_pu : (returning f s).pu = (f s).pu := returning_apart f s _ (fun _ _ => rfl)
@[simp] theorem returning_nv : (returning f s).nv = (f s).nv := returning_apart f s _ (fun _ _ => rfl)
@[simp] theorem returning_out : (returning f s).out = (f s).out := returning_apart f s _ (fun _ _ => rfl)
@[simp] theorem returning_ri : (returning f s).ri = (f s).ri := returning_apart f s _ (fun _ _ => rfl)
theorem returning_books {α : Type} (g : Fp → α)
    (h : ∀ p a i e d x, g { p with backAt := a, backIng := i, backEgr := e, backDelivery := d, backTransmit := x } = g p) :
    g (returning f s).fp = g (f s).fp := by
  obtain ⟨a, i, e, d, x, hparts⟩ := returning_parts f s
  rw [hparts, onFp_fp, h]
@[simp] theorem returning_ports : (returning f s).fp.ports = (f s).fp.ports := returning_books f s _ (fun _ _ _ _ _ _ => rfl)
@[simp] theorem returning_pairs : (returning f s).fp.pairs = (f s).fp.pairs := returning_books f s _ (fun _ _ _ _ _ _ => rfl)
@[simp] theorem returning_rxq : (returning f s).fp.rxq = (f s).fp.rxq := returning_books f s _ (fun _ _ _ _ _ _ => rfl)
@[simp] theorem returning_txq : (returning f s).fp.txq = (f s).fp.txq := returning_books f s _ (fun _ _ _ _ _ _ => rfl)
@[simp] theorem returning_ing : (returning f s).fp.ing = (f s).fp.ing := returning_books f s _ (fun _ _ _ _ _ _ => rfl)
@[simp] theorem returning_egr : (returning f s).fp.egr = (f s).fp.egr := returning_books f s _ (fun _ _ _ _ _ _ => rfl)
@[simp] theorem returning_nextTicket : (returning f s).fp.nextTicket = (f s).fp.nextTicket :=
  returning_books f s _ (fun _ _ _ _ _ _ => rfl)
@[simp] theorem returning_wdDelivery : (returning f s).fp.wdDelivery = (f s).fp.wdDelivery :=
  returning_books f s _ (fun _ _ _ _ _ _ => rfl)
@[simp] theorem returning_rxqOf (q : Nat) : rxqOf q (returning f s) = rxqOf q (f s) := by simp only [rxqOf, returning_rxq]
@[simp] theorem returning_ingOf (t : Nat) : ingOf t (returning f s) = ingOf t (f s) := by simp only [ingOf, returning_ing]
end returned

/-! ## Spilling (R57, R69) -/

/-- The record without its ticket and cells, as it is staged. -/
def unheld (r : Rec) : Rec := { r with ticket := none, cells := 0 }

/-- Queues have begun to spill: nothing but the receive queues and the books of returned cells differs, of a queue only where
its records lie, and every record is still there, if without its ticket and cells. -/
structure Spilt (s t : State) : Prop where
  parts : ∃ l a i e d x, t = onFp (fun p => { p with
    rxq := l, backAt := a, backIng := i, backEgr := e, backDelivery := d, backTransmit := x }) s
  queues : ∀ q, ∃ b l n m, rxqOf q t = { rxqOf q s with spilling := b, staged := l, stagedBytes := n, recs := m }
  records : ∀ q, ∀ r ∈ (rxqOf q s).recs ++ (rxqOf q s).staged,
    ∃ y ∈ (rxqOf q t).recs ++ (rxqOf q t).staged, unheld y = unheld r

theorem Spilt.refl (s : State) : Spilt s s :=
  ⟨⟨_, _, _, _, _, _, rfl⟩, fun _ => ⟨_, _, _, _, rfl⟩, fun _ r hr => ⟨r, hr, rfl⟩⟩

theorem Spilt.trans {s t u : State} (h : Spilt s t) (k : Spilt t u) : Spilt s u := by
  refine ⟨?parts, fun q => ?queue, fun q r hr => ?record⟩
  case parts =>
    obtain ⟨_, _, _, _, _, _, rfl⟩ := h.parts
    obtain ⟨_, _, _, _, _, _, rfl⟩ := k.parts
    exact ⟨_, _, _, _, _, _, rfl⟩
  case queue =>
    obtain ⟨b, l, n, m, ht⟩ := h.queues q
    obtain ⟨b2, l2, n2, m2, hu⟩ := k.queues q
    exact ⟨b2, l2, n2, m2, by rw [hu, ht]⟩
  case record =>
    obtain ⟨y, hy, hyr⟩ := h.records q r hr
    obtain ⟨z, hz, hzy⟩ := k.records q y hy
    exact ⟨z, hz, hzy.trans hyr⟩

theorem mem_insertBy {α : Type} (le : α → α → Bool) (x y : α) (l : List α) : y ∈ insertBy le x l ↔ y = x ∨ y ∈ l := by
  induction l with
  | nil => simp [insertBy]
  | cons z l ih =>
    unfold insertBy
    split
    · simp only [List.mem_cons, ih]
      tauto
    · simp

/-- Records staged one after another join those already staged. -/
theorem mem_foldl_insertBy {α : Type} (le : α → α → Bool) (y : α) (l m : List α) :
    y ∈ l.foldl (fun m x => insertBy le x m) m ↔ y ∈ l ∨ y ∈ m := by
  induction l generalizing m with
  | nil => simp
  | cons x l ih =>
    rw [List.foldl_cons, ih, mem_insertBy]
    simp only [List.mem_cons]
    tauto

theorem beginSpill_spilt (q : Nat) (s : State) : Spilt s (beginSpill q s) := by
  refine ⟨?parts, fun j => ?queue, fun j r hr => ?record⟩
  case parts =>
    obtain ⟨a, i, e, d, x, h⟩ := returning_parts (fun s => onRxq q _ s) s
    exact ⟨_, a, i, e, d, x, h⟩
  all_goals unfold beginSpill; rw [returning_rxqOf, rxqOf_onRxq]
  case queue =>
    split
    next same =>
      subst same
      split
      · exact ⟨_, _, _, _, rfl⟩
      · exact ⟨_, _, _, _, rfl⟩
    next other => exact ⟨_, _, _, _, rfl⟩
  case record =>
    split
    next same =>
      subst same
      split
      next spills => exact ⟨r, hr, rfl⟩
      next begins =>
        rcases List.mem_append.mp hr with held | staged
        · exact ⟨unheld r, by simpa [mem_foldl_insertBy] using .inl ⟨r, held, rfl⟩, rfl⟩
        · exact ⟨r, by simpa [mem_foldl_insertBy] using .inr staged, rfl⟩
    next other => exact ⟨r, hr, rfl⟩

theorem lowCells_spilt (s : State) : Spilt s (lowCells s) := by
  have fold (l : List (Nat × RxQ)) (t : State) : Spilt t (l.foldl (fun s e => beginSpill e.1 s) t) := by
    induction l generalizing t with
    | nil => exact .refl t
    | cons e l ih => exact (beginSpill_spilt e.1 t).trans (ih _)
  unfold lowCells
  split
  · exact fold _ s
  · exact .refl s

/-- What a spill leaves. -/
theorem Spilt.apart {s t : State} (h : Spilt s t) {α : Type} (g : State → α) (hg : ∀ (k : Fp → Fp) (u : State), g (onFp k u) = g u) :
    g t = g s := by
  obtain ⟨_, _, _, _, _, _, rfl⟩ := h.parts
  exact hg _ _

theorem Spilt.fp {s t : State} (h : Spilt s t) {α : Type} (g : Fp → α)
    (hg : ∀ p l a i e d x, g { p with rxq := l, backAt := a, backIng := i, backEgr := e, backDelivery := d, backTransmit := x } = g p) :
    g t.fp = g s.fp := by
  obtain ⟨_, _, _, _, _, _, rfl⟩ := h.parts
  rw [onFp_fp, hg]

@[simp] theorem lowCells_ing (s : State) : (lowCells s).fp.ing = s.fp.ing := (lowCells_spilt s).fp _ (fun _ _ _ _ _ _ _ => rfl)
@[simp] theorem lowCells_ports (s : State) : (lowCells s).fp.ports = s.fp.ports := (lowCells_spilt s).fp _ (fun _ _ _ _ _ _ _ => rfl)
@[simp] theorem lowCells_nextTicket (s : State) : (lowCells s).fp.nextTicket = s.fp.nextTicket :=
  (lowCells_spilt s).fp _ (fun _ _ _ _ _ _ _ => rfl)
@[simp] theorem lowCells_wdDelivery (s : State) : (lowCells s).fp.wdDelivery = s.fp.wdDelivery :=
  (lowCells_spilt s).fp _ (fun _ _ _ _ _ _ _ => rfl)
@[simp] theorem lowCells_se (s : State) : (lowCells s).se = s.se := (lowCells_spilt s).apart _ (fun _ _ => rfl)
@[simp] theorem lowCells_nv (s : State) : (lowCells s).nv = s.nv := (lowCells_spilt s).apart _ (fun _ _ => rfl)
@[simp] theorem lowCells_ev (s : State) : (lowCells s).ev = s.ev := (lowCells_spilt s).apart _ (fun _ _ => rfl)
@[simp] theorem lowCells_out (s : State) : (lowCells s).out = s.out := (lowCells_spilt s).apart _ (fun _ _ => rfl)
@[simp] theorem lowCells_clk (s : State) : (lowCells s).clk = s.clk := (lowCells_spilt s).apart _ (fun _ _ => rfl)

end Sys2Proof.Claim
end

section
/-! The arrival of a frame (R43, R44, R60, R66, R96), and O38. -/
namespace Sys2Proof.Claim
open Sys2Proof.Machine

section arrival
variable {dt sof : Nat} {port : Fin 4} {f : Frame} {s : State}

/-- The arrival instant of a frame on a port (R44, R183). -/
def arrivalTime (sof : Nat) (port : Fin 4) (s : State) : Nat := ((sof : Int) - rxLat port (portOf port s).mode s).toNat

/-- The tick in which its start passed the port's balls. -/
def startTick (port : Fin 4) (f : Frame) (s : State) : Nat := s.clk.now - byteTicks (portOf port s).mode f.len

section onAnUpPort
variable {a : State} (ha : pass dt s = a) (hup : portUp port a = true) (hdp : a.plat.dpReleased = true) (hpwr : a.plat.pwrOk = true)
include ha hup hdp hpwr

/-- A frame with a MAC error moves a counter of its port and nothing else (R43). -/
theorem frameReceive_of_macError {p : Port} (herr : macError f (portOf port a) = some p) :
    exec (.frameReceive dt port sof f) s = .next (onPort port (fun _ => p) a) := by
  have hexec : exec (.frameReceive dt port sof f) s = execFrameReceive dt port sof f s := rfl
  simp only [hexec, execFrameReceive, done, ha, hup, hdp, hpwr, herr, Bool.not_true, Bool.or_self, Bool.false_eq_true, if_false]

/-- A sound frame outside an HSR pair enters by its port. -/
theorem frameReceive_of_sound (hsound : macError f (portOf port a) = none) (hmode : (pairOf (port / 2) a).mode ≠ .hsr) :
    exec (.frameReceive dt port sof f) s = .next (enterPort port (arrivalTime sof port a) (startTick port f a) f a) := by
  have hexec : exec (.frameReceive dt port sof f) s = execFrameReceive dt port sof f s := rfl
  simp only [hexec, execFrameReceive, done, ha, hup, hdp, hpwr, hsound, hmode, Bool.not_true, Bool.or_self, Bool.false_eq_true,
    if_false]
  rfl

end onAnUpPort

/-! ## Behind the port -/

/-- The state in which a frame asks for its ticket: its turn has come, it has crossed to the pump clock and is counted. -/
def admittedBy (port : Fin 4) (f : Frame) (s : State) : State :=
  onPort port (fun p => { p with admitted := wrap1 p.admitted })
    (cdcPass (cdcFromLine + port) ((f.len + 7) / 8) (inTurn turnTicket 0 port s))

theorem portOf_admittedBy (f : Frame) (s : State) : portOf port (admittedBy port f s) =
    { portOf port s with admitted := wrap1 (portOf port s).admitted } := by
  simp [admittedBy, portOf, onPort]

theorem pairOf_admittedBy (p : Nat) (f : Frame) (s : State) : pairOf p (admittedBy port f s) = pairOf p s := by
  simp [admittedBy, pairOf, onPort]

/-- What the classifier says depends on the state through the key of the identifier hash alone. -/
theorem classify_congr {s t : State} (hse : t.se = s.se) (p : Nat) (m : PairMode) (f : Frame) :
    classify p m f t = classify p m f s := by
  unfold classify keyOf
  rw [hse]

theorem classify_admittedBy (m : PairMode) (f : Frame) (s : State) :
    classify port m f (admittedBy port f s) = classify port m f s :=
  classify_congr (by simp [admittedBy, onPort]) _ _ _

/-- Crossing a queue and counting the frame give and take no tickets or cells. -/
theorem mayTake_admittedBy (f : Frame) (s : State) :
    ingressMayTake (admittedBy port f s) = ingressMayTake (inTurn turnTicket 0 port s) ∧
      freeDelivery (admittedBy port f s) = freeDelivery (inTurn turnTicket 0 port s) := by
  unfold admittedBy
  rw [cdcPass_parts]
  exact ⟨rfl, rfl⟩

/-- A frame without a ticket or cells is counted as starved (R66). -/
theorem enterPort_starved {ts tick : Nat} (s : State)
    (h : let b := inTurn turnTicket 0 port s
      ingressMayTake b = false ∨ freeDelivery b < (16 + (classify port (pairOf (port / 2) s).mode f s).view.len + 63) / 64) :
    enterPort port ts tick f s = starve port (admittedBy port f s) := by
  obtain ⟨hmay, hfree⟩ := mayTake_admittedBy (port := port) f s
  have full : (!ingressMayTake (admittedBy port f s) || decide (freeDelivery (admittedBy port f s) <
      (16 + (classify port (pairOf (port / 2) (admittedBy port f s)).mode f (admittedBy port f s)).view.len + 63) / 64)) = true := by
    rw [hmay, hfree, pairOf_admittedBy, classify_admittedBy]
    simpa using h
  unfold enterPort
  exact if_pos full

/-- A port's starved frame: its two counters and its event (R66). -/
theorem starve_admittedBy (port : Fin 4) (f : Frame) (s : State) : let d := starve port (admittedBy port f s)
    d.fp.ing = s.fp.ing ∧ d.ev.pend.getLsbD (36 + port) = true ∧ d.se = s.se ∧
      portOf port d = { portOf port s with
        admitted := wrap1 (portOf port s).admitted, starved := wrap1 (portOf port s).starved } := by
  have pumphouse : evWell (36 + port) = false := by revert port; decide
  refine ⟨?_, raise_pend _ _ (by omega) pumphouse, ?_, ?_⟩
  · simp [starve, admittedBy, onPort]
  · simp [starve, admittedBy, onPort]
  · have h := portOf_admittedBy (port := port) f s
    simp only [starve, portOf, raise_fp] at h ⊢
    simp only [onPort, onFp_fp, smGet_smMod_same] at h ⊢
    rw [h]

/-- A frame with a ticket, behind the count of its LAN. -/
def ticketed (wrongLan : Bool) (port : Fin 4) (x : Ing) (s : State) : State :=
  lowCells (onFp (fun y => { y with ing := y.ing ++ [x], nextTicket := y.nextTicket + 1 })
    (if wrongLan then onPort port (fun p => { p with wrongLan := wrap1 p.wrongLan }) s else s))

/-- Taking the ticket changes the frames in flight and the port's LAN counter, and its turn has passed. -/
theorem ticketed_admittedBy (w : Bool) (port : Fin 4) (x : Ing) (f : Frame) (s : State) :
    let d := ticketed w port x (admittedBy port f s)
    d.fp.ing = s.fp.ing ++ [x] ∧ d.fp.nextTicket = s.fp.nextTicket + 1 ∧
      (portOf port d).admitted = wrap1 (portOf port s).admitted ∧ d.se = s.se ∧ d.nv = s.nv ∧ d.ev = s.ev := by
  have admitted : (portOf port (if w then onPort port (fun p => { p with wrongLan := wrap1 p.wrongLan }) (admittedBy port f s)
      else admittedBy port f s)).admitted = wrap1 (portOf port s).admitted := by
    cases w <;> simp [portOf_admittedBy]
  intro d
  refine ⟨?_, ?_, ?_, ?_, ?_, ?_⟩
  case refine_3 =>
    rw [← admitted]
    simp [d, ticketed, portOf]
  all_goals cases w <;> simp [d, ticketed, admittedBy, onPort]

/-- A frame whose code its class gives at once has its ticket and is done (R44, R60, R96). -/
theorem enterPort_done {ts tick : Nat} {code : Code} {c : Cls} {s : State} (hc : classify port (pairOf (port / 2) s).mode f s = c)
    (hmay : ingressMayTake (inTurn turnTicket 0 port s) = true)
    (hcells : (16 + c.view.len + 63) / 64 ≤ freeDelivery (inTurn turnTicket 0 port s))
    (hcode : c.fclass = .bypass ∧ code = .unprotected ∨ c.fclass ≠ .bypass ∧ c.parseOk = false ∧ code = .malformed) :
    ∃ x, enterPort port ts tick f s = ticketed c.wrongLan port x (admittedBy port f s) ∧ x.ticket = s.fp.nextTicket ∧ x.port = port ∧
      x.frame = c.view ∧ x.stage = .done ∧ x.code = some code ∧ x.ts = ts ∧
      x.lastBit = (inTurn turnTicket 0 port s).clk.now ∧ x.rclass = c.rclass := by
  obtain ⟨hmayA, hfreeA⟩ := mayTake_admittedBy (port := port) f s
  have classified : classify port (pairOf (port / 2) (admittedBy port f s)).mode f (admittedBy port f s) = c := by
    rw [pairOf_admittedBy, classify_admittedBy, hc]
  have room : (!ingressMayTake (admittedBy port f s) ||
      decide (freeDelivery (admittedBy port f s) < (16 + c.view.len + 63) / 64)) = false := by
    rw [hmayA, hfreeA, hmay]
    simpa using hcells
  have atOnce : (if c.fclass = .bypass then some Code.unprotected else if !c.parseOk then some .malformed else none) = some code := by
    rcases hcode with ⟨hb, rfl⟩ | ⟨hb, hp, rfl⟩
    · exact if_pos hb
    · rw [if_neg hb]
      exact if_pos (by simpa using hp)
  have ticket : (if c.wrongLan then onPort port (fun p => { p with wrongLan := wrap1 p.wrongLan }) (admittedBy port f s)
      else admittedBy port f s).fp.nextTicket = s.fp.nextTicket := by
    cases c.wrongLan <;> simp [admittedBy, onPort]
  have lastBit : (if c.wrongLan then onPort port (fun p => { p with wrongLan := wrap1 p.wrongLan }) (admittedBy port f s)
      else admittedBy port f s).clk.now = (inTurn turnTicket 0 port s).clk.now := by
    cases c.wrongLan <;> simp [admittedBy, onPort]
  refine ⟨?x, ?entered, ?ticket, ?port, ?frame, ?stage, ?code, ?ts, ?lastBit, ?rclass⟩
  case entered =>
    unfold enterPort
    simp only [show onPort port (fun p => { p with admitted := wrap1 p.admitted })
      (cdcPass (cdcFromLine + port) ((f.len + 7) / 8) (inTurn turnTicket 0 port s)) = admittedBy port f s from rfl, classified]
    rw [if_neg (by rw [room]; exact Bool.false_ne_true)]
    simp only [atOnce, Option.isSome_some, if_true]
    rfl
  case ticket => exact ticket
  case lastBit => exact lastBit
  all_goals rfl

end arrival

/-- Settles O38: the counter of a MAC error by R43's order, then the port's door, open or shut. -/
theorem frameArrival : Obligations.FrameArrival := by
  unfold Obligations.FrameArrival
  intro dt sof port f s
  generalize ha : pass dt s = a
  intro _ b p c hup hdp hpwr hmode
  have counted {q : Port} (herr : macError f p = some q) := frameReceive_of_macError (sof := sof) ha hup hdp hpwr herr
  refine ⟨fun hcoding => ?_, fun hcoding hrunt => ?_, fun hcoding hlong => ?_, fun hcoding hmin hmax hfcs => ?_,
    fun hcoding hmin hmax hfcs => ⟨fun hmay hcells code hcode => ?_, fun hno => ?_⟩⟩
  · exact counted (by simp [macError, hcoding, wrap1])
  · exact counted (by simp [macError, hcoding, hrunt, wrap1])
  · exact counted (by simp [macError, hcoding, hlong, wrap1, show ¬ f.len < 64 by omega])
  · exact counted (by simp [macError, hcoding, hfcs, wrap1, show ¬ f.len < 64 by omega, show ¬ 2000 < f.len by omega])
  all_goals
    have sound : macError f p = none := by
      simp [macError, hcoding, hfcs, show ¬ f.len < 64 by omega, show ¬ 2000 < f.len by omega]
    have enters := frameReceive_of_sound (sof := sof) ha hup hdp hpwr sound hmode
  · obtain ⟨x, hd, hticket, hport, hframe, hstage, hxcode, hts, hlast, hrclass⟩ := enterPort_done rfl hmay hcells hcode
    obtain ⟨hing, hnext, hadmitted, hse, hnv, hev⟩ := ticketed_admittedBy c.wrongLan port x f a
    rw [hd] at enters
    exact ⟨_, x, enters, hing, hticket, hnext, hport, hframe, hstage, hxcode, hts, hlast, hrclass, hadmitted, hse, hnv, hev⟩
  · obtain ⟨hing, hpend, hse, hcounters⟩ := starve_admittedBy port f a
    rw [enterPort_starved a hno] at enters
    exact ⟨_, enters, hing, hpend, hcounters, hse⟩

end Sys2Proof.Claim
end

section
/-! Stream entries and key references as the frame path uses them: what a data-path change of an entry and the end of a
reference leave (R113, R132, R133). -/
namespace Sys2Proof.Claim
open Sys2Proof.Machine

/-- A data-path change of an entry reaches the cache or the table, and nothing else. -/
theorem dataEntry_parts (i : Nat) (f : Entry → Entry) (s : State) :
    ∃ c t, dataEntry i f s = onSe (fun e => { e with cache := c, table := t }) s := by
  unfold dataEntry
  split
  · exact ⟨_, _, rfl⟩
  · exact ⟨_, _, rfl⟩

section entry
variable (i : Nat) (f : Entry → Entry) (s : State)
theorem dataEntry_apart {α : Type} (g : State → α) (h : ∀ (k : Se → Se) (t : State), g (onSe k t) = g t) :
    g (dataEntry i f s) = g s := by
  obtain ⟨c, t, hparts⟩ := dataEntry_parts i f s
  rw [hparts, h]
@[simp] theorem dataEntry_fp : (dataEntry i f s).fp = s.fp := dataEntry_apart i f s _ (fun _ _ => rfl)
@[simp] theorem dataEntry_clk : (dataEntry i f s).clk = s.clk := dataEntry_apart i f s _ (fun _ _ => rfl)
@[simp] theorem dataEntry_ev : (dataEntry i f s).ev = s.ev := dataEntry_apart i f s _ (fun _ _ => rfl)
@[simp] theorem dataEntry_nv : (dataEntry i f s).nv = s.nv := dataEntry_apart i f s _ (fun _ _ => rfl)
@[simp] theorem dataEntry_out : (dataEntry i f s).out = s.out := dataEntry_apart i f s _ (fun _ _ => rfl)
@[simp] theorem dataEntry_plat : (dataEntry i f s).plat = s.plat := dataEntry_apart i f s _ (fun _ _ => rfl)
@[simp] theorem dataEntry_pu : (dataEntry i f s).pu = s.pu := dataEntry_apart i f s _ (fun _ _ => rfl)
@[simp] theorem dataEntry_kslot (j : Nat) : kslot j (dataEntry i f s) = kslot j s := by
  obtain ⟨c, t, hparts⟩ := dataEntry_parts i f s
  rw [hparts]
  rfl
end entry

/-! ## References (R132, R133) -/

/-- A drained slot's notice goes over the riser and is noted, and nothing else. -/
theorem drainNotice_parts (i : Nat) (s : State) :
    ∃ p r d, r.st = s.ri.st ∧ drainNotice i s = { s with pu := p, ri := r, cdc := d } := by
  unfold drainNotice
  simp only
  split
  · obtain ⟨r, d, hr, h⟩ := sendRiser_parts true .key .keyReleases (natLE 2 i) (onPu (fun p => { p with drained := p.drained ++ [i] }) s)
    exact ⟨_, r, d, hr, h⟩
  · exact ⟨_, _, _, rfl, rfl⟩

section notice
variable (i : Nat) (s : State)
@[simp] theorem drainNotice_se : (drainNotice i s).se = s.se := by obtain ⟨_, _, _, _, h⟩ := drainNotice_parts i s; rw [h]
@[simp] theorem refDown_fp : (refDown i s).fp = s.fp := by
  obtain ⟨_, _, _, _, h⟩ := drainNotice_parts i (onKslot i (fun k => { k with ref := k.ref - 1 }) s)
  unfold refDown; rw [h]; rfl
@[simp] theorem refDown_ev : (refDown i s).ev = s.ev := by
  obtain ⟨_, _, _, _, h⟩ := drainNotice_parts i (onKslot i (fun k => { k with ref := k.ref - 1 }) s)
  unfold refDown; rw [h]; rfl
@[simp] theorem refDown_out : (refDown i s).out = s.out := by
  obtain ⟨_, _, _, _, h⟩ := drainNotice_parts i (onKslot i (fun k => { k with ref := k.ref - 1 }) s)
  unfold refDown; rw [h]; rfl
@[simp] theorem refDown_plat : (refDown i s).plat = s.plat := by
  obtain ⟨_, _, _, _, h⟩ := drainNotice_parts i (onKslot i (fun k => { k with ref := k.ref - 1 }) s)
  unfold refDown; rw [h]; rfl
@[simp] theorem kslot_refDown : kslot i (refDown i s) = { kslot i s with ref := (kslot i s).ref - 1 } := by
  simp [refDown, kslot, onKslot]
end notice

end Sys2Proof.Claim
end

section
/-! The verdict of a frame (R54, R55, R73 to R83, R155), and O40. -/
namespace Sys2Proof.Claim
open Sys2Proof.Machine

/-! ## The stages of a verdict -/

/-- The entry counts the verdict. -/
def judged (x : Ing) (s : State) : State :=
  match x.entry with
  | some i => dataEntry i (fun e => if finalCode x = .authOk then { e with good := wrap1 e.good } else { e with bad := min 65535 (e.bad + 1) }) s
  | none => s

/-- The frame's reference to its key ends. -/
def unreferred (x : Ing) (s : State) : State :=
  match x.slot with
  | some i => refDown i s
  | none => s

/-- The queue counts a late verdict, with the event. -/
def lateCounted (late : Bool) (q : Nat) (s : State) : State :=
  if late then raise 64 [] (onRxq q (fun x => { x with late := wrap1 x.late }) s) else s

/-- The queue counts the words corrected in the frame. -/
def corrCounted (x : Ing) (q : Nat) (s : State) : State :=
  if x.corrs = 0 then s else onRxq q (fun y => { y with corrected := (y.corrected + x.corrs) % 2 ^ 32 }) s

/-- The books of a verdict for a queue. -/
def booked (x : Ing) (late : Bool) (q : Nat) (s : State) : State :=
  corrCounted x q (lateCounted late q (unreferred x (judged x s)))

/-- The verdict of a frame that committed no samples, for a queue in its format. -/
def plainVerdict (x : Ing) (o : RxQ) : Verdict := {
  ver := o.vfmt, code := finalCode x, flags := x.flags, corr := o.vfmt = 2 && x.corrs ≠ 0, cinc := false
  memerr := o.vfmt = 2 && x.memErr, len := x.flen, ts := x.ts, stream := x.entry.getD 0xFFFFFF, port := x.port
  rclass := x.rclass, fclass := fclassNo x.fclass, vtag := x.vtag
  epoch := if x.slot.isSome then x.slotEpoch % 65536 else 0 }

/-- The frame leaves the frames in flight. -/
def landed (x : Ing) (s : State) : State := onFp (fun f => { f with ing := f.ing.filter (fun y => y.ticket ≠ x.ticket) }) s

/-- The frame has landed, and the queue drops its record or takes it. -/
def filed (x : Ing) (q : Nat) (o : RxQ) (at_ : Nat) (s : State) : State :=
  let s := landed x s
  if o.size = 0 then onRxq q (fun x => { x with overflow := wrap1 x.overflow }) s
  else match dropBy o.drop (finalCode x) x.flags with
    | some (true, i) => onRxq q (fun x => { x with dropCode := smMod 0 x.dropCode i wrap1 }) s
    | some (false, i) => onRxq q (fun x => { x with dropFlag := smMod 0 x.dropFlag i wrap1 }) s
    | none => enqueueRec q {
        verdict := plainVerdict x o, frame := finalFrame x, flen := x.flen, port := x.port, rel := x.lastBit, at_ := at_
        ticket := some x.ticket, cells := x.cells } s

/-- A frame that committed no samples is CONSISTENT and takes no mark (R206). -/
theorem frameAnswer_of_uncommitted {x : Ing} (h : x.committed = false) (s : State) : frameAnswer x s = (.consistent, s) := by
  unfold frameAnswer
  split
  · rfl
  · simp [h]

theorem steer_congr {s t : State} (hfp : t.fp.ports = s.fp.ports) (x : Ing) (c : Code) : steer x c t = steer x c s := by
  unfold steer portOf
  rw [hfp]

/-- A frame of a stream goes to its entry's queue (R54). -/
theorem steer_of_bank {x : Ing} {b : Bank} (h : x.bank = some b) (c : Code) (s : State) : steer x c s = b.rxq := by
  simp only [steer, h]

/-- One without goes by its port's default map (R54). -/
theorem steer_of_noBank {x : Ing} (h : x.bank = none) (c : Code) (s : State) : steer x c s =
    if c = .unknownStream then (portOf x.port s).mapUnknown else if c = .malformed then (portOf x.port s).mapMalformed
    else (portOf x.port s).mapUnprot := by
  cases c <;> simp [steer, h]

@[simp] theorem judged_fp (x : Ing) (s : State) : (judged x s).fp = s.fp := by unfold judged; split <;> simp

/-- The verdict of a frame that committed no samples: its books, then its record. -/
theorem writeVerdict_of_uncommitted {x : Ing} (h : x.committed = false) (late : Bool) (at_ : Nat) {q : Nat} {s : State}
    (hq : steer x (finalCode x) s = q) : let b := booked x late q s
    writeVerdict x late at_ s = returning (filed x q (rxqOf q b) at_) b := by
  have stages : writeVerdict x late at_ s = (let q := steer x (finalCode x) (judged x s)
      let b := booked x late q s
      returning (filed x q (rxqOf q b) at_) b) := by
    unfold writeVerdict
    simp only [frameAnswer_of_uncommitted h, reduceCtorEq, if_false, decide_false, Bool.and_false]
    rfl
  have steered : steer x (finalCode x) (judged x s) = q := (steer_congr (by simp) x _).trans hq
  rw [stages, steered]

/-! ## What the books hold -/

section books
variable (x : Ing) (late : Bool) (q : Nat) (s : State)

@[simp] theorem unreferred_fp : (unreferred x s).fp = s.fp := by unfold unreferred; split <;> simp

@[simp] theorem booked_ing : (booked x late q s).fp.ing = s.fp.ing := by
  unfold booked corrCounted lateCounted
  split <;> split <;> simp [onRxq]

@[simp] theorem rxqOf_raise (n : Nat) (d : List Nat) : rxqOf q (raise n d s) = rxqOf q s := by simp [rxqOf]

/-- The books touch the queue's counts of late verdicts and of corrected words. -/
theorem rxqOf_booked : rxqOf q (booked x late q s) = { rxqOf q s with
    late := if late then wrap1 (rxqOf q s).late else (rxqOf q s).late
    corrected := if x.corrs = 0 then (rxqOf q s).corrected else ((rxqOf q s).corrected + x.corrs) % 2 ^ 32 } := by
  have before : rxqOf q (unreferred x (judged x s)) = rxqOf q s := by simp [rxqOf]
  have lateQ : rxqOf q (lateCounted late q (unreferred x (judged x s))) =
      { rxqOf q s with late := if late then wrap1 (rxqOf q s).late else (rxqOf q s).late } := by
    rw [← before]
    cases late
    · rfl
    · simp only [lateCounted, if_true, rxqOf_raise, rxqOf_onRxq_same]
  unfold booked corrCounted
  split
  · rw [lateQ]
  · rw [rxqOf_onRxq_same, lateQ]

/-- The key slot the frame refers to counts one reference less. -/
theorem kslot_booked {i : Nat} (h : x.slot = some i) : (kslot i (booked x late q s)).ref = (kslot i s).ref - 1 := by
  have released : kslot i (unreferred x (judged x s)) = { kslot i s with ref := (kslot i s).ref - 1 } := by
    have same : kslot i (judged x s) = kslot i s := by unfold judged; split <;> simp
    simp only [unreferred, h, kslot_refDown, same]
  have after : (booked x late q s).se = (unreferred x (judged x s)).se := by
    unfold booked corrCounted lateCounted
    split <;> split <;> simp [onRxq]
  rw [show kslot i (booked x late q s) = kslot i (unreferred x (judged x s)) by simp only [kslot, after], released]

/-- A late verdict's event is pending. -/
theorem booked_pend : (booked x true q s).ev.pend.getLsbD 64 = true := by
  have raised : (lateCounted true q (unreferred x (judged x s))).ev.pend.getLsbD 64 = true := by
    rw [lateCounted, if_pos rfl]
    exact raise_pend _ _ (by decide) (by decide)
  unfold booked corrCounted
  split
  · exact raised
  · exact raised

end books

/-! ## What filing the record leaves -/

/-- Filing a record leaves the other frames in flight, the streams, the pending events and the queue's two counts. -/
structure Filed (q : Nat) (s t : State) : Prop where
  ing : t.fp.ing = s.fp.ing
  se : t.se = s.se
  pend : ∀ n, s.ev.pend.getLsbD n = true → t.ev.pend.getLsbD n = true
  late : (rxqOf q t).late = (rxqOf q s).late
  corrected : (rxqOf q t).corrected = (rxqOf q s).corrected

theorem filed_onRxq (q : Nat) (f : RxQ → RxQ) (s : State) (hl : (f (rxqOf q s)).late = (rxqOf q s).late)
    (hc : (f (rxqOf q s)).corrected = (rxqOf q s).corrected) : Filed q s (onRxq q f s) :=
  ⟨rfl, rfl, fun _ h => h, by rw [rxqOf_onRxq_same, hl], by rw [rxqOf_onRxq_same, hc]⟩

theorem Filed.trans {q : Nat} {s t u : State} (h : Filed q s t) (k : Filed q t u) : Filed q s u :=
  ⟨k.ing.trans h.ing, k.se.trans h.se, fun n hn => k.pend n (h.pend n hn), k.late.trans h.late, k.corrected.trans h.corrected⟩

theorem Spilt.filed {s t : State} (h : Spilt s t) (q : Nat) : Filed q s t := by
  obtain ⟨_, _, _, _, hq⟩ := h.queues q
  exact ⟨h.fp Fp.ing (fun _ _ _ _ _ _ _ => rfl), h.apart State.se (fun _ _ => rfl),
    fun n hn => by rw [h.apart State.ev (fun _ _ => rfl)]; exact hn, by rw [hq], by rw [hq]⟩

theorem filed_raise (q n : Nat) (d : List Nat) (s : State) : Filed q s (raise n d s) :=
  ⟨by simp, by simp, (heard_raise n d s).pend, by simp [rxqOf], by simp [rxqOf]⟩

theorem filed_enqueueRec (q : Nat) (r : Rec) (s : State) : Filed q s (enqueueRec q r s) := by
  unfold enqueueRec
  simp only
  split
  · split
    · split
      · exact filed_onRxq q _ s rfl rfl
      · exact (filed_onRxq q _ s rfl rfl).trans (filed_raise q 65 [] _)
    · exact filed_onRxq q _ s rfl rfl
  · exact (filed_onRxq q _ s rfl rfl).trans ((lowCells_spilt _).filed q)

/-- The frame itself is no longer in flight; for the rest the record is filed. -/
theorem filed_of_filed (x : Ing) (q : Nat) (o : RxQ) (at_ : Nat) (s : State) :
    Filed q (landed x s) (filed x q o at_ s) := by
  unfold filed
  simp only
  split
  · exact filed_onRxq q _ _ rfl rfl
  · split
    · exact filed_onRxq q _ _ rfl rfl
    · exact filed_onRxq q _ _ rfl rfl
    · exact filed_enqueueRec q _ _

/-! ## Dropping -/

theorem dropBy_of_code {mask : Nat} {c : Code} (h : mask.testBit (codeNo c) = true) (fl : BitVec 5) :
    dropBy mask c fl = some (true, codeNo c) := if_pos h

/-- A mask without one of its 16 bits drops nothing. -/
theorem dropBy_of_open {mask : Nat} (h : ∀ i, i < 16 → mask.testBit i = false) (c : Code) (fl : BitVec 5) :
    dropBy mask c fl = none := by
  have code : bitN mask (codeNo c) = false := h _ (by cases c <;> decide)
  have flags : (List.range 5).find? (fun i => fl.getLsbD i && bitN mask (8 + i)) = none := by
    rw [List.find?_eq_none]
    intro i hi
    have bit : bitN mask (8 + i) = false := h _ (by have := List.mem_range.mp hi; omega)
    simp [bit]
  simp [dropBy, code, flags]

/-- A record dropped by its code is counted, and none enters the queue (R82). -/
theorem filed_of_dropped {x : Ing} {q : Nat} {o : RxQ} (at_ : Nat) {s : State} (hsize : o.size ≠ 0)
    (h : o.drop.testBit (codeNo (finalCode x)) = true) :
    rxqOf q (filed x q o at_ s) = { rxqOf q s with dropCode := smMod 0 (rxqOf q s).dropCode (codeNo (finalCode x)) wrap1 } := by
  unfold filed
  simp only [hsize, if_false, dropBy_of_code h]
  exact rxqOf_onRxq_same q _ _

/-- A queue that does not spill has the record, be it that low cells make it spill now. -/
theorem enqueueRec_of_notSpilling {q : Nat} {s : State} (h : (rxqOf q s).spilling = false) (r : Rec) :
    ∃ y ∈ (rxqOf q (enqueueRec q r s)).recs ++ (rxqOf q (enqueueRec q r s)).staged, unheld y = unheld r := by
  have enters : enqueueRec q r s = lowCells (onRxq q (fun x => { x with recs := insertBy recBefore r x.recs }) s) := by
    simp only [enqueueRec, h, Bool.false_eq_true, if_false]
  rw [enters]
  refine (lowCells_spilt _).records q r (List.mem_append_left _ ?_)
  rw [rxqOf_onRxq_same]
  exact (mem_insertBy recBefore _ _ _).mpr (.inl rfl)

/-- A record that nothing drops lies in its queue, or, when cells are short, in its share of staging (R57, R69). -/
theorem filed_of_open {x : Ing} {q : Nat} {o : RxQ} (at_ : Nat) {s : State} (hsize : o.size ≠ 0)
    (h : ∀ i, i < 16 → o.drop.testBit i = false) (hspill : (rxqOf q s).spilling = false) :
    ∃ r ∈ (rxqOf q (filed x q o at_ s)).recs ++ (rxqOf q (filed x q o at_ s)).staged,
      r.verdict = plainVerdict x o ∧ r.frame = finalFrame x ∧ r.flen = x.flen ∧ r.port = x.port.val ∧ r.rel = x.lastBit ∧ r.at_ = at_ := by
  unfold filed
  simp only [hsize, if_false, dropBy_of_open h]
  obtain ⟨r, hr, hsame⟩ := enqueueRec_of_notSpilling (s := landed x s) hspill _
  have fields {α : Type} (g : Rec → α) := congrArg g hsame
  exact ⟨r, hr, fields Rec.verdict, fields Rec.frame, fields Rec.flen, fields Rec.port, fields Rec.rel, fields Rec.at_⟩

/-! ## What of the frame is shown (R155) -/

/-- Of PROF 3 nothing encrypted is shown but under AUTH_OK. -/
def Hidden (x : Ing) : Prop := (∃ b, x.bank = some b ∧ b.prof = 3) ∧ finalCode x ≠ .authOk

theorem finalFrame_of_shown {x : Ing} (h : ¬ Hidden x) : finalFrame x = x.frame := by
  unfold finalFrame
  cases hb : x.bank with
  | none => rfl
  | some b =>
    refine if_neg fun shut => h ?_
    obtain ⟨hprof, hcode⟩ := Bool.and_eq_true_iff.mp shut
    exact ⟨⟨b, hb, by simpa using hprof⟩, by simpa using hcode⟩

theorem finalFrame_of_hidden {x : Ing} (h : Hidden x) : finalFrame x = withSegs x.frame zeroSecret := by
  obtain ⟨⟨b, hb, hprof⟩, hcode⟩ := h
  simp [finalFrame, hb, hprof, hcode]

/-- Every byte of an encrypted segment shown in its place is zero. -/
theorem zero_of_hidden {f : Frame} {p : Apdu} (h : (withSegs f zeroSecret).apdu = some p) {g : Seg} (hg : g ∈ p.segs)
    (hsecret : g.secret = true) : ∀ z ∈ g.bytes, z = 0 := by
  obtain ⟨a, -, rfl⟩ := Option.map_eq_some_iff.mp h
  obtain ⟨y, -, rfl⟩ := List.mem_map.mp hg
  split at hsecret
  next secret => simp [secret]
  next plain => exact absurd hsecret plain

/-! ## The rows -/

/-- A verdict that is due is written at once, late or in time. -/
theorem verdictRow_of_due {dt ticket : Nat} {late : Bool} {s a : State} {x : Ing} (ha : pass dt s = a)
    (hx : ingOf ticket a = some x) (hdone : x.stage = .done)
    (hdue : if late then x.lastBit + 284 < x.doneAt else x.lastBit + 276 ≤ a.clk.now ∧ x.doneAt ≤ x.lastBit + 284) :
    exec (if late then .lateVerdict dt ticket else .verdictRelease dt ticket) s = .next (writeVerdict x late a.clk.now a) := by
  cases late with
  | true =>
    have hexec : exec (.lateVerdict dt ticket) s = execLateVerdict dt ticket s := rfl
    have tooLate : onTime x = false := decide_eq_false (Nat.not_le.mpr (by simpa [relLast] using hdue))
    simp only [if_true, hexec, execLateVerdict, done, ha, hx, hdone, tooLate, decide_true, Bool.not_false, Bool.and_self]
  | false =>
    have hexec : exec (.verdictRelease dt ticket) s = execVerdictRelease dt ticket s := rfl
    obtain ⟨hrel, htime⟩ : x.lastBit + 276 ≤ a.clk.now ∧ x.doneAt ≤ x.lastBit + 284 := by simpa using hdue
    have inTime : onTime x = true := decide_eq_true htime
    simp only [Bool.false_eq_true, if_false, hexec, execVerdictRelease, done, ha, hx, hdone, inTime, relFirst, hrel, decide_true,
      Bool.and_self, if_true]

theorem ticket_of_ingOf {t : Nat} {s : State} {x : Ing} (h : ingOf t s = some x) : x.ticket = t := by
  simpa using List.find?_some h

/-- Settles O40: the books of the verdict, then its record dropped by its code or filed. -/
theorem verdictRelease : Obligations.VerdictRelease := by
  unfold Obligations.VerdictRelease
  intro dt ticket late s x
  generalize ha : pass dt s = a
  intro _ row hx hdone hplain c0 hc0 hdue code q o hidden
  have hcode : finalCode x = code := by simp [finalCode, hc0, code]
  have hq : steer x (finalCode x) a = q := by
    simp only [q]
    rw [hcode]
    split
    next b hb => exact steer_of_bank hb code a
    next hb => exact steer_of_noBank hb code a
  have written := writeVerdict_of_uncommitted hplain late a.clk.now hq
  have gone := filed_of_filed x q (rxqOf q (booked x late q a)) a.clk.now (booked x late q a)
  have hbook := rxqOf_booked x late q a
  have fileQ := returning_rxqOf (filed x q (rxqOf q (booked x late q a)) a.clk.now) (booked x late q a) q
  refine ⟨_, verdictRow_of_due ha hx hdone hdue, ?_⟩
  rw [written]
  refine ⟨?inFlight, ?event, ?late, ?corrected, ?reference, ?dropped, ?kept⟩
  case inFlight =>
    rw [returning_ingOf, ingOf, gone.ing, ← ticket_of_ingOf hx, List.find?_eq_none]
    simp [landed]
  case event =>
    rintro rfl
    rw [returning_ev]
    exact gone.pend 64 (booked_pend x q a)
  case late =>
    rw [fileQ, gone.late]
    exact congrArg RxQ.late hbook
  case corrected =>
    rw [fileQ, gone.corrected]
    exact congrArg RxQ.corrected hbook
  case reference =>
    intro i hi
    rw [kslot, returning_se, gone.se]
    exact kslot_booked x late q a hi
  case dropped =>
    intro hsize hdrop
    rw [← hcode] at hdrop ⊢
    rw [fileQ, filed_of_dropped a.clk.now (by rw [hbook]; exact hsize) (by rw [hbook]; exact hdrop), hbook]
    exact ⟨smGet_smMod_same 0 _ _ _, rfl⟩
  case kept =>
    intro hsize hopen hspill
    obtain ⟨r, hr, hverdict, hframe, hflen, hport, hrel, hat⟩ := filed_of_open (x := x) (o := rxqOf q (booked x late q a)) a.clk.now
      (by rw [hbook]; exact hsize) (by rw [hbook]; exact hopen) (by rw [hbook]; exact hspill)
    have hhidden : hidden ↔ Hidden x := by rw [Hidden, hcode]
    rw [fileQ]
    refine ⟨r, hr, ?shown, ?zeros, hflen, hrel, hat, hport, ?word⟩
    case shown => exact fun h => hframe.trans (finalFrame_of_shown (fun k => h (hhidden.mpr k)))
    case zeros =>
      intro h p hp g hg
      rw [hframe, finalFrame_of_hidden (hhidden.mp h)] at hp
      exact zero_of_hidden hp hg
    case word =>
      rw [hverdict, hbook, plainVerdict, hcode]
      simp only [Bool.decide_and]
      rfl

end Sys2Proof.Claim
end

section
/-! Delivery of records, spill and staging (R56, R57, R67 to R71, R96, R237 to R239), and O41. -/
namespace Sys2Proof.Claim
open Sys2Proof.Machine

/-! ## One record moves -/

/-- The record `r` has gone to queue `q`, whose pointers stood as in `x`, behind the outputs `out`: the record and its verdict
word, where an error struck it the rewritten word, then its completion; the ring has moved on by one. -/
def Delivered (x : RxQ) (q : Nat) (r : Rec) (w : Option Verdict) (out : List Out) (t : State) : Prop :=
  (∃ desc fin o, t.out = out ++ o ∧
    .record ((x.bufs.headD (0, 0)).1 + x.bufUsed) q desc (x.bufUsed / 16) r.flen x.phase fin r.verdict r.frame ∈ o ∧
    .dma ((x.bufs.headD (0, 0)).1 + x.bufUsed) (verdictBytes r.verdict) ∈ o ∧
    (∀ e, w = some e → .rewrite q e ∈ o ∧ .dma ((x.bufs.headD (0, 0)).1 + x.bufUsed) (verdictBytes e) ∈ o) ∧
    .dma (x.cbase + 8 * x.ctail) (rxCompletionBytes desc (x.bufUsed / 16) r.flen x.phase fin) ∈ o) ∧
  (rxqOf q t).ctail = (x.ctail + 1) % x.csize ∧ (rxqOf q t).delivered = wrap1 x.delivered

/-- What follows a delivery adds outputs and leaves the queue's ring. -/
theorem Delivered.mono {x : RxQ} {q : Nat} {r : Rec} {w : Option Verdict} {out : List Out} {t u : State}
    (h : Delivered x q r w out t) (hout : ∃ o, u.out = t.out ++ o) (hctail : (rxqOf q u).ctail = (rxqOf q t).ctail)
    (hdelivered : (rxqOf q u).delivered = (rxqOf q t).delivered) : Delivered x q r w out u := by
  obtain ⟨⟨desc, fin, o, ho, hrec, hword, hrewrite, hcompletion⟩, htail, hcount⟩ := h
  obtain ⟨o2, ho2⟩ := hout
  have keeps {e : Out} (he : e ∈ o) : e ∈ o ++ o2 := List.mem_append_left _ he
  refine ⟨⟨desc, fin, o ++ o2, by rw [ho2, ho, List.append_assoc], keeps hrec, keeps hword, fun e he => ?_, keeps hcompletion⟩,
    hctail.trans htail, hdelivered.trans hcount⟩
  obtain ⟨h1, h2⟩ := hrewrite e he
  exact ⟨keeps h1, keeps h2⟩

section move
variable (q : Nat) (r : Rec) (w : Option Verdict) (x : RxQ) (s : State)

/-- The descriptor of the buffer a record goes to. -/
def recDesc : Nat := if x.bufUsed = 0 then x.dhead else (x.dhead + x.size - 1) % x.size

/-- The record closes its buffer. -/
def closesBuf : Bool := decide ((x.bufs.headD (0, 0)).2 < x.bufUsed + recSize r.flen + 2016)

/-- What a record's move writes to the host, in its order (R56, R68, R239). -/
def written : State :=
  let addr := (x.bufs.headD (0, 0)).1 + x.bufUsed
  let s := emit (.dma addr (verdictBytes r.verdict))
    (emit (.record addr q (recDesc x) (x.bufUsed / 16) r.flen x.phase (closesBuf r x) r.verdict r.frame) s)
  let s := match w with
    | some v => emit (.dma addr (verdictBytes v)) (emit (.rewrite q v) s)
    | none => s
  emit (.dma (x.cbase + 8 * x.ctail) (rxCompletionBytes (recDesc x) (x.bufUsed / 16) r.flen x.phase (closesBuf r x))) s

/-- The ring behind a record. -/
def ringMoved (y : RxQ) : RxQ :=
  let next := (x.ctail + 1) % x.csize
  { y with
    dhead := if x.bufUsed = 0 then (y.dhead + 1) % y.size else y.dhead
    bufs := if closesBuf r x then y.bufs.drop 1 else y.bufs
    bufUsed := if closesBuf r x then 0 else x.bufUsed + recSize r.flen
    ctail := next
    phase := if next = 0 then !y.phase else y.phase
    delivered := wrap1 y.delivered }

/-- The queue's interrupt after a completion. -/
def interrupted (x : RxQ) (s : State) : State := if x.intMask then s else msix x.vector s

/-- A move is its writes, the ring moved on with the round robin, and the queue's interrupt. -/
theorem moveRec_eq : moveRec q r w s =
    let x := rxqOf q s
    interrupted x (onFp (fun f => { f with rrQueue := q + 1 })
      (onRxq q (ringMoved r x) (cdcPass cdcToPcie (recSize r.flen / 16 + 1) (written q r w x s)))) := rfl

theorem heard_interrupted : Heard s (interrupted x s) := by
  unfold interrupted
  split
  · exact .refl s
  · exact heard_msix _ s

@[simp] theorem interrupted_nv : (interrupted x s).nv = s.nv := by
  unfold interrupted msix
  split
  · rfl
  · split
    · rfl
    · split <;> rfl

@[simp] theorem written_fp : (written q r w x s).fp = s.fp := by cases w <;> simp [written]
@[simp] theorem written_nv : (written q r w x s).nv = s.nv := by cases w <;> simp [written]

/-- The queue behind a move. -/
theorem rxqOf_moveRec : rxqOf q (moveRec q r w s) = ringMoved r (rxqOf q s) (rxqOf q s) := by
  have before : rxqOf q (cdcPass cdcToPcie (recSize r.flen / 16 + 1) (written q r w (rxqOf q s) s)) = rxqOf q s := by simp [rxqOf]
  rw [moveRec_eq, rxqOf, (heard_interrupted _ _).told.fp]
  exact (rxqOf_onRxq_same q _ _).trans (congrArg _ before)

/-- A move of a record delivers it. -/
theorem moveRec_delivered : Delivered (rxqOf q s) q r w s.out (moveRec q r w s) := by
  refine ⟨?sent, congrArg RxQ.ctail (rxqOf_moveRec q r w s), congrArg RxQ.delivered (rxqOf_moveRec q r w s)⟩
  obtain ⟨o, ho⟩ := (heard_interrupted (rxqOf q s) (onFp (fun f => { f with rrQueue := q + 1 })
      (onRxq q (ringMoved r (rxqOf q s)) (cdcPass cdcToPcie (recSize r.flen / 16 + 1) (written q r w (rxqOf q s) s))))).out
  have sends : (written q r w (rxqOf q s) s).out = s.out ++ (written q r w (rxqOf q s) { s with out := [] }).out := by
    cases w <;> simp [written]
  refine ⟨recDesc (rxqOf q s), closesBuf r (rxqOf q s), (written q r w (rxqOf q s) { s with out := [] }).out ++ o, ?_, ?_, ?_, ?_, ?_⟩
  · rw [moveRec_eq, ho, ← List.append_assoc, ← sends]
    simp [onRxq]
  · cases w <;> simp [written]
  · cases w <;> simp [written]
  · rintro e rfl
    simp [written]
  · cases w <;> simp [written]

@[simp] theorem moveRec_nv : (moveRec q r w s).nv = s.nv := by simp [moveRec_eq, onRxq]

@[simp] theorem moveRec_wdDelivery : (moveRec q r w s).fp.wdDelivery = s.fp.wdDelivery := by
  rw [moveRec_eq, (heard_interrupted _ _).told.fp]
  simp [onRxq]

end move

/-! ## Whose turn it is -/

theorem readyHead_of_nextQueue {q : Nat} {s : State} (h : nextQueue s = some q) : readyHead q s = true := by
  have mem : q ∈ (s.fp.rxq.map (·.1)).filter (fun q => readyHead q s) := by
    rcases Option.or_eq_some_iff.mp h with found | ⟨-, first⟩
    · exact List.mem_of_find?_eq_some found
    · exact List.mem_of_mem_head? first
  exact (List.mem_filter.mp mem).2

/-- A record behind a frame that has no verdict yet, and may become one of any queue, is not moved (log 109). -/
theorem nextQueue_of_stalled {q : Nat} {r : Rec} {rest : List Rec} {s : State} (hrecs : (rxqOf q s).recs = r :: rest)
    (hstaged : (rxqOf q s).staged = [])
    (h : ∃ y ∈ s.fp.ing, y.lastBit < r.rel ∧ y.bank = none ∧ y.code = none ∧ y.memErr = false) : nextQueue s ≠ some q := by
  obtain ⟨y, hy, hbefore, hbank, hcode, hmem⟩ := h
  have waits : stalled q r s = true := by
    refine List.any_eq_true.mpr ⟨y, hy, ?_⟩
    simp [hbefore, mayJoin, hbank, hcode, hmem]
  intro hnext
  have ready := readyHead_of_nextQueue hnext
  simp [readyHead, headRec, hrecs, hstaged, waits] at ready

/-! ## The cistern's requests (R26) -/

section cistern
variable (c n : Nat) (s : State)
@[simp] theorem cisternServe_fp : (cisternServe c n s).fp = s.fp := by simp [cisternServe]
@[simp] theorem cisternServe_out : (cisternServe c n s).out = s.out := by simp [cisternServe]
@[simp] theorem cisternAsk_fp : (cisternAsk c s).fp = s.fp := rfl
@[simp] theorem cisternAsk_out : (cisternAsk c s).out = s.out := rfl
end cistern

/-! ## The rows of delivery -/

section delivery
variable {q : Fin 64} {r : Rec} {rest : List Rec} {s : State}

/-- The head record has left its queue, and its ticket and cells return. -/
def headTaken (q : Nat) (rest : List Rec) (s : State) : State := returning (onRxq q (fun x => { x with recs := rest })) s

@[simp] theorem rxqOf_headTaken (q : Nat) (rest : List Rec) (s : State) :
    rxqOf q (headTaken q rest s) = { rxqOf q s with recs := rest } := by simp [headTaken]
@[simp] theorem headTaken_out (q : Nat) (rest : List Rec) (s : State) : (headTaken q rest s).out = s.out := by
  simp [headTaken, onRxq]
@[simp] theorem headTaken_nv (q : Nat) (rest : List Rec) (s : State) : (headTaken q rest s).nv = s.nv := by
  simp [headTaken, onRxq]
@[simp] theorem headTaken_wdDelivery (q : Nat) (rest : List Rec) (s : State) :
    (headTaken q rest s).fp.wdDelivery = s.fp.wdDelivery := by simp [headTaken, onRxq]

/-- A record that a corrected word struck (R68). -/
def markedRec (r : Rec) : Rec := { r with verdict := { r.verdict with corr := r.verdict.ver = 2 } }

/-- A record that an uncorrectable word struck, as its frame is delivered (R68). -/
def struckRec (r : Rec) (s : State) : Rec := { r with frame := garble (draw 64 s).1 r.frame }

/-- What follows an uncorrectable error in delivery memory: a cell is withdrawn, with the event (R65, R68). -/
def cellWithdrawn (q : Nat) (s : State) : State :=
  lowCells (raise 66 [q] (onFp (fun f => { f with wdDelivery := min 32768 (f.wdDelivery + 1) }) s))

/-- RECORD_DELIVERY of the queue whose turn it is, by what ECC finds. -/
theorem recordDelivery_of_turn (hrecs : (rxqOf q s).recs = r :: rest) (hstaged : (rxqOf q s).staged = [])
    (hnext : nextQueue s = some q.val) :
    exec (.recordDelivery q .clean) s = .next (moveRec q r none (headTaken q rest s)) ∧
    exec (.recordDelivery q .corrected) s = .next (moveRec q (markedRec r) none
      (onRxq q (fun x => { x with corrected := wrap1 x.corrected }) (headTaken q rest s))) ∧
    exec (.recordDelivery q .uncorrectable) s = .next (cellWithdrawn q
      (moveRec q (struckRec r (headTaken q rest s)) (some (spoil r.verdict)) (draw 64 (headTaken q rest s)).2)) := by
  have hexec (e : MemErr) : exec (.recordDelivery q e) s = execRecordDelivery q e s := rfl
  simp only [hexec, execRecordDelivery, done, hrecs, hstaged, hnext, ne_eq, not_true_eq_false, decide_false, Bool.or_self,
    Bool.false_eq_true, if_false]
  exact ⟨rfl, rfl, rfl⟩

theorem recordDelivery_of_notTurn (hrecs : (rxqOf q s).recs = r :: rest) (hnext : nextQueue s ≠ some q.val) (e : MemErr) :
    exec (.recordDelivery q e) s = .next s := by
  have hexec : exec (.recordDelivery q e) s = execRecordDelivery q e s := rfl
  simp only [hexec, execRecordDelivery, done, hrecs, ne_eq, hnext, not_false_eq_true, decide_true, Bool.or_true, if_true]

/-- The oldest staged record has left its share of staging (R70, R71). -/
def drawTaken (q : Nat) (r : Rec) (rest : List Rec) (s : State) : State :=
  onRxq q (fun x => { x with
    staged := rest, stagedBytes := x.stagedBytes - recSize r.flen, spilling := decide (rest ≠ [])
    ovfRaised := x.ovfRaised && decide (rest ≠ []) }) (cisternServe reqDraw ((recSize r.flen + 31) / 32) s)

theorem rxqOf_drawTaken (q : Nat) (r : Rec) (rest : List Rec) (s : State) : rxqOf q (drawTaken q r rest s) =
    { rxqOf q s with
      staged := rest, stagedBytes := (rxqOf q s).stagedBytes - recSize r.flen, spilling := decide (rest ≠ [])
      ovfRaised := (rxqOf q s).ovfRaised && decide (rest ≠ []) } := by
  have atCistern : rxqOf q (cisternServe reqDraw ((recSize r.flen + 31) / 32) s) = rxqOf q s := by simp [rxqOf]
  rw [drawTaken, rxqOf_onRxq_same, atCistern]

theorem drawTaken_out (q : Nat) (r : Rec) (rest : List Rec) (s : State) : (drawTaken q r rest s).out = s.out := by
  simp [drawTaken, onRxq]

/-- STAGING_DRAW of the queue whose turn it is, with its block tag right. -/
theorem stagingDraw_of_turn (hstaged : (rxqOf q s).staged = r :: rest) (hnext : nextQueue s = some q.val) :
    exec (.stagingDraw q true) s = .next (moveRec q r none (drawTaken q r rest s)) := by
  have hexec : exec (.stagingDraw q true) s = execStagingDraw q true s := rfl
  simp only [hexec, execStagingDraw, done, hstaged, hnext, ne_eq, not_true_eq_false, if_false, if_true]
  rfl

/-- SPILL_START of a queue whose oldest record has waited 2 µs for space (R69). -/
theorem spillStart_of_full {dt : Nat} {a : State} (ha : pass dt s = a) (hrecs : (rxqOf q a).recs = r :: rest)
    (hwaited : r.at_ + 500 ≤ a.clk.now) (hfull : ringSpace (rxqOf q a) (recSize r.flen) = false) :
    exec (.spillStart dt q) s = .next (beginSpill q (cisternServe reqSpill 0 (cisternAsk reqSpill a))) := by
  have hexec : exec (.spillStart dt q) s = execSpillStart dt q s := rfl
  have waited : r.at_ + usTicks 2 ≤ a.clk.now := hwaited
  simp only [hexec, execSpillStart, done, ha, hrecs, waited, hfull, decide_true, Bool.not_false, Bool.and_self, if_true]

end delivery

/-! ## What ECC finds, as delivered -/

section found
variable (q : Fin 64) (r : Rec) (rest : List Rec) (s : State)

theorem delivered_clean : Delivered (rxqOf q s) q r none s.out (moveRec q r none (headTaken q rest s)) := by
  have moved := moveRec_delivered q r none (headTaken q rest s)
  rw [rxqOf_headTaken, headTaken_out] at moved
  exact moved

theorem delivered_corrected : Delivered (rxqOf q s) q (markedRec r) none s.out
    (moveRec q (markedRec r) none (onRxq q (fun x => { x with corrected := wrap1 x.corrected }) (headTaken q rest s))) := by
  have moved := moveRec_delivered q (markedRec r) none
    (onRxq q (fun x => { x with corrected := wrap1 x.corrected }) (headTaken q rest s))
  rw [rxqOf_onRxq_same, rxqOf_headTaken, onRxq, onFp_out, headTaken_out] at moved
  exact moved

/-- What follows an uncorrectable error adds outputs and leaves the ring. -/
theorem Delivered.cellWithdrawn {x : RxQ} {q : Nat} {r : Rec} {w : Option Verdict} {out : List Out} {t : State}
    (h : Delivered x q r w out t) : Delivered x q r w out (cellWithdrawn q t) := by
  let u := raise 66 [q] (onFp (fun f => { f with wdDelivery := min 32768 (f.wdDelivery + 1) }) t)
  have same : rxqOf q u = rxqOf q t := rxqOf_raise q _ 66 [q]
  obtain ⟨b, l, n, m, spilt⟩ := (lowCells_spilt u).queues q
  obtain ⟨o, ho⟩ := (heard_raise 66 [q] (onFp (fun f => { f with wdDelivery := min 32768 (f.wdDelivery + 1) }) t)).out
  rw [same] at spilt
  refine h.mono ⟨o, (lowCells_out u).trans ho⟩ ?_ ?_
  · exact (congrArg RxQ.ctail spilt :)
  · exact (congrArg RxQ.delivered spilt :)

theorem delivered_uncorrectable : Delivered (rxqOf q s) q (struckRec r (headTaken q rest s)) (some (spoil r.verdict)) s.out
    (cellWithdrawn q (moveRec q (struckRec r (headTaken q rest s)) (some (spoil r.verdict)) (draw 64 (headTaken q rest s)).2)) := by
  have moved := moveRec_delivered q (struckRec r (headTaken q rest s)) (some (spoil r.verdict)) (draw 64 (headTaken q rest s)).2
  rw [show rxqOf q (draw 64 (headTaken q rest s)).2 = rxqOf q (headTaken q rest s) from rfl,
    show (draw 64 (headTaken q rest s)).2.out = (headTaken q rest s).out from rfl, rxqOf_headTaken, headTaken_out] at moved
  exact Delivered.cellWithdrawn moved

end found

theorem cellWithdrawn_pend (q : Nat) (s : State) : (cellWithdrawn q s).ev.pend.getLsbD 66 = true := by
  rw [cellWithdrawn, lowCells_ev]
  exact raise_pend _ _ (by decide) (by decide)

theorem cellWithdrawn_wdDelivery (q : Nat) (s : State) :
    (cellWithdrawn q s).fp.wdDelivery = min 32768 (s.fp.wdDelivery + 1) := by
  simp [cellWithdrawn]

/-! ## The order of staging (R57) -/

theorem insertBy_of_last {α : Type} (le : α → α → Bool) (x : α) (l : List α) (h : ∀ y ∈ l, le y x = true) :
    insertBy le x l = l ++ [x] := by
  induction l with
  | nil => rfl
  | cons y l ih =>
    obtain ⟨hy, hl⟩ := List.forall_mem_cons.mp h
    simp only [insertBy, hy, if_true, ih hl, List.cons_append]

/-- Records in their order are staged in that order. -/
theorem foldl_insertBy_of_pairwise {α : Type} (le : α → α → Bool) (l m : List α)
    (h : (m ++ l).Pairwise (fun x y => le x y = true)) : l.foldl (fun m x => insertBy le x m) m = m ++ l := by
  induction l generalizing m with
  | nil => simp
  | cons x l ih =>
    have last : insertBy le x m = m ++ [x] :=
      insertBy_of_last le x m (fun y hy => (List.pairwise_append.mp h).2.2 y hy x List.mem_cons_self)
    rw [List.foldl_cons, last, ih (m ++ [x]) (by simpa using h), List.append_assoc, List.singleton_append]

/-- A queue that begins to spill with nothing staged has its records staged as they lay (R57, R69). -/
theorem rxqOf_beginSpill {q : Nat} {s : State} (hspill : (rxqOf q s).spilling = false) (hstaged : (rxqOf q s).staged = [])
    (h : (rxqOf q s).recs.Pairwise (fun a b => recBefore a b = true)) :
    (rxqOf q (beginSpill q s)).spilling = true ∧ (rxqOf q (beginSpill q s)).recs = [] ∧
      (rxqOf q (beginSpill q s)).staged = (rxqOf q s).recs.map unheld := by
  have ordered : ((rxqOf q s).recs.map unheld).Pairwise (fun a b => recBefore a b = true) := List.pairwise_map.mpr h
  unfold beginSpill
  simp only [returning_rxqOf, rxqOf_onRxq_same, hspill, hstaged, Bool.false_eq_true, if_false, true_and]
  exact (foldl_insertBy_of_pairwise recBefore _ [] ordered).trans (List.nil_append _)

/-- The verdict word with each of its flags as a power of two (R75). -/
theorem verdictBytes_eq (v : Verdict) : verdictBytes v = natLE 1 (v.ver + 16 * codeNo v.code) ++
    natLE 1 (v.flags.toNat + (if v.corr then 2 ^ 5 else 0) + (if v.cinc then 2 ^ 6 else 0) + (if v.memerr then 2 ^ 7 else 0)) ++
    natLE 2 (if v.ver = 2 then v.ts % 65536 else v.len) ++ natLE 4 (v.ts / 65536 % 1000000000) ++
    natLE 2 (v.ts / 65536 / 1000000000) ++ natLE 3 v.stream ++
    natLE 1 (v.port + 4 * v.rclass + 16 * v.fclass + (if v.vtag then 2 ^ 7 else 0)) ++ natLE 2 v.epoch := by
  have flag (b : Bool) (n : Nat) : n * b2n b = if b then n else 0 := by cases b <;> simp [b2n]
  simp only [verdictBytes, flag, Nat.reducePow]

/-- The completion with each of its flags as a power of two (R239). -/
theorem rxCompletionBytes_eq (desc offs flen : Nat) (phase fin : Bool) : rxCompletionBytes desc offs flen phase fin =
    natLE 2 desc ++ natLE 2 offs ++ natLE 2 flen ++ natLE 1 ((if phase then 2 ^ 0 else 0) + (if fin then 2 ^ 1 else 0)) ++ [0] := by
  cases phase <;> cases fin <;> rfl

/-- Settles O41: the row's move of the head record, the stall behind an open verdict, the draw from staging, and the spill. -/
theorem deliveryAndSpill : Obligations.DeliveryAndSpill := by
  unfold Obligations.DeliveryAndSpill
  intro dt q r rest s x full bit word delivered
  have shown {v : Verdict} {f : Frame} {w : Option Verdict} {d : State}
      (h : Delivered x q { r with verdict := v, frame := f } w s.out d) : delivered v f w d := by
    obtain ⟨⟨desc, fin, o, hout, hrec, hword, hrewrite, hcompletion⟩, hctail, hcount⟩ := h
    rw [rxCompletionBytes_eq] at hcompletion
    rw [verdictBytes_eq] at hword
    refine ⟨⟨desc, fin, o, hout, hrec, hword, fun e he => ?_, hcompletion⟩, hctail, hcount⟩
    obtain ⟨hrew, hnew⟩ := hrewrite e he
    rw [verdictBytes_eq] at hnew
    exact ⟨hrew, hnew⟩
  refine ⟨fun hrecs hstaged hnext => ?_, fun hrecs hstaged hwait e => ?stalled, fun hstaged hnext => ?draw, ?spill⟩
  · obtain ⟨clean, corrected, uncorrectable⟩ := recordDelivery_of_turn hrecs hstaged hnext
    refine ⟨⟨_, clean, shown (delivered_clean q r rest s), ?_, ?_⟩, ⟨_, corrected, ?_, shown (delivered_corrected q r rest s)⟩,
      ⟨_, uncorrectable, cellWithdrawn_pend _ _, ?_, _, shown (delivered_uncorrectable q r rest s)⟩⟩
    · rw [rxqOf_moveRec, rxqOf_headTaken]
      rfl
    · rw [moveRec_nv, headTaken_nv]
    · rw [rxqOf_moveRec, rxqOf_onRxq_same, rxqOf_headTaken]
      rfl
    · rw [cellWithdrawn_wdDelivery, moveRec_wdDelivery]
      exact congrArg (fun n => min 32768 (n + 1)) (headTaken_wdDelivery _ _ _)
  case stalled => exact recordDelivery_of_notTurn hrecs (nextQueue_of_stalled hrecs hstaged hwait) e
  case draw =>
    have moved := moveRec_delivered q r none (drawTaken q r rest s)
    rw [rxqOf_drawTaken, drawTaken_out] at moved
    refine ⟨_, stagingDraw_of_turn hstaged hnext, shown moved, ?_, ?_, ?_⟩
    all_goals
      rw [rxqOf_moveRec, rxqOf_drawTaken]
      rfl
  case spill =>
    generalize ha : pass dt s = a
    intro _ hrecs hstaged hordered hwaited hfull hspill
    have atCistern : rxqOf q (cisternServe reqSpill 0 (cisternAsk reqSpill a)) = rxqOf q a := by simp [rxqOf]
    obtain ⟨hspills, hempty, hall⟩ := rxqOf_beginSpill (q := q) (s := cisternServe reqSpill 0 (cisternAsk reqSpill a))
      (by rw [atCistern]; exact hspill) (by rw [atCistern]; exact hstaged) (by rw [atCistern, hrecs]; exact hordered)
    rw [atCistern, hrecs] at hall
    refine ⟨_, spillStart_of_full ha hrecs hwaited hfull, hspills, hempty, hall, ?_⟩
    rw [(beginSpill_spilt _ _).apart State.out (fun _ _ => rfl), cisternServe_out, cisternAsk_out]

end Sys2Proof.Claim
end

section
/-! Completions of the egress path (R62, R88, R91, R132, R241): what completing, refusing and giving up a frame change. -/
namespace Sys2Proof.Claim
open Sys2Proof.Machine

/-- Egress frames have been completed: of the path only the transmit queues, the egress frames and the books of returned
tickets differ, and beside it streams, pumps and the riser's books; outputs are added, and MSI-X vectors may be pending. -/
structure Sent (s t : State) : Prop where
  parts : ∃ q g a i e d x se pu m r c o, r.st = s.ri.st ∧ t = { s with
    fp := { s.fp with txq := q, egr := g, backAt := a, backIng := i, backEgr := e, backDelivery := d, backTransmit := x }
    se := se, pu := pu, ev := { s.ev with msixPba := m }, ri := r, cdc := c, out := o }
  out : ∃ o, t.out = s.out ++ o

theorem Sent.refl (s : State) : Sent s s :=
  ⟨⟨_, _, _, _, _, _, _, _, _, _, _, _, _, rfl, rfl⟩, [], (List.append_nil _).symm⟩

theorem Sent.trans {s t u : State} (h : Sent s t) (k : Sent t u) : Sent s u := by
  obtain ⟨o, ho⟩ := h.out
  obtain ⟨o2, ho2⟩ := k.out
  refine ⟨?_, o ++ o2, by rw [ho2, ho, List.append_assoc]⟩
  obtain ⟨_, _, _, _, _, _, _, _, _, _, _, _, _, hr, rfl⟩ := h.parts
  obtain ⟨_, _, _, _, _, _, _, _, _, _, _, _, _, hr2, rfl⟩ := k.parts
  exact ⟨_, _, _, _, _, _, _, _, _, _, _, _, _, hr2.trans hr, rfl⟩

/-- A change of the transmit queues and the egress frames. -/
theorem sent_onFp (f : Fp → Fp) (s : State)
    (h : ∀ p, f p = { p with txq := (f p).txq, egr := (f p).egr }) : Sent s (onFp f s) :=
  ⟨⟨(f s.fp).txq, (f s.fp).egr, _, _, _, _, _, _, _, _, _, _, _, rfl, congrArg (fun p => { s with fp := p }) (h s.fp)⟩,
    [], (List.append_nil _).symm⟩

theorem sent_returning (f : Fp → Fp) (s : State) (h : ∀ p, f p = { p with txq := (f p).txq, egr := (f p).egr }) :
    Sent s (returning (onFp f) s) := by
  obtain ⟨a, i, e, d, x, hparts⟩ := returning_parts (onFp f) s
  rw [hparts]
  exact (sent_onFp f s h).trans ⟨⟨_, _, a, i, e, d, x, _, _, _, _, _, _, rfl, rfl⟩, [], (List.append_nil _).symm⟩

theorem sent_onTxq (q : Nat) (f : TxQ → TxQ) (s : State) : Sent s (onTxq q f s) := sent_onFp _ s (fun _ => rfl)

theorem sent_onEgr (t : Nat) (f : Egr → Egr) (s : State) : Sent s (onEgr t f s) := sent_onFp _ s (fun _ => rfl)

theorem sent_emit (o : Out) (s : State) : Sent s (emit o s) := ⟨⟨_, _, _, _, _, _, _, _, _, _, _, _, _, rfl, rfl⟩, [o], rfl⟩

theorem sent_msix (v : Nat) (s : State) : Sent s (msix v s) := by
  unfold msix
  split
  · exact .refl s
  · split
    · exact ⟨⟨_, _, _, _, _, _, _, _, _, _, _, _, _, rfl, rfl⟩, [], (List.append_nil _).symm⟩
    · exact sent_emit _ s

theorem sent_cdcPass (q n : Nat) (s : State) : Sent s (cdcPass q n s) := by
  rw [cdcPass_parts]
  exact ⟨⟨_, _, _, _, _, _, _, _, _, _, _, _, _, rfl, rfl⟩, [], (List.append_nil _).symm⟩

theorem sent_dataEntry (i : Nat) (f : Entry → Entry) (s : State) : Sent s (dataEntry i f s) := by
  obtain ⟨c, t, h⟩ := dataEntry_parts i f s
  rw [h]
  exact ⟨⟨_, _, _, _, _, _, _, _, _, _, _, _, _, rfl, rfl⟩, [], (List.append_nil _).symm⟩

theorem sent_refDown (i : Nat) (s : State) : Sent s (refDown i s) := by
  obtain ⟨p, r, d, hr, h⟩ := drainNotice_parts i (onKslot i (fun k => { k with ref := k.ref - 1 }) s)
  unfold refDown
  rw [h]
  exact ⟨⟨_, _, _, _, _, _, _, _, _, _, _, _, _, hr, rfl⟩, [], (List.append_nil _).symm⟩

/-! ## One completion (R62, R241) -/

/-- A completion is written to the ring, and the ring moves on. -/
def completionWritten (q : Nat) (c : TxComp) (rest : List (Nat × Option TxComp)) (s : State) : State :=
  let x := txqOf q s
  let next := (x.ctail + 1) % x.csize
  onTxq q (fun y => { y with
      order := rest, ctail := next, phase := if next = 0 then !y.phase else y.phase
      status := smMod 0 y.status (txStatusNo c.status) wrap1 })
    (cdcPass cdcToPcie 2 (emit (.dma (x.cbase + 32 * x.ctail) (txCompletionBytes x.phase c)) (emit (.txComp q x.phase c) s)))

/-- A refused frame's ticket returns with its completion. -/
def ticketFreed (q d : Nat) (s : State) : State :=
  returning (onFp (fun f => { f with egr := f.egr.filter (fun y => !(y.q.val = q && y.desc = d && y.stage = .refused)) })) s

/-- The queue's interrupt after a completion. -/
def txInterrupted (x : TxQ) (s : State) : State := if x.intMask then s else msix x.vector s

theorem sent_ticketFreed (q d : Nat) (s : State) : Sent s (ticketFreed q d s) := sent_returning _ s (fun _ => rfl)

theorem sent_completionWritten (q : Nat) (c : TxComp) (rest : List (Nat × Option TxComp)) (s : State) :
    Sent s (completionWritten q c rest s) := by
  have written := (sent_emit (.txComp q (txqOf q s).phase c) s).trans
    (sent_emit (.dma ((txqOf q s).cbase + 32 * (txqOf q s).ctail) (txCompletionBytes (txqOf q s).phase c)) _)
  exact (written.trans (sent_cdcPass cdcToPcie 2 _)).trans (sent_onTxq q _ _)

theorem sent_txInterrupted (x : TxQ) (s : State) : Sent s (txInterrupted x s) := by
  unfold txInterrupted
  split
  · exact .refl s
  · exact sent_msix _ s

/-- With room in the ring the completion at the head of the queue's order is written (R62). -/
theorem flushTx_of_room {q d n : Nat} {c : TxComp} {rest : List (Nat × Option TxComp)} {s : State}
    (horder : (txqOf q s).order = (d, some c) :: rest) (hpcie : pcieDown s = false) (hsize : (txqOf q s).csize ≠ 0)
    (hroom : ((txqOf q s).ctail + 1) % (txqOf q s).csize ≠ (txqOf q s).chead) :
    flushTx q (n + 1) s = flushTx q n (txInterrupted (txqOf q s) (ticketFreed q d (completionWritten q c rest s))) := by
  have room : (pcieDown s || decide ((txqOf q s).csize = 0) ||
      decide (((txqOf q s).ctail + 1) % (txqOf q s).csize = (txqOf q s).chead)) = false := by simp [hpcie, hsize, hroom]
  rw [flushTx]
  simp only [horder]
  rw [if_neg (by rw [room]; exact Bool.false_ne_true)]
  rfl

theorem sent_flushTx (q n : Nat) (s : State) : Sent s (flushTx q n s) := by
  induction n generalizing s with
  | zero => exact .refl s
  | succ n ih =>
    unfold flushTx
    simp only
    split
    next d c rest _ =>
      split
      · exact .refl s
      · have completed := (sent_completionWritten q c rest s).trans ((sent_ticketFreed q d _).trans (sent_txInterrupted (txqOf q s) _))
        exact completed.trans (ih _)
    next => exact .refl s

theorem sent_completeTx (q : Nat) (c : TxComp) (s : State) : Sent s (completeTx q c s) := by
  unfold completeTx
  simp only
  refine Sent.trans (Sent.trans ?_ (sent_onTxq q _ _)) (sent_flushTx q _ _)
  split
  · exact .refl s
  · exact sent_returning _ s (fun _ => rfl)

theorem sent_refuseEgr (t : Nat) (st : TxStatus) (s : State) : Sent s (refuseEgr t st s) := by
  unfold refuseEgr
  split
  · exact .refl s
  · simp only
    refine Sent.trans (Sent.trans ?_ (sent_onEgr t _ _)) (sent_completeTx _ _ _)
    split <;> split
    · exact (sent_dataEntry _ _ s).trans (sent_refDown _ _)
    · exact sent_refDown _ _
    · exact sent_dataEntry _ _ s
    · exact .refl s

theorem sent_finishEgr (x : Egr) (s : State) : Sent s (finishEgr x s) := by
  unfold finishEgr
  simp only
  refine Sent.trans (Sent.trans ?_ (sent_returning _ _ (fun _ => rfl))) (sent_completeTx _ _ _)
  split
  · exact sent_dataEntry _ _ s
  · exact .refl s

theorem sent_giveUp (x : Egr) (p : Nat) (s : State) : Sent s (giveUp x p s) := by
  unfold giveUp
  simp only
  split
  · exact sent_finishEgr _ s
  · exact sent_onEgr _ _ s

theorem sent_foldl {α : Type} {f : State → α → State} (h : ∀ s x, Sent s (f s x)) (l : List α) (s : State) :
    Sent s (l.foldl f s) := by
  induction l generalizing s with
  | nil => exact .refl s
  | cons x l ih => exact (h s x).trans (ih _)

/-! ## What completions leave -/

section left
variable {s t : State} (h : Sent s t)
include h
theorem Sent.ports : t.fp.ports = s.fp.ports := by obtain ⟨_, _, _, _, _, _, _, _, _, _, _, _, _, _, rfl⟩ := h.parts; rfl
theorem Sent.pairs : t.fp.pairs = s.fp.pairs := by obtain ⟨_, _, _, _, _, _, _, _, _, _, _, _, _, _, rfl⟩ := h.parts; rfl
theorem Sent.pend : t.ev.pend = s.ev.pend := by obtain ⟨_, _, _, _, _, _, _, _, _, _, _, _, _, _, rfl⟩ := h.parts; rfl
theorem Sent.tu : t.tu = s.tu := by obtain ⟨_, _, _, _, _, _, _, _, _, _, _, _, _, _, rfl⟩ := h.parts; rfl
theorem Sent.cmd : t.cmd = s.cmd := by obtain ⟨_, _, _, _, _, _, _, _, _, _, _, _, _, _, rfl⟩ := h.parts; rfl
theorem Sent.plat : t.plat = s.plat := by obtain ⟨_, _, _, _, _, _, _, _, _, _, _, _, _, _, rfl⟩ := h.parts; rfl
end left

end Sys2Proof.Claim
end

section
/-! Doorbells, entry reads, counter blocks and link changes (R43, R62, R91, R112, R113, R125, R126, R523), and O43. -/
namespace Sys2Proof.Claim
open Sys2Proof.Machine

/-! ## Doorbells (R523) -/

@[simp] theorem askDraws_fp (s : State) : (askDraws s).fp = s.fp := by unfold askDraws; split <;> rfl
@[simp] theorem askDraws_nv (s : State) : (askDraws s).nv = s.nv := by unfold askDraws; split <;> rfl
@[simp] theorem askDraws_ev (s : State) : (askDraws s).ev = s.ev := by unfold askDraws; split <;> rfl
@[simp] theorem askDraws_out (s : State) : (askDraws s).out = s.out := by unfold askDraws; split <;> rfl

/-- A receive queue with the descriptors of a new tail posted. -/
def rxPosted (v : Nat) (l : List Desc) (x : RxQ) : RxQ :=
  let t := newTail v x.dtail x.size
  { x with
    dtail := t.1
    bufs := x.bufs ++ (l.take t.2).filterMap (fun d => match d with | .rx b => some (rxDesc b) | .tx _ _ => none) }

/-- A transmit queue with the descriptors of a new tail posted. -/
def txPosted (v : Nat) (l : List Desc) (x : TxQ) : TxQ :=
  let t := newTail v x.dtail x.size
  { x with
    dtail := t.1
    descs := x.descs ++ (l.take t.2).filterMap (fun d => match d with | .tx b f => some (txDesc b f) | .rx _ => none) }

section doorbells
variable {n : Fin 64} {v : Nat} {l : List Desc} {s : State} (hpcie : pcieDown s = false)
include hpcie

theorem dtail_of_rx (h : (rxqOf n s).size ≠ 0) : exec (.dtail (.rx n) v l) s =
    .next (askDraws (onRxq n (rxPosted v l) (cdcPass cdcFromPcie (newTail v (rxqOf n s).dtail (rxqOf n s).size).2 s))) := by
  have hexec : exec (.dtail (.rx n) v l) s = execDtail (.rx n) v l s := rfl
  simp only [hexec, execDtail, done, hpcie, h, Bool.false_eq_true, if_false]
  rfl

theorem dtail_of_tx (h : (txqOf n s).size ≠ 0) : exec (.dtail (.tx n) v l) s = .next (onTxq n (txPosted v l) s) := by
  have hexec : exec (.dtail (.tx n) v l) s = execDtail (.tx n) v l s := rfl
  simp only [hexec, execDtail, done, hpcie, h, Bool.false_eq_true, if_false]
  rfl

theorem chead_of_rx (h : (rxqOf n s).csize ≠ 0) : exec (.chead (.rx n) v) s =
    .next (askDraws (onRxq n (fun x => { x with chead := v % 65536 % x.csize }) s)) := by
  have hexec : exec (.chead (.rx n) v) s = execChead (.rx n) v s := rfl
  simp only [hexec, execChead, done, hpcie, h, Bool.false_eq_true, if_false]

theorem chead_of_tx (h : (txqOf n s).csize ≠ 0) (horder : (txqOf n s).order = []) : exec (.chead (.tx n) v) s =
    .next (onTxq n (fun x => { x with chead := v % 65536 % x.csize }) s) := by
  have hexec : exec (.chead (.tx n) v) s = execChead (.tx n) v s := rfl
  simp only [hexec, execChead, done, hpcie, h, Bool.false_eq_true, if_false, txqOf_onTxq_same, horder, List.length_nil, flushTx]

end doorbells

/-! ## Entry reads (R112, R113) -/

theorem cacheLine_onSe_of_cache {i : Nat} {f : Se → Se} {s : State} (h : (f s.se).cache = s.se.cache) :
    cacheLine i (onSe f s) = cacheLine i s := by
  simp only [cacheLine, onSe_se, h]

/-- A line put at the head of its set is the one found. -/
theorem cacheLine_of_head (i w : Nat) (e : Entry) (rest : List CLineC → List CLineC) (s : State) :
    cacheLine i (onCacheSet (i % 4096) (fun ls => { way := w, idx := i, entry := e, dirty := false } :: rest ls) s) =
      some { way := w, idx := i, entry := e, dirty := false } := by
  simp [cacheLine, onCacheSet]

/-- An empty set has a way that is not withdrawn. -/
theorem exists_way {l : List Nat} (h : l.length < 16) : ∃ w ∈ List.range 16, w ∉ l := by
  by_contra hall
  push Not at hall
  have covered := List.Subperm.length_le (List.subperm_of_subset List.nodup_range hall)
  simp only [List.length_range] at covered
  omega

/-- An installed line stands clean at the head of its set, whether a way was free or the oldest line gave up its own. -/
theorem cacheLine_installLine (i : Nat) (e : Entry) {s : State} (h : s.se.wdWays.length < 16) :
    ∃ l, cacheLine i (installLine i e s) = some l ∧ l.entry = e ∧ l.dirty = false := by
  unfold installLine
  simp only
  split
  next w _ => exact ⟨_, cacheLine_of_head i w e (fun ls => ls) _, rfl, rfl⟩
  next hfull =>
    split
    next hempty =>
      obtain ⟨w, hw, hfree⟩ := exists_way h
      have none_in := List.getLast?_eq_none_iff.mp hempty
      rw [List.head?_eq_none_iff, List.filter_eq_nil_iff] at hfull
      exact absurd (by simp [hfree, none_in]) (hfull w hw)
    next old _ => exact ⟨_, cacheLine_of_head i old.way e List.dropLast _, rfl, rfl⟩

/-- Installing a line reaches the cache and the table alone. -/
theorem installLine_parts (i : Nat) (e : Entry) (s : State) :
    ∃ c t, installLine i e s = onSe (fun x => { x with cache := c, table := t }) s := by
  unfold installLine
  simp only
  split
  · exact ⟨_, _, rfl⟩
  · split
    · exact ⟨_, _, rfl⟩
    · split
      · exact ⟨_, _, rfl⟩
      · exact ⟨_, _, rfl⟩

/-- The read of an entry has come back. -/
def readBack (i : Nat) (s : State) : State :=
  onSe (fun e => { e with reads := e.reads.filter (· ≠ i) }) (cisternServe reqMiss 4 s)

/-- An entry that reads back intact, with no frame waiting, is installed, and no more. -/
theorem entryReadComplete_of_intact {dt i : Nat} {s a : State} (ha : pass dt s = a) (hread : i ∈ a.se.reads)
    (hline : cacheLine i a = none) (hing : a.fp.ing = []) (hegr : a.fp.egr = []) :
    exec (.entryReadComplete dt i 0 0) s = .next (installLine i (entryOfTable i a) (readBack i a)) := by
  have hexec : exec (.entryReadComplete dt i 0 0) s = execEntryReadComplete dt i 0 0 s := rfl
  have parts : ∃ r w c k u, readBack i a = { a with
      se := { a.se with reads := r, cwait := w }, clk := c, cdc := k, tu := u } := by
    unfold readBack cisternServe
    rw [cdcPass_parts, cdcPass_parts, inTurn_parts]
    exact ⟨_, _, _, _, _, rfl⟩
  obtain ⟨r, w, c, k, u, hparts⟩ := parts
  have away : cacheLine i (readBack i a) = none := by rw [hparts]; exact hline
  have table : entryOfTable i (readBack i a) = entryOfTable i a := by rw [hparts]; rfl
  have intact : readsBack i 0 0 (readBack i a) = true := if_pos ⟨rfl, rfl⟩
  have frames : (installLine i (entryOfTable i a) (readBack i a)).fp = a.fp := by
    obtain ⟨x, y, h⟩ := installLine_parts i (entryOfTable i a) (readBack i a)
    rw [h, hparts]
    rfl
  simp only [hexec, execEntryReadComplete, done, ha, List.contains_iff_mem.mpr hread, Bool.not_true, Bool.false_eq_true, if_false]
  rw [show onSe (fun e => { e with reads := e.reads.filter (· ≠ i) }) (cisternServe reqMiss 4 a) = readBack i a from rfl]
  simp only [away, intact, table, Option.isSome_none, Bool.false_eq_true, if_false, if_true]
  simp [frames, hing, hegr]

/-! ## Counter blocks (R125, R126) -/

section riser
variable (w : Bool) (c : RChan) (q : RQueue) (b : Bytes) (s : State)
@[simp] theorem sendRiser_se : (sendRiser w c q b s).se = s.se := (sendRiser_told w c q b s).se
@[simp] theorem sendRiser_fp : (sendRiser w c q b s).fp = s.fp := (sendRiser_told w c q b s).fp
@[simp] theorem sendRiser_nv : (sendRiser w c q b s).nv = s.nv := by obtain ⟨_, _, _, h⟩ := sendRiser_parts w c q b s; rw [h]
@[simp] theorem sendRiser_ev : (sendRiser w c q b s).ev = s.ev := by obtain ⟨_, _, _, h⟩ := sendRiser_parts w c q b s; rw [h]
end riser

/-- The vault core's answer moves the line's RESEND on by a block of 2^20 and changes nothing else that counts (R125). -/
theorem reserve_spec (i : Nat) (s : State) :
    (reserve i s).1 = min (2 ^ 64 - 1) ((ctrLine i s).resend + 2 ^ 20) ∧
      (reserve i s).2.nv = (onLine i (fun l => { l with resend := (reserve i s).1 }) s).nv ∧
      (reserve i s).2.se = s.se ∧ (reserve i s).2.fp = s.fp ∧ (reserve i s).2.ev = s.ev := by
  unfold reserve
  refine ⟨?_, ?_, ?_, ?_, ?_⟩
  case refine_1 => simp [ctrLine, blockSize]
  all_goals simp [onLine]

/-- The vault core has taken the oldest request, in its turn at the MRAM. -/
def requestTaken (r : List Nat) (s : State) : State := mramTurn 1 mramCore (onSe (fun e => { e with blockReqs := r }) s)

section taken
variable (r : List Nat) (s : State)
@[simp] theorem requestTaken_se : (requestTaken r s).se = { s.se with blockReqs := r } := by simp [requestTaken, mramTurn]
@[simp] theorem requestTaken_nv : (requestTaken r s).nv = s.nv := by simp [requestTaken, mramTurn]
@[simp] theorem requestTaken_fp : (requestTaken r s).fp = s.fp := by simp [requestTaken, mramTurn]
@[simp] theorem requestTaken_ev : (requestTaken r s).ev = s.ev := by simp [requestTaken, mramTurn]
end taken

/-- COUNTER_BLOCK_REQUEST with the riser up and the vault running. -/
theorem counterBlockRequest_of_served {i : Nat} {r : List Nat} {s : State} (hreq : s.se.blockReqs = i :: r)
    (hup : riserUp s = true) (hvault : vaultDown s = false) :
    let t := reserve i (requestTaken r s)
    exec .counterBlockRequest s = .next (onSe (fun e => { e with grants := e.grants ++ [(i, t.1)] }) t.2) := by
  have hexec : exec .counterBlockRequest s = execCounterBlockRequest s := rfl
  simp only [hexec, execCounterBlockRequest, done, hreq, hup, hvault, Bool.not_true, Bool.or_self, Bool.false_eq_true, if_false]
  rfl

/-- BLOCK_GRANT with the riser up, for a line bound to an entry. -/
theorem blockGrant_of_bound {i v n : Nat} {r : List (Nat × Nat)} {s : State} (hgrant : s.se.grants = (i, v) :: r)
    (hup : riserUp s = true) (hentry : (ctrLine i s).entry = some n) :
    exec .blockGrant s = .next (dataEntry n (fun e => { e with resend := v, req := false })
      (inTurn turnCounter n 64 (onSe (fun e => { e with grants := r }) s))) := by
  have hexec : exec .blockGrant s = execBlockGrant s := rfl
  have bound : (ctrLine i (onSe (fun e => { e with grants := r }) s)).entry = some n := hentry
  simp only [hexec, execBlockGrant, done, hgrant, hup, bound, Bool.not_true, Bool.false_eq_true, if_false]

/-- A data-path change of an entry is what the entry then reads. -/
theorem curEntry_dataEntry (i : Nat) (f : Entry → Entry) (s : State) : curEntry i (dataEntry i f s) = f (curEntry i s) := by
  unfold dataEntry
  cases hline : cacheLine i s with
  | some l =>
    have hl : l.idx = i := by simpa using List.find?_some hline
    let changed (y : CLineC) : CLineC := if y.idx = i then { y with entry := f y.entry, dirty := true } else y
    have index : (fun y : CLineC => (changed y).idx == i) = (fun y => y.idx == i) := by
      funext y
      simp only [changed]
      split <;> rfl
    have found : cacheLine i (onCacheSet (i % 4096) (fun ls => ls.map changed) s) = some { l with entry := f l.entry, dirty := true } := by
      unfold cacheLine at hline ⊢
      simp only [onCacheSet, onSe_se, smGet_smMod_same, List.find?_map, Function.comp_def, index, hline, Option.map_some]
      exact congrArg some (if_pos hl)
    simp only [curEntry, hline]
    rw [found]
  | none =>
    have away : cacheLine i (setTable i (f (entryOfTable i s)) s) = none := hline
    simp only [curEntry, away, hline]
    simp [entryOfTable, setTable]

@[simp] theorem dataEntry_grants (i : Nat) (f : Entry → Entry) (s : State) : (dataEntry i f s).se.grants = s.se.grants := by
  obtain ⟨c, t, h⟩ := dataEntry_parts i f s
  rw [h]
  rfl

/-! ## Link changes (R43, R91) -/

@[simp] theorem portOf_raise (p n : Nat) (d : List Nat) (s : State) : portOf p (raise n d s) = portOf p s := by simp [portOf]

theorem Sent.portOf {s t : State} (h : Sent s t) (p : Nat) : Machine.portOf p t = Machine.portOf p s := by
  simp only [Machine.portOf, h.ports]

/-- A port whose link is as it should be is left as it is. -/
theorem relink_of_same {p : Nat} {s : State}
    (h : (portOf p s).link = ((portOf p s).mode ≠ 0 && (portOf p s).linkIn && s.plat.refLine && !pinsTaken s)) : relink p s = s :=
  if_pos h

/-- A port that goes down loses the frames released to it, and nothing of another port. -/
theorem dropEgress_sent (p : Nat) (s : State) : Sent (onPort p (fun x => { x with line := [] }) s) (dropEgress p s) :=
  sent_foldl (fun s x => sent_giveUp x p s) _ _

/-- A port whose link changes: its link is what mode, partner, reference and pins say, and its event is pending. -/
theorem relink_of_change {p : Nat} (hp : p < 4) {s : State} {up : Bool}
    (hup : up = ((portOf p s).mode ≠ 0 && (portOf p s).linkIn && s.plat.refLine && !pinsTaken s)) (h : (portOf p s).link ≠ up) :
    (portOf p (relink p s)).linkIn = (portOf p s).linkIn ∧ (portOf p (relink p s)).link = up ∧
      (portOf p (relink p s)).mode = (portOf p s).mode ∧ (relink p s).ev.pend.getLsbD (32 + p) = true := by
  let raised := raise (32 + p) [p] (onPort p (fun x => { x with link := up }) s)
  have pumphouse : evWell (32 + p) = false := by
    have : 32 + p = 32 ∨ 32 + p = 33 ∨ 32 + p = 34 ∨ 32 + p = 35 := by omega
    rcases this with h | h | h | h <;> rw [h] <;> decide
  have pending : raised.ev.pend.getLsbD (32 + p) = true := raise_pend _ _ (by omega) pumphouse
  have port : portOf p raised = { portOf p s with link := up } :=
    (portOf_raise p _ _ _).trans (portOf_onPort_same p s _)
  have changes : relink p s = if up then raised else dropEgress p raised := by
    unfold relink
    simp only [← hup]
    exact if_neg h
  rw [changes]
  cases up with
  | true =>
    rw [if_pos rfl, port]
    exact ⟨rfl, rfl, rfl, pending⟩
  | false =>
    have dropped := dropEgress_sent p raised
    have same : portOf p (dropEgress p raised) = { portOf p raised with line := [] } :=
      (dropped.portOf p).trans (portOf_onPort_same p raised _)
    rw [if_neg Bool.false_ne_true, same, port, dropped.pend]
    exact ⟨rfl, rfl, rfl, pending⟩

/-! ## The rows -/

theorem readBack_nv (i : Nat) (s : State) : (readBack i s).nv = s.nv := by simp [readBack, cisternServe]
theorem readBack_ev (i : Nat) (s : State) : (readBack i s).ev = s.ev := by simp [readBack, cisternServe]

/-- An entry read is over, and its line stands clean as the table has it (R112). -/
theorem entryRead_installs {dt i : Nat} {s a : State} (ha : pass dt s = a) (hread : i ∈ a.se.reads) (hline : cacheLine i a = none)
    (hways : a.se.wdWays.length < 16) (hing : a.fp.ing = []) (hegr : a.fp.egr = []) :
    ∃ d l, exec (.entryReadComplete dt i 0 0) s = .next d ∧ i ∉ d.se.reads ∧ cacheLine i d = some l ∧
      l.entry = entryOfTable i a ∧ l.dirty = false ∧ d.nv = a.nv ∧ d.ev = a.ev := by
  have wider : (readBack i a).se.wdWays.length < 16 := by simpa [readBack, cisternServe] using hways
  have noRead : i ∉ (readBack i a).se.reads := by simp [readBack]
  obtain ⟨l, hfound, hentry, hclean⟩ := cacheLine_installLine i (entryOfTable i a) wider
  obtain ⟨c, t, h⟩ := installLine_parts i (entryOfTable i a) (readBack i a)
  refine ⟨_, l, entryReadComplete_of_intact ha hread hline hing hegr, ?_, hfound, hentry, hclean, ?_, ?_⟩
  · rw [h, onSe_se]
    exact noRead
  · rw [h, onSe_nv, readBack_nv]
  · rw [h, onSe_ev, readBack_ev]

/-- A request served reserves a block in the line and posts its grant (R125). -/
theorem blockRequest_reserves {i : Nat} {r : List Nat} {s : State} (hreq : s.se.blockReqs = i :: r) (hup : riserUp s = true)
    (hvault : vaultDown s = false) {v : Nat} (hv : v = min (2 ^ 64 - 1) ((ctrLine i s).resend + 2 ^ 20)) :
    ∃ d, exec .counterBlockRequest s = .next d ∧ d.se.blockReqs = r ∧ d.se.grants = s.se.grants ++ [(i, v)] ∧
      d.nv = (onLine i (fun l => { l with resend := v }) s).nv ∧ d.fp = s.fp ∧ d.ev = s.ev := by
  obtain ⟨hvalue, hnv, hse, hfp, hev⟩ := reserve_spec i (requestTaken r s)
  have line : ctrLine i (requestTaken r s) = ctrLine i s := by simp [ctrLine]
  rw [line, ← hv] at hvalue
  rw [hvalue] at hnv
  have served := counterBlockRequest_of_served hreq hup hvault
  simp only [hvalue] at served
  refine ⟨_, served, ?_, ?_, ?_, ?_, ?_⟩
  · rw [onSe_se, hse, requestTaken_se]
  · rw [onSe_se, hse, requestTaken_se]
  · rw [onSe_nv, hnv, onLine, onLine, onNv_nv, onNv_nv, requestTaken_nv]
  · rw [onSe_fp, hfp, requestTaken_fp]
  · rw [onSe_ev, hev, requestTaken_ev]

/-- A grant reaches the entry its line is bound to (R125). -/
theorem blockGrant_reaches {i v n : Nat} {r : List (Nat × Nat)} {s : State} (hgrant : s.se.grants = (i, v) :: r)
    (hup : riserUp s = true) (hentry : (ctrLine i s).entry = some n) :
    ∃ d, exec .blockGrant s = .next d ∧ d.se.grants = r ∧ curEntry n d = { curEntry n s with resend := v, req := false } ∧
      d.nv = s.nv ∧ d.fp = s.fp := by
  refine ⟨_, blockGrant_of_bound hgrant hup hentry, ?_, ?_, ?_, ?_⟩
  · simp
  · rw [curEntry_dataEntry]
    simp [curEntry, cacheLine, entryOfTable]
  · simp
  · simp

/-- A link follows its partner, with the port's event where it changes (R43, R91). -/
theorem linkChange_relinks {p : Fin 4} {up : Bool} {s a : State} (ha : pass 0 s = a) {link : Bool}
    (hlink : link = (decide ((portOf p a).mode ≠ 0) && up && a.plat.refLine && !pinsTaken a)) :
    ∃ d, exec (.linkChange p up) s = .next d ∧ (portOf p d).linkIn = up ∧ (portOf p d).link = link ∧
      (portOf p d).mode = (portOf p a).mode ∧ (link ≠ (portOf p a).link → d.ev.pend.getLsbD (32 + p) = true) ∧
      (link = (portOf p a).link → d = onPort p (fun y => { y with linkIn := up }) a) := by
  have hexec : exec (.linkChange p up) s = .next (relink p (onPort p (fun x => { x with linkIn := up }) a)) := by
    rw [← ha]
    rfl
  have port : portOf p (onPort p (fun y => { y with linkIn := up }) a) = { portOf p a with linkIn := up } := portOf_onPort_same p a _
  have wanted : link = ((portOf p (onPort p (fun y => { y with linkIn := up }) a)).mode ≠ 0 &&
      (portOf p (onPort p (fun y => { y with linkIn := up }) a)).linkIn &&
      (onPort p (fun y => { y with linkIn := up }) a).plat.refLine && !pinsTaken (onPort p (fun y => { y with linkIn := up }) a)) := by
    rw [port]
    exact hlink
  refine ⟨_, hexec, ?_⟩
  by_cases same : link = (portOf p a).link
  · rw [relink_of_same (by rw [← wanted, port, same]), port]
    exact ⟨rfl, same.symm, rfl, fun h => absurd same h, fun _ => rfl⟩
  · obtain ⟨hin, hup, hmode, hpend⟩ := relink_of_change p.isLt wanted (by rw [port]; exact fun h => same h.symm)
    rw [port] at hin hmode
    exact ⟨hin, hup, hmode, fun _ => hpend, fun h => absurd h same⟩

/-- The two receive doorbells leave all but their queue. -/
theorem rxDoorbell_fp (n m q : Nat) (f : RxQ → RxQ) (s : State) :
    (askDraws (onRxq n f (cdcPass q m s))).fp = (onRxq n f s).fp ∧ (askDraws (onRxq n f (cdcPass q m s))).nv = s.nv ∧
      (askDraws (onRxq n f (cdcPass q m s))).ev = s.ev ∧ (askDraws (onRxq n f (cdcPass q m s))).out = s.out := by
  simp [onRxq]

/-- Settles O43: each row by its own lemma. -/
theorem queuesAndExchanges : Obligations.QueuesAndExchanges := by
  unfold Obligations.QueuesAndExchanges
  refine ⟨fun n v l s hpcie => ⟨?rxTail, ?txTail, ?rxHead, fun hsize horder => chead_of_tx hpcie hsize horder⟩, ?entryRead, ?request, ?grant, ?link⟩
  case rxTail =>
    intro hsize x t
    obtain ⟨hfp, hnv, hev, hout⟩ := rxDoorbell_fp n (newTail v x.dtail x.size).2 cdcFromPcie (rxPosted v l) s
    exact ⟨_, dtail_of_rx hpcie hsize, hfp, hnv, hev, hout⟩
  case txTail =>
    intro hsize x t
    exact (dtail_of_tx hpcie hsize).trans rfl
  case rxHead =>
    intro hsize
    exact ⟨_, chead_of_rx hpcie hsize, askDraws_fp _, askDraws_nv _, askDraws_ev _, askDraws_out _⟩
  case entryRead =>
    intro dt i s
    generalize ha : pass dt s = a
    exact fun hread hline hways hing hegr => entryRead_installs ha hread hline hways hing hegr
  case request => exact fun i r s hreq hup hvault => blockRequest_reserves hreq hup hvault rfl
  case grant => exact fun i v n r s hgrant hup hentry => blockGrant_reaches hgrant hup hentry
  case link =>
    intro p up s
    generalize ha : pass 0 s = a
    exact linkChange_relinks ha rfl

end Sys2Proof.Claim
end

section
/-! The transmit path of bypass frames (R61, R86 to R90, R240, R241), and O42. -/
namespace Sys2Proof.Claim
open Sys2Proof.Machine

/-! ## Descriptors (R61, R86) -/

@[simp] theorem txqOf_inTurn (q kind id rank : Nat) (s : State) : txqOf q (inTurn kind id rank s) = txqOf q s := by simp [txqOf]

/-- A transmit queue whose head descriptor has its ticket. -/
def descTaken (rest : List TxDesc) (x : TxQ) : TxQ :=
  { x with descs := rest, waiting := false, dhead := (x.dhead + 1) % x.size, order := x.order ++ [(x.dhead, none)] }

section fetch
variable {q : Fin 64} {d : TxDesc} {rest : List TxDesc} {s : State}

/-- Both rows of a descriptor take it in the queue's turn. -/
theorem fetchRow_of_head {i : Instr} (h : i = .txDescriptorFetch q ∧ (txqOf q s).waiting = false ∧ (∀ y ∈ s.fp.egr, y.q = q → y.cells ≠ 0) ∨
    i = .ticketRetry q ∧ (txqOf q s).waiting = true) :
    exec i s = .next (fetchDesc q (inTurn turnTicket 0 (4 + q) s)) := by
  rcases h with ⟨rfl, hwait, hcells⟩ | ⟨rfl, hwait⟩
  · have hexec : exec (.txDescriptorFetch q) s = execTxDescriptorFetch q s := rfl
    have none_waits : s.fp.egr.any (fun x => x.q = q && x.cells = 0) = false := by
      rw [List.any_eq_false]
      intro y hy
      simpa using hcells y hy
    simp only [hexec, execTxDescriptorFetch, done, txqOf_inTurn, hwait, inTurn_fp, none_waits, Bool.or_self, Bool.false_eq_true,
      if_false]
  · have hexec : exec (.ticketRetry q) s = execTicketRetry q s := rfl
    simp only [hexec, execTicketRetry, done, txqOf_inTurn, hwait, if_true]

variable (hdescs : (txqOf q s).descs = d :: rest) (hsize : (txqOf q s).size ≠ 0) (hpcie : pcieDown s = false)
include hdescs hsize hpcie

/-- Without a ticket the descriptor waits (R61). -/
theorem fetchDesc_of_noTicket (hmay : egressMayTake s = false) :
    fetchDesc q s = onTxq q (fun x => { x with waiting := true }) s := by
  simp only [fetchDesc, hdescs, hsize, hpcie, hmay, decide_false, Bool.or_self, Bool.false_eq_true, if_false, Bool.not_false, if_true]

/-- A bypass descriptor in order takes the next ticket and stands in the queue's order (R61, R86). -/
theorem fetchDesc_of_bypass (hmay : egressMayTake s = true) (hbypass : d.bypass = true) (hgood : descBad d s = false) :
    ∃ e : Egr, fetchDesc q s = onFp (fun f => { f with egr := f.egr ++ [e], nextTicket := f.nextTicket + 1 })
        (onTxq q (descTaken rest) (cdcPass cdcFromPcie 1 s)) ∧
      e.ticket = s.fp.nextTicket ∧ e.q = q ∧ e.d = d ∧ e.stage = .fetching ∧ e.desc = (txqOf q s).dhead ∧ e.refusal = none := by
  have good : descBad d (cdcPass cdcFromPcie 1 s) = false := by
    rw [← hgood]
    simp only [descBad, pairOf, cdcPass_fp]
  refine ⟨?e, ?fetched, ?_, ?_, ?_, ?_, ?_, ?_⟩
  case fetched =>
    simp only [fetchDesc, hdescs, hsize, hpcie, hmay, hbypass, good, decide_false, Bool.or_self, Bool.false_eq_true, if_false,
      Bool.not_true, Bool.false_and, Bool.true_or, if_true, Option.isSome_none, cdcPass_fp]
    rfl
  all_goals rfl

end fetch

/-! ## Frames in transmit memory -/

/-- A change of one frame that keeps its ticket is what is found under the ticket. -/
theorem egrOf_onEgr {t : Nat} {f : Egr → Egr} (s : State) (h : ∀ y, (f y).ticket = y.ticket) :
    egrOf t (onEgr t f s) = (egrOf t s).map f := by
  have ticket : (fun y : Egr => (if y.ticket = t then f y else y).ticket == t) = (fun y => y.ticket == t) := by
    funext y
    split
    · rw [h]
    · rfl
  unfold egrOf onEgr
  simp only [onFp_fp, List.find?_map, Function.comp_def, ticket]
  cases hfind : s.fp.egr.find? (fun y => y.ticket == t) with
  | none => rfl
  | some y =>
    have hy : y.ticket = t := by simpa using List.find?_some hfind
    simp [hy]

theorem ticket_of_egrOf {t : Nat} {s : State} {x : Egr} (h : egrOf t s = some x) : x.ticket = t := by
  simpa using List.find?_some h

theorem wireLen_congr {s t : State} (h : t.fp.pairs = s.fp.pairs) (d : TxDesc) (n : Nat) : wireLen d n t = wireLen d n s := by
  simp only [wireLen, pairOf, h]

theorem fieldRoom_congr {s t : State} (h : t.fp.pairs = s.fp.pairs) (d : TxDesc) : fieldRoom d t = fieldRoom d s := by
  simp only [fieldRoom, pairOf, h]

section frame
variable {dt ticket : Nat} {s a : State} {x : Egr} (ha : pass dt s = a) (hx : egrOf ticket a = some x) (hbypass : x.d.bypass = true)
include ha hx

section data
variable (ea eb : BitVec 128)

/-- A frame whose last byte has come. -/
def withData (x : Egr) (ea eb : BitVec 128) (now : Nat) (y : Egr) : Egr :=
  { y with cells := (x.d.len + 63) / 64, lastByte := some now, fault := ⟨ea, eb, false, false⟩ }

/-- The state in which it has come. -/
def lastByteCame (ticket : Nat) (x : Egr) (ea eb : BitVec 128) (a : State) : State :=
  onEgr ticket (withData x ea eb a.clk.now) (cdcPass cdcFromPcie ((x.d.len + 15) / 16) a)

/-- A bypass frame as it stands to be sent. -/
def standing (x : Egr) (a : State) (y : Egr) : Egr :=
  { y with
    out := some (padded x.d.len (wireLen x.d x.d.len a) (fieldRoom x.d a) x.d.frame), stage := .signed, doneAt := a.clk.now }

omit ha in
theorem egrOf_lastByteCame : egrOf ticket (lastByteCame ticket x ea eb a) = some (withData x ea eb a.clk.now x) := by
  have crossed : egrOf ticket (cdcPass cdcFromPcie ((x.d.len + 15) / 16) a) = some x := by rw [egrOf, cdcPass_fp]; exact hx
  rw [lastByteCame, egrOf_onEgr (f := withData x ea eb a.clk.now) _ (fun _ => rfl), crossed, Option.map_some]

include hbypass in
/-- A bypass frame stands padded when its data are complete (R87, R240). -/
theorem txDataComplete_of_bypass (hstage : x.stage = .fetching) (hcells : x.cells ≠ 0) (hlast : x.lastByte = none)
    (hrefusal : x.refusal = none) (hlen : wireLen x.d x.d.len a ≤ 2000) :
    exec (.txDataComplete dt ticket ea eb false false) s = .next (onEgr ticket (standing x a) (lastByteCame ticket x ea eb a)) := by
  have hexec : exec (.txDataComplete dt ticket ea eb false false) s = execTxDataComplete dt ticket ea eb false false s := rfl
  have came := egrOf_lastByteCame hx ea eb
  have pairs : (lastByteCame ticket x ea eb a).fp.pairs = a.fp.pairs := by simp [lastByteCame, onEgr]
  have now : (lastByteCame ticket x ea eb a).clk.now = a.clk.now := by simp [lastByteCame, onEgr]
  have completes : exec (.txDataComplete dt ticket ea eb false false) s = .next (signWhenReady ticket (lastByteCame ticket x ea eb a)) := by
    simp only [hexec, execTxDataComplete, done, ha, hx, hlast, hcells, Option.isSome_none, decide_false, Bool.false_and, Bool.or_self,
      Bool.false_eq_true, if_false, cdcPass_clk]
    rfl
  rw [completes]
  simp only [signWhenReady, startSign, came, withData, hstage, Option.isSome_some, decide_true, Bool.and_self, if_true, hrefusal, hbypass,
    wireLen_congr pairs, fieldRoom_congr pairs, now, Nat.not_lt.mpr hlen, if_false]
  rfl

end data

end frame

/-! ## One completion alone in its queue's order (R62, R241) -/

theorem completionWritten_out (q : Nat) (c : TxComp) (rest : List (Nat × Option TxComp)) (s : State) :
    (completionWritten q c rest s).out = s.out ++ [.txComp q (txqOf q s).phase c,
      .dma ((txqOf q s).cbase + 32 * (txqOf q s).ctail) (txCompletionBytes (txqOf q s).phase c)] := by
  simp [completionWritten, onTxq]

/-- The ring behind a completion. -/
theorem txqOf_completionWritten (q : Nat) (c : TxComp) (rest : List (Nat × Option TxComp)) (s : State) :
    txqOf q (completionWritten q c rest s) = { txqOf q s with
      order := rest, ctail := ((txqOf q s).ctail + 1) % (txqOf q s).csize
      phase := if ((txqOf q s).ctail + 1) % (txqOf q s).csize = 0 then !(txqOf q s).phase else (txqOf q s).phase
      status := smMod 0 (txqOf q s).status (txStatusNo c.status) wrap1 } := by
  have before (b : Bytes) : txqOf q (cdcPass cdcToPcie 2 (emit (.dma ((txqOf q s).cbase + 32 * (txqOf q s).ctail) b)
      (emit (.txComp q (txqOf q s).phase c) s))) = txqOf q s := by simp [txqOf]
  unfold completionWritten
  rw [txqOf_onTxq_same, before]

@[simp] theorem txInterrupted_fp (x : TxQ) (s : State) : (txInterrupted x s).fp = s.fp := by
  unfold txInterrupted
  split
  · rfl
  · exact (heard_msix _ s).told.fp

@[simp] theorem txqOf_txInterrupted (q : Nat) (x : TxQ) (s : State) : txqOf q (txInterrupted x s) = txqOf q s := by simp [txqOf]

/-- The queue's ring has room for a completion, and the link carries it. -/
structure TxRoom (q : Nat) (s : State) : Prop where
  pcie : pcieDown s = false
  size : (txqOf q s).csize ≠ 0
  room : ((txqOf q s).ctail + 1) % (txqOf q s).csize ≠ (txqOf q s).chead

section single
variable {q : Nat} {c : TxComp} {s : State} (horder : (txqOf q s).order = [(c.desc, none)]) (hroom : TxRoom q s)

/-- The completion takes its place in the queue's order. -/
def orderFilled (q : Nat) (c : TxComp) (s : State) : State :=
  onTxq q (fun x => { x with order := x.order.map (fun e => if e.1 = c.desc && e.2.isNone then (e.1, some c) else e) }) s

include horder

theorem txqOf_orderFilled : txqOf q (orderFilled q c s) = { txqOf q s with order := [(c.desc, some c)] } := by
  simp [orderFilled, horder]

include hroom

/-- A completion alone in its queue's order is written at once. -/
theorem completeTx_of_single : completeTx q c s = txInterrupted (txqOf q (orderFilled q c s))
    (ticketFreed q c.desc (completionWritten q c [] (orderFilled q c s))) := by
  obtain ⟨hpcie, hsize, hroom⟩ := hroom
  have filled := txqOf_orderFilled horder
  have flushed := flushTx_of_room (q := q) (d := c.desc) (n := 0) (c := c) (rest := []) (s := orderFilled q c s)
    (by rw [filled]) hpcie (by rw [filled]; exact hsize) (by rw [filled]; exact hroom)
  have stands : (txqOf q s).order.any (fun e => e.1 = c.desc) = true := by simp [horder]
  have one : (txqOf q (orderFilled q c s)).order.length = 1 := by rw [filled]; rfl
  unfold completeTx
  simp only [stands, if_true]
  rw [show onTxq q _ s = orderFilled q c s from rfl, one]
  exact flushed

/-- It is sent to the host as R241 lays it out, and the ring has moved on. -/
theorem completeTx_sends : ∃ o, (completeTx q c s).out = s.out ++ o ∧ .txComp q (txqOf q s).phase c ∈ o ∧
    .dma ((txqOf q s).cbase + 32 * (txqOf q s).ctail) (txCompletionBytes (txqOf q s).phase c) ∈ o ∧
    (txqOf q (completeTx q c s)).order = [] ∧
    (txqOf q (completeTx q c s)).ctail = ((txqOf q s).ctail + 1) % (txqOf q s).csize ∧
    (completeTx q c s).fp.egr = s.fp.egr.filter (fun y => !(y.q.val = q && y.desc = c.desc && y.stage = .refused)) := by
  have filled := txqOf_orderFilled horder
  obtain ⟨o, ho⟩ := (sent_txInterrupted (txqOf q (orderFilled q c s)) (ticketFreed q c.desc (completionWritten q c [] (orderFilled q c s)))).out
  have queue : txqOf q (ticketFreed q c.desc (completionWritten q c [] (orderFilled q c s))) =
      txqOf q (completionWritten q c [] (orderFilled q c s)) := by simp [txqOf, ticketFreed]
  have moved := txqOf_completionWritten q c [] (orderFilled q c s)
  rw [completeTx_of_single horder hroom, ho, txqOf_txInterrupted, txInterrupted_fp, queue, moved, filled]
  refine ⟨[.txComp q (txqOf q s).phase c, .dma ((txqOf q s).cbase + 32 * (txqOf q s).ctail)
    (txCompletionBytes (txqOf q s).phase c)] ++ o, ?_, by simp, by simp, rfl, rfl, ?_⟩
  · rw [ticketFreed, returning_out, onFp_out, completionWritten_out, filled, List.append_assoc]
    rfl
  · simp [ticketFreed, completionWritten, orderFilled, onTxq]

end single

/-! ## Release (R89, R90) -/

/-- The queue counts a late release, with the event. -/
def releaseCounted (late : Bool) (q : Nat) (s : State) : State :=
  if late then raise 64 [] (onTxq q (fun q => { q with lateRel := wrap1 q.lateRel }) s) else s

section released
variable (late : Bool) (q : Nat) (s : State)

@[simp] theorem releaseCounted_egr : (releaseCounted late q s).fp.egr = s.fp.egr := by cases late <;> simp [releaseCounted, onTxq]
@[simp] theorem releaseCounted_pairs : (releaseCounted late q s).fp.pairs = s.fp.pairs := by cases late <;> simp [releaseCounted, onTxq]
@[simp] theorem releaseCounted_se : (releaseCounted late q s).se = s.se := by cases late <;> simp [releaseCounted, onTxq]
@[simp] theorem releaseCounted_plat : (releaseCounted late q s).plat = s.plat := by cases late <;> simp [releaseCounted, onTxq]

theorem releaseCounted_out : ∃ o, (releaseCounted late q s).out = s.out ++ o := by
  cases late with
  | true => exact (heard_raise 64 [] (onTxq q (fun q => { q with lateRel := wrap1 q.lateRel }) s)).out
  | false => exact ⟨[], (List.append_nil _).symm⟩

theorem releaseCounted_pend : (releaseCounted true q s).ev.pend.getLsbD 64 = true := by
  rw [releaseCounted, if_pos rfl]
  exact raise_pend _ _ (by decide) (by decide)

theorem txqOf_releaseCounted : txqOf q (releaseCounted late q s) =
    { txqOf q s with lateRel := if late then wrap1 (txqOf q s).lateRel else (txqOf q s).lateRel } := by
  cases late with
  | true =>
    have same (t : State) : txqOf q (raise 64 [] t) = txqOf q t := by simp [txqOf]
    rw [releaseCounted, if_pos rfl, same, txqOf_onTxq_same]
    rfl
  | false => rfl

end released

section release
variable {dt ticket l : Nat} {late : Bool} {s a : State} {x : Egr}

/-- A release that is due is made at once, late or in time. -/
theorem releaseRow_of_due (ha : pass dt s = a) (hx : egrOf ticket a = some x) (hstage : x.stage = .signed) (hlast : x.lastByte = some l)
    (hdue : if late then l + 194 < x.doneAt else l + 186 ≤ a.clk.now ∧ x.doneAt ≤ l + 194) :
    exec (if late then .lateRelease dt ticket else .egressRelease dt ticket) s = .next (releaseEgr x late a.clk.now a) := by
  cases late with
  | true =>
    have hexec : exec (.lateRelease dt ticket) s = execLateRelease dt ticket s := rfl
    have tooLate : egrOnTime x = false := by
      unfold egrOnTime
      rw [hlast]
      exact decide_eq_false (Nat.not_le.mpr (by simpa [egrLast] using hdue))
    simp only [if_true, hexec, execLateRelease, done, ha, hx, hstage, tooLate, decide_true, Bool.not_false, Bool.and_self]
  | false =>
    have hexec : exec (.egressRelease dt ticket) s = execEgressRelease dt ticket s := rfl
    obtain ⟨hrel, htime⟩ : l + 186 ≤ a.clk.now ∧ x.doneAt ≤ l + 194 := by simpa using hdue
    have inTime : egrOnTime x = true := by
      unfold egrOnTime
      rw [hlast]
      exact decide_eq_true htime
    simp only [Bool.false_eq_true, if_false, hexec, execEgressRelease, done, ha, hx, hlast, hstage, inTime, egrFirst, hrel,
      decide_true, Bool.and_self, if_true]

/-- To a port that is up a frame of no pair is released as it stands. -/
theorem releaseEgr_of_up (hpair : x.d.pair = false) (hmode : (pairOf (x.d.port / 2) a).mode = .independent)
    (hup : portUp x.d.port a = true) (at_ : Nat) : releaseEgr x late at_ a =
      joinLine x.d.port at_ (1 + x.q) (.mine x.ticket) (onFp (fun f => { f with
        egr := f.egr.filter (fun z => z.ticket ≠ x.ticket) ++ [{ x with stage := .released, toSend := [x.d.port.val] }] })
        (releaseCounted late x.q a)) := by
  have ups : (namedPorts x.d).filter (fun p => portUp p a) = [x.d.port.val] := by simp [namedPorts, hpair, hup]
  have mode : (pairOf (x.d.port / 2) (releaseCounted late x.q a)).mode = .independent := by
    rw [← hmode, pairOf, releaseCounted_pairs]
    rfl
  have plain (seq : Nat) : x.out.map (fun f => dress x.d 0 seq .independent f) = x.out := by simp [dress]
  unfold releaseEgr
  simp only [ups, List.cons_ne_nil, if_false]
  rw [show (if late = true then raise 64 [] (onTxq x.q (fun q => { q with lateRel := wrap1 q.lateRel }) a) else a) =
    releaseCounted late x.q a from rfl]
  simp only [mode, reduceCtorEq, decide_false, Bool.false_and, Bool.or_self, Bool.false_eq_true, if_false, plain, List.foldl_cons,
    List.foldl_nil]

/-- To a port that is down it is refused (R89). -/
theorem releaseEgr_of_down (hpair : x.d.pair = false) (hup : portUp x.d.port a = false) (at_ : Nat) :
    releaseEgr x late at_ a = refuseEgr x.ticket .portDown (releaseCounted late x.q a) := by
  have ups : (namedPorts x.d).filter (fun p => portUp p a) = [] := by simp [namedPorts, hpair, hup]
  unfold releaseEgr
  simp only [ups, if_true]
  rfl

/-- The frame released to its port is found under its ticket. -/
theorem egrOf_released (p at_ rank : Nat) (s : State) (y : Egr) :
    egrOf y.ticket (joinLine p at_ rank (.mine y.ticket) (onFp (fun f => { f with
      egr := f.egr.filter (fun z => z.ticket ≠ y.ticket) ++ [y] }) s)) = some y := by
  have gone : (s.fp.egr.filter (fun z => decide (z.ticket ≠ y.ticket))).find? (fun z => z.ticket == y.ticket) = none := by
    simp [List.find?_eq_none]
  simp only [egrOf, joinLine, onPort, onFp_fp, List.find?_append, gone, Option.none_or]
  simp

end release

/-! ## Refusal (R88) -/

/-- The state of a refused frame without an entry, before its completion. -/
def refusedAt (x : Egr) (st : TxStatus) (s : State) : State :=
  onEgr x.ticket (fun y => { y with stage := .refused, refusal := some st, slot := none, latched := [] })
    (match x.slot with
      | some i => refDown i s
      | none => s)

theorem refuseEgr_of_noEntry {x : Egr} {s : State} (hx : egrOf x.ticket s = some x) (hentry : x.entry = none) (st : TxStatus) :
    refuseEgr x.ticket st s = completeTx x.q
      { desc := x.desc, status := st, ports := [], tsA := 0, tsB := 0, counter := x.counter } (refusedAt x st s) := by
  unfold refuseEgr
  simp only [hx, hentry]
  rfl

theorem txqOf_refusedAt (q : Nat) (x : Egr) (st : TxStatus) (s : State) : txqOf q (refusedAt x st s) = txqOf q s := by
  unfold refusedAt txqOf
  split <;> simp [onEgr]

theorem refusedAt_out (x : Egr) (st : TxStatus) (s : State) : (refusedAt x st s).out = s.out := by
  unfold refusedAt
  split <;> simp [onEgr]

theorem refusedAt_plat (x : Egr) (st : TxStatus) (s : State) : (refusedAt x st s).plat = s.plat := by
  unfold refusedAt
  split <;> simp [onEgr]

/-! ## The last bit (R90, R241) -/

/-- Forwarded frames that leave a port change ports, pairs and outputs alone. -/
structure Drained (s t : State) : Prop where
  parts : ∃ p q o, t = { s with fp := { s.fp with ports := p, pairs := q }, out := o }
  out : ∃ o, t.out = s.out ++ o

theorem Drained.refl (s : State) : Drained s s := ⟨⟨_, _, _, rfl⟩, [], (List.append_nil _).symm⟩

theorem Drained.trans {s t u : State} (h : Drained s t) (k : Drained t u) : Drained s u := by
  obtain ⟨o, ho⟩ := h.out
  obtain ⟨o2, ho2⟩ := k.out
  refine ⟨?_, o ++ o2, by rw [ho2, ho, List.append_assoc]⟩
  obtain ⟨_, _, _, rfl⟩ := h.parts
  obtain ⟨_, _, _, rfl⟩ := k.parts
  exact ⟨_, _, _, rfl⟩

theorem drainLine_drained (p n : Nat) (s : State) : Drained s (drainLine p n s) := by
  induction n generalizing s with
  | zero => exact .refl s
  | succ n ih =>
    unfold drainLine
    split
    · exact Drained.trans ⟨⟨_, _, _, rfl⟩, [_], rfl⟩ (ih _)
    · exact .refl s

theorem drainPort_drained (p : Nat) (s : State) : Drained s (drainPort p s) := drainLine_drained p _ s

theorem Drained.egr {s t : State} (h : Drained s t) : t.fp.egr = s.fp.egr := by obtain ⟨_, _, _, rfl⟩ := h.parts; rfl

theorem Drained.txqOf {s t : State} (h : Drained s t) (q : Nat) : Machine.txqOf q t = Machine.txqOf q s := by
  obtain ⟨_, _, _, rfl⟩ := h.parts
  rfl

/-- The frame's last bit has left its port. -/
def lastBitLeft (port : Nat) (rest : List LineItem) (f : Frame) (s : State) : State :=
  emit (.wire port false f) (cdcPass (cdcToLine + port) ((f.len + 7) / 8)
    (onPort port (fun p => { p with line := rest, freeAt := s.clk.now }) s))

/-- The completion of a frame sent on one port. -/
def sentComp (x : Egr) (ts : Nat) : TxComp :=
  { desc := x.desc, status := .sent, ports := [x.d.port.val], tsA := ts, tsB := 0, counter := x.counter }

/-- The frame's ticket is free. -/
def ticketGone (ticket : Nat) (s : State) : State :=
  returning (onFp (fun f => { f with egr := f.egr.filter (fun z => z.ticket ≠ ticket) })) s

/-- A frame of one port that it has left is complete. -/
theorem giveUp_of_sent {x : Egr} {ts : Nat} (htoSend : x.toSend = [x.d.port.val]) (hsent : x.sent = [(x.d.port.val, ts)])
    (hpair : x.d.pair = false) (hentry : x.entry = none) (s : State) :
    giveUp x x.d.port s = completeTx x.q (sentComp x ts) (ticketGone x.ticket s) := by
  have last : x.toSend.filter (· ≠ x.d.port.val) = [] := by simp [htoSend]
  simp only [giveUp, last, if_true, finishEgr, hsent, hpair, hentry]
  simp [sentComp, ticketGone]

section transmit
variable {dt ticket stamp : Nat} {s a : State} {x : Egr} {f : Frame} (ha : pass dt s = a) (hx : egrOf ticket a = some x)
  (hhead : (portOf x.d.port a).line.head?.map (·.item) = some (.mine ticket))

include ha hx hhead in
/-- The last bit of a frame of one port completes it (R90, R241). -/
theorem transmitComplete_of_single (htoSend : x.toSend = [x.d.port.val]) (hsent : x.sent = []) (hpair : x.d.pair = false)
    (hstep : x.d.oneStep = false) (hout : x.out = some f) (hentry : x.entry = none) :
    let ts := ((stamp : Int) + txLat x.d.port (portOf x.d.port a).mode a).toNat
    ∃ rest, exec (.transmitComplete dt ticket x.d.port stamp) s = .next (drainPort x.d.port
      (completeTx x.q (sentComp x ts) (ticketGone ticket (lastBitLeft x.d.port rest (forPort x.d.port f) a)))) := by
  intro ts
  have hexec : exec (.transmitComplete dt ticket x.d.port stamp) s = execTransmitComplete dt ticket x.d.port stamp s := rfl
  obtain ⟨i, rest, hline, hmine⟩ : ∃ i rest, (portOf x.d.port a).line = i :: rest ∧ i.item = .mine ticket := by
    cases hl : (portOf x.d.port a).line with
    | nil => simp [hl] at hhead
    | cons i rest => exact ⟨i, rest, rfl, by simpa [hl] using hhead⟩
  obtain rfl := ticket_of_egrOf hx
  have given := giveUp_of_sent (ts := ts) (x := { x with out := some f, sent := x.sent ++ [(x.d.port.val, ts)] }) htoSend (by simp [hsent])
    hpair hentry (lastBitLeft x.d.port rest (forPort x.d.port f) a)
  refine ⟨rest, ?_⟩
  simp only [hexec, execTransmitComplete, done, ha, hx, hline, hmine, ne_eq, not_true_eq_false, if_false, hout, hstep,
    Bool.false_eq_true]
  exact congrArg (fun t => Host.Outcome.next (drainPort x.d.port t)) given


end transmit

section left
variable (port : Nat) (rest : List LineItem) (f : Frame) (q ticket : Nat) (s : State)

theorem lastBitLeft_out : (lastBitLeft port rest f s).out = s.out ++ [.wire port false f] := by simp [lastBitLeft, onPort]

theorem ticketGone_out : (ticketGone ticket s).out = s.out := by simp [ticketGone]

theorem txqOf_lastBitLeft : txqOf q (ticketGone ticket (lastBitLeft port rest f s)) = txqOf q s := by
  simp [txqOf, ticketGone, lastBitLeft, onPort]

theorem plat_lastBitLeft : (ticketGone ticket (lastBitLeft port rest f s)).plat = s.plat := by
  simp [ticketGone, lastBitLeft, onPort]

theorem egr_ticketGone : (ticketGone ticket s).fp.egr = s.fp.egr.filter (fun z => z.ticket ≠ ticket) := by simp [ticketGone]

end left

/-- The completion of a frame sent on one port, byte by byte (R241). -/
theorem txCompletionBytes_sentComp (ph : Bool) (x : Egr) (ts : Nat) : txCompletionBytes ph (sentComp x ts) =
    natLE 2 x.desc ++ natLE 1 0 ++ natLE 1 (2 ^ x.d.port.val + if ph then 16 else 0) ++ natLE 4 (ts / 65536 % 1000000000) ++
      natLE 2 (ts / 65536 / 1000000000) ++ natLE 2 ts ++ List.replicate 8 0 ++ natLE 8 x.counter ++ List.replicate 4 0 := by
  have phase : 16 * b2n ph = if ph then 16 else 0 := by cases ph <;> rfl
  have noStamp : stampBytes 0 = List.replicate 8 0 := by decide
  simp only [txCompletionBytes, sentComp, txStatusNo, List.map_cons, List.map_nil, List.sum_cons, List.sum_nil, Nat.add_zero, phase,
    noStamp]
  simp only [stampBytes, List.append_assoc]

/-! ## The rows -/

/-- A bypass descriptor with a ticket, as the frame that is fetched (R61, R86, R240). -/
theorem descriptor_fetched {q : Fin 64} {d : TxDesc} {rest : List TxDesc} {s : State} {i : Instr}
    (hdescs : (txqOf q s).descs = d :: rest) (hsize : (txqOf q s).size ≠ 0) (hpcie : pcieDown s = false)
    (hrow : exec i s = .next (fetchDesc q (inTurn turnTicket 0 (4 + q) s)))
    (hmay : egressMayTake (inTurn turnTicket 0 (4 + q) s) = true) (hbypass : d.bypass = true) (hgood : descBad d s = false) :
    ∃ t e, exec i s = .next t ∧ t.fp.egr = s.fp.egr ++ [e] ∧ e.ticket = s.fp.nextTicket ∧ e.q = q ∧ e.d = d ∧ e.stage = .fetching ∧
      e.desc = (txqOf q s).dhead ∧ e.refusal = none ∧ t.fp.nextTicket = s.fp.nextTicket + 1 ∧ (txqOf q t).descs = rest ∧
      (txqOf q t).dhead = ((txqOf q s).dhead + 1) % (txqOf q s).size ∧
      (txqOf q t).order = (txqOf q s).order ++ [((txqOf q s).dhead, none)] ∧ t.se = s.se := by
  have good : descBad d (inTurn turnTicket 0 (4 + q) s) = false := by
    rw [← hgood]
    simp only [descBad, pairOf, inTurn_fp]
  obtain ⟨e, hfetch, hticket, hq, hd, hstage, hdesc, hrefusal⟩ := fetchDesc_of_bypass
    (by rw [txqOf_inTurn]; exact hdescs) (by rw [txqOf_inTurn]; exact hsize) (by rw [pcieDown, inTurn_plat]; exact hpcie)
    hmay hbypass good
  rw [txqOf_inTurn] at hdesc
  rw [inTurn_fp] at hticket
  rw [hfetch] at hrow
  have queue : txqOf q (cdcPass cdcFromPcie 1 (inTurn turnTicket 0 (4 + q) s)) = txqOf q s := by simp [txqOf]
  have posted : txqOf q (onFp (fun f => { f with egr := f.egr ++ [e], nextTicket := f.nextTicket + 1 })
      (onTxq q (descTaken rest) (cdcPass cdcFromPcie 1 (inTurn turnTicket 0 (4 + q) s)))) = descTaken rest (txqOf q s) := by
    rw [← queue]
    exact txqOf_onTxq_same q _ (descTaken rest)
  refine ⟨_, e, hrow, ?_, hticket, hq, hd, hstage, hdesc, hrefusal, ?_, ?_, ?_, ?_, ?_⟩
  case refine_3 | refine_4 | refine_5 => rw [posted]; rfl
  all_goals simp [onTxq]

section due
variable {dt ticket stamp : Nat} {s a : State} {x : Egr} (ha : pass dt s = a) (hx : egrOf ticket a = some x)
include ha hx

/-- A bypass frame whose data are complete stands to be sent (R87, R240). -/
theorem bypassData_stands (ea eb : BitVec 128) (hbypass : x.d.bypass = true) (hrefusal : x.refusal = none) (hstage : x.stage = .fetching)
    (hcells : x.cells ≠ 0) (hlast : x.lastByte = none) (hlen : wireLen x.d x.d.len a ≤ 2000) :
    ∃ t, exec (.txDataComplete dt ticket ea eb false false) s = .next t ∧
      egrOf ticket t = some (standing x a (withData x ea eb a.clk.now x)) ∧ t.out = a.out ∧ t.se = a.se := by
  have found := egrOf_onEgr (f := standing x a) (lastByteCame ticket x ea eb a) (t := ticket) (fun _ => rfl)
  rw [egrOf_lastByteCame hx, Option.map_some] at found
  exact ⟨_, txDataComplete_of_bypass ha hx hbypass ea eb hstage hcells hlast hrefusal hlen, found,
    by simp [lastByteCame, onEgr], by simp [lastByteCame, onEgr]⟩

section release
variable {l : Nat} {late : Bool} (hstage : x.stage = .signed) (hpair : x.d.pair = false) (hlast : x.lastByte = some l)
  (hdue : if late then l + 194 < x.doneAt else l + 186 ≤ a.clk.now ∧ x.doneAt ≤ l + 194)
include hstage hpair hlast hdue

/-- A frame due for release to a port that is up is released, and one late is counted with its event (R89). -/
theorem dueFrame_released (hmode : (pairOf (x.d.port / 2) a).mode = .independent) (hup : portUp x.d.port a = true) :
    ∃ t, exec (if late then .lateRelease dt ticket else .egressRelease dt ticket) s = .next t ∧
      egrOf ticket t = some { x with stage := .released, toSend := [x.d.port.val] } ∧ (late = true → t.ev.pend.getLsbD 64 = true) ∧
      (txqOf x.q t).lateRel = (if late then wrap1 (txqOf x.q a).lateRel else (txqOf x.q a).lateRel) ∧ t.se = a.se := by
  have released := releaseRow_of_due ha hx hstage hlast hdue
  have found := egrOf_released x.d.port a.clk.now (1 + x.q) (releaseCounted late x.q a)
    { x with stage := .released, toSend := [x.d.port.val] }
  rw [releaseEgr_of_up hpair hmode hup] at released
  refine ⟨_, released, ?_, ?_, ?_, releaseCounted_se late x.q a⟩
  · rw [← ticket_of_egrOf hx]
    exact found
  · rintro rfl
    exact releaseCounted_pend x.q a
  · exact congrArg TxQ.lateRel (txqOf_releaseCounted late x.q a)

/-- One due for release to a port that is down is refused PORT_DOWN (R89, R241). -/
theorem dueFrame_refused (hup : portUp x.d.port a = false) (horder : (txqOf x.q a).order = [(x.desc, none)])
    (hroom : TxRoom x.q a) (hentry : x.entry = none) :
    ∃ t o ph, exec (if late then .lateRelease dt ticket else .egressRelease dt ticket) s = .next t ∧ t.out = a.out ++ o ∧
      .txComp x.q.val ph { desc := x.desc, status := .portDown, ports := [], tsA := 0, tsB := 0, counter := x.counter } ∈ o := by
  have released := releaseRow_of_due ha hx hstage hlast hdue
  have found : egrOf x.ticket (releaseCounted late x.q a) = some x := by
    rw [egrOf, releaseCounted_egr, ticket_of_egrOf hx]
    exact hx
  rw [releaseEgr_of_down hpair hup, refuseEgr_of_noEntry found hentry] at released
  have queue := (txqOf_refusedAt x.q x .portDown (releaseCounted late x.q a)).trans (txqOf_releaseCounted late x.q a)
  have carries : pcieDown (refusedAt x .portDown (releaseCounted late x.q a)) = false := by
    rw [pcieDown, refusedAt_plat, releaseCounted_plat]
    exact hroom.pcie
  obtain ⟨o, hout, hcomp, -⟩ := completeTx_sends (s := refusedAt x .portDown (releaseCounted late x.q a))
    (c := { desc := x.desc, status := .portDown, ports := [], tsA := 0, tsB := 0, counter := x.counter })
    (by rw [queue]; exact horder) ⟨carries, by rw [queue]; exact hroom.size, by rw [queue]; exact hroom.room⟩
  obtain ⟨o1, ho1⟩ := releaseCounted_out late x.q a
  exact ⟨_, o1 ++ o, _, released, by rw [hout, refusedAt_out, ho1, List.append_assoc], List.mem_append_right _ hcomp⟩

end release

/-- The last bit of a bypass frame leaves its port and completes it (R90, R241). -/
theorem lastBit_completes {f : Frame} (htoSend : x.toSend = [x.d.port.val]) (hsent : x.sent = []) (hpair : x.d.pair = false)
    (hstep : x.d.oneStep = false) (hout : x.out = some f) (hentry : x.entry = none)
    (hhead : (portOf x.d.port a).line.head?.map (·.item) = some (.mine ticket))
    (horder : (txqOf x.q a).order = [(x.desc, none)]) (hroom : TxRoom x.q a) {ts : Nat}
    (hts : ts = ((stamp : Int) + txLat x.d.port (portOf x.d.port a).mode a).toNat) :
    ∃ t o ph, exec (.transmitComplete dt ticket x.d.port stamp) s = .next t ∧ egrOf ticket t = none ∧
      t.out = a.out ++ [.wire x.d.port false (forPort x.d.port f)] ++ o ∧ .txComp x.q.val ph (sentComp x ts) ∈ o ∧
      .dma ((txqOf x.q a).cbase + 32 * (txqOf x.q a).ctail) (txCompletionBytes ph (sentComp x ts)) ∈ o ∧
      (txqOf x.q t).order = [] ∧ (txqOf x.q t).ctail = ((txqOf x.q a).ctail + 1) % (txqOf x.q a).csize := by
  obtain ⟨rest, row⟩ := transmitComplete_of_single (stamp := stamp) ha hx hhead htoSend hsent hpair hstep hout hentry
  rw [← hts] at row
  have queue := txqOf_lastBitLeft x.d.port rest (forPort x.d.port f) x.q ticket a
  have carries : pcieDown (ticketGone ticket (lastBitLeft x.d.port rest (forPort x.d.port f) a)) = false := by
    rw [pcieDown, plat_lastBitLeft]
    exact hroom.pcie
  obtain ⟨o, hwrites, hcomp, hdma, hempty, hctail, hegr⟩ := completeTx_sends (c := sentComp x ts)
    (by rw [queue]; exact horder) ⟨carries, by rw [queue]; exact hroom.size, by rw [queue]; exact hroom.room⟩
  have drained := drainPort_drained x.d.port
    (completeTx x.q (sentComp x ts) (ticketGone ticket (lastBitLeft x.d.port rest (forPort x.d.port f) a)))
  obtain ⟨o1, ho1⟩ := drained.out
  rw [queue] at hcomp hdma hctail
  refine ⟨_, o ++ o1, _, row, ?_, ?_, List.mem_append_left _ hcomp, List.mem_append_left _ hdma, ?_, ?_⟩
  · rw [egrOf, drained.egr, hegr, egr_ticketGone, List.find?_eq_none]
    simp
  · rw [ho1, hwrites, ticketGone_out, lastBitLeft_out, List.append_assoc _ o]
  · rw [drained.txqOf, hempty]
  · rw [drained.txqOf, hctail]

end due

/-- Settles O42: the descriptor rows, then the frame's data, its release and its last bit. -/
theorem transmitPath : Obligations.TransmitPath := by
  unfold Obligations.TransmitPath
  refine ⟨?descriptor, ?frame⟩
  case descriptor =>
    intro q d rest s i x b hdescs hsize hpcie hrow
    have row := fetchRow_of_head hrow
    refine ⟨fun hmay => row.trans (congrArg _ (fetchDesc_of_noTicket (d := d) (rest := rest) ?_ ?_ ?_ hmay)),
      fun hmay hbypass hgood => descriptor_fetched hdescs hsize hpcie row hmay hbypass hgood⟩
    · rw [txqOf_inTurn]
      exact hdescs
    · rw [txqOf_inTurn]
      exact hsize
    · rw [pcieDown, inTurn_plat]
      exact hpcie
  case frame =>
    intro dt ticket stamp ea eb s x
    generalize ha : pass dt s = a
    intro _ hx hbypass hrefusal
    refine ⟨?data, ?release, ?lastBit⟩
    case data =>
      intro hstage hcells hlast len zeros hlen
      obtain ⟨t, row, found, hout, hse⟩ := bypassData_stands ha hx ea eb hbypass hrefusal hstage hcells hlast hlen
      exact ⟨t, _, row, found, rfl, rfl, rfl, rfl, hout, hse⟩
    case release =>
      exact fun late l hstage hpair hmode hlast hdue => ⟨fun hup => dueFrame_released ha hx hstage hpair hlast hdue hmode hup,
        fun hup horder hpcie hsize hroom hentry =>
          dueFrame_refused ha hx hstage hpair hlast hdue hup horder ⟨hpcie, hsize, hroom⟩ hentry⟩
    case lastBit =>
      intro f hstage htoSend hsent hpair hstep hout hentry hhead horder hpcie hsize hroom ts
      obtain ⟨t, o, ph, row, hgone, hwire, hcomp, hdma, hempty, hctail⟩ :=
        lastBit_completes ha hx htoSend hsent hpair hstep hout hentry hhead horder ⟨hpcie, hsize, hroom⟩ rfl
      rw [txCompletionBytes_sentComp] at hdma
      exact ⟨t, o, ph, row, hgone, hwire, hcomp, hdma, hempty, hctail⟩

end Sys2Proof.Claim
end

section
/-! What other work leaves of a frame in flight: its code, its stage, its entry and its bytes (R79, R147, R203, R206). -/
namespace Sys2Proof.Claim
open Sys2Proof.Machine

/-- What the end of its tag work settles of a frame. -/
def core (y : Ing) : IngStage × Nat × Option Nat × Option Code × Frame := (y.stage, y.doneAt, y.entry, y.code, y.frame)

/-- No applet waits for an event. -/
def NoneWaits (s : State) : Prop := ∀ y ∈ s.cmd.applets, y.2.wait = .none

/-- The frames keep their tickets, those under ticket `t` what is settled of them; no pending event is cleared, the pairs keep
their settings, and no command is answered that no applet waits for. -/
structure Undisturbed (t : Nat) (s u : State) : Prop where
  ing : ∃ f : Ing → Ing, u.fp.ing = s.fp.ing.map f ∧ ∀ y, (f y).ticket = y.ticket ∧ (y.ticket = t → core (f y) = core y)
  pend : ∀ n, s.ev.pend.getLsbD n = true → u.ev.pend.getLsbD n = true
  pairs : u.fp.pairs = s.fp.pairs
  cmd : NoneWaits s → u.cmd = s.cmd

variable {t : Nat}

theorem Undisturbed.of_ing {s u : State} (hing : u.fp.ing = s.fp.ing) (hpend : ∀ n, s.ev.pend.getLsbD n = true → u.ev.pend.getLsbD n = true)
    (hpairs : u.fp.pairs = s.fp.pairs) (hcmd : NoneWaits s → u.cmd = s.cmd) : Undisturbed t s u :=
  ⟨⟨id, by rw [List.map_id, hing], fun _ => ⟨rfl, fun _ => rfl⟩⟩, hpend, hpairs, hcmd⟩

theorem Undisturbed.refl (s : State) : Undisturbed t s s := .of_ing rfl (fun _ h => h) rfl (fun _ => rfl)

theorem Undisturbed.trans {s u v : State} (h : Undisturbed t s u) (k : Undisturbed t u v) : Undisturbed t s v := by
  obtain ⟨f, hf, hfc⟩ := h.ing
  obtain ⟨g, hg, hgc⟩ := k.ing
  refine ⟨⟨g ∘ f, by rw [hg, hf, List.map_map], fun y => ⟨(hgc _).1.trans (hfc y).1, fun hy => ?_⟩⟩,
    fun n hn => k.pend n (h.pend n hn), k.pairs.trans h.pairs, fun idle => ?_⟩
  · exact ((hgc (f y)).2 ((hfc y).1.trans hy)).trans ((hfc y).2 hy)
  · have same := h.cmd idle
    exact (k.cmd (by unfold NoneWaits; rw [same]; exact idle)).trans same

theorem Undisturbed.foldl {α : Type} {f : State → α → State} (h : ∀ s x, Undisturbed t s (f s x)) (l : List α) (s : State) :
    Undisturbed t s (l.foldl f s) := by
  induction l generalizing s with
  | nil => exact .refl s
  | cons x l ih => exact (h s x).trans (ih _)

/-- A change that keeps the path, the events and the commands. -/
theorem Undisturbed.of_apart {s u : State} (hfp : u.fp = s.fp) (hev : u.ev = s.ev) (hcmd : u.cmd = s.cmd) : Undisturbed t s u :=
  .of_ing (by rw [hfp]) (fun n hn => by rw [hev]; exact hn) (by rw [hfp]) (fun _ => hcmd)

/-- A change of the frames that keeps tickets, and what is settled of those under `t`. -/
theorem undisturbed_mapIng (f : Ing → Ing) (s : State) (h : ∀ y, (f y).ticket = y.ticket ∧ (y.ticket = t → core (f y) = core y)) :
    Undisturbed t s (onFp (fun x => { x with ing := x.ing.map f }) s) := ⟨⟨f, rfl, h⟩, fun _ hn => hn, rfl, fun _ => rfl⟩

theorem undisturbed_onIng (k : Nat) (f : Ing → Ing) (s : State) (h : ∀ y, (f y).ticket = y.ticket)
    (hc : k = t → ∀ y, core (f y) = core y) : Undisturbed t s (onIng k f s) := by
  refine undisturbed_mapIng _ s (fun y => ?_)
  split
  next hy => exact ⟨h y, fun ht => hc (hy.symm.trans ht) y⟩
  next => exact ⟨rfl, fun _ => rfl⟩

theorem Heard.undisturbed {s u : State} (h : Heard s u) : Undisturbed t s u := by
  refine .of_ing (by rw [h.told.fp]) h.pend (by rw [h.told.fp]) (fun idle => ?_)
  obtain ⟨_, _, _, _, _, _, _, _, ⟨_, ha⟩, rfl⟩ := h.told
  simp only [ha idle]

theorem undisturbed_raise (n : Nat) (d : List Nat) (s : State) : Undisturbed t s (raise n d s) := (heard_raise n d s).undisturbed

theorem undisturbed_dataEntry (i : Nat) (f : Entry → Entry) (s : State) : Undisturbed t s (dataEntry i f s) :=
  .of_apart (by simp) (by simp) (dataEntry_apart i f s _ (fun _ _ => rfl))

theorem Sent.undisturbed {s u : State} (h : Sent s u) : Undisturbed t s u := by
  refine .of_ing ?_ (fun n hn => by rw [h.pend]; exact hn) h.pairs (fun _ => h.cmd)
  obtain ⟨_, _, _, _, _, _, _, _, _, _, _, _, _, _, rfl⟩ := h.parts
  rfl

/-! ## The consistency unit's work (R203, R206) -/

theorem undisturbed_onCo (f : Co → Co) (s : State) : Undisturbed t s (onCo f s) := .of_apart rfl rfl rfl
theorem undisturbed_onGroup (g : Nat) (f : Group → Group) (s : State) : Undisturbed t s (onGroup g f s) := .of_apart rfl rfl rfl

theorem undisturbed_postAnswer (g n : Nat) (a : Ans) (s : State) : Undisturbed t s (postAnswer g n a s) :=
  undisturbed_mapIng _ s (fun _ => ⟨rfl, fun _ => rfl⟩)

theorem undisturbed_tally (g : Nat) (a : Ans) (s : State) : Undisturbed t s (tally g a s) := by
  unfold tally
  cases a with
  | open_ => exact .refl s
  | consistent => exact undisturbed_onGroup g _ s
  | inconsistent => exact undisturbed_onGroup g _ s
  | incomplete =>
    simp only
    split
    · exact (undisturbed_onGroup g _ s).trans (undisturbed_raise 77 [g] _)
    · exact undisturbed_onGroup g _ s

theorem undisturbed_retire (g n : Nat) (s : State) : Undisturbed t s (retire g n s) :=
  ((undisturbed_onGroup g _ s).trans (undisturbed_tally g .incomplete _)).trans (undisturbed_postAnswer g n .incomplete _)

theorem undisturbed_slide (g n : Nat) (s : State) : Undisturbed t s (slide g n s) := by
  unfold slide
  extract_lets old a
  have retired : Undisturbed t s a := Undisturbed.foldl (fun u (c : CSlot) => undisturbed_retire g c.n u) _ s
  exact retired.trans (undisturbed_onGroup g _ a)

/-- The instant's window, set by a group's first sample (R203). -/
def primedAt (g n : Nat) (s : State) : State :=
  if (groupOf g s).primed then s else onGroup g (fun p => { p with top := n, primed := true }) s

/-- The window slid to a newer instant (R203). -/
def slidTo (g n : Nat) (s : State) : State := if (groupOf g s).top < n then slide g n s else s

/-- The instant's slot with an operand in it (R203). -/
def slotTaken (g n : Nat) (c : CSlot) (ticket : Nat) (s : State) : State :=
  onFp (fun f => { f with ing := f.ing.map (fun y =>
    if y.ticket = ticket then { y with contribs := y.contribs ++ [Contrib.mk g n .open_] } else y) })
    (onGroup g (fun p => { p with slots := p.slots.filter (fun d => d.n ≠ n) ++ [c] }) s)

theorem undisturbed_primedAt (g n : Nat) (s : State) : Undisturbed t s (primedAt g n s) := by
  unfold primedAt
  split
  · exact .refl s
  · exact undisturbed_onGroup g _ s

theorem undisturbed_slidTo (g n : Nat) (s : State) : Undisturbed t s (slidTo g n s) := by
  unfold slidTo
  split
  · exact undisturbed_slide g n s
  · exact .refl s

theorem undisturbed_slotTaken (g n : Nat) (c : CSlot) (ticket : Nat) (s : State) :
    Undisturbed t s (slotTaken g n c ticket s) := by
  refine (undisturbed_onGroup g _ s).trans (undisturbed_mapIng _ _ (fun y => ?_))
  split <;> exact ⟨rfl, fun _ => rfl⟩

/-- Once the window stands a sample is stale, or its slot takes it, with a request when the instant is complete. -/
theorem commitSample_cases (g k cnt : Nat) (x : Int) (usable : Bool) (ticket port ts : Nat) (s : State) :
    ∃ n, commitSample g k cnt x usable ticket port ts s = stale g (slidTo g n (primedAt g n s)) ∨
      ∃ c, commitSample g k cnt x usable ticket port ts s = slotTaken g n c ticket (slidTo g n (primedAt g n s)) ∨
        ∃ f, commitSample g k cnt x usable ticket port ts s = onCo f (slotTaken g n c ticket (slidTo g n (primedAt g n s))) := by
  unfold commitSample
  extract_lets p n a b q c have_ full c' d e
  refine ⟨n, ?_⟩
  split
  · exact .inl rfl
  · split
    · exact .inl rfl
    · refine .inr ⟨c', ?_⟩
      split
      · exact .inr ⟨_, rfl⟩
      · exact .inl rfl

theorem undisturbed_commitSample (g k cnt : Nat) (x : Int) (usable : Bool) (ticket port ts : Nat) (s : State) :
    Undisturbed t s (commitSample g k cnt x usable ticket port ts s) := by
  have stands (n : Nat) := (undisturbed_primedAt (t := t) g n s).trans (undisturbed_slidTo g n _)
  obtain ⟨n, h | ⟨c, h | ⟨f, h⟩⟩⟩ := commitSample_cases g k cnt x usable ticket port ts s
  · exact h ▸ (stands n).trans (undisturbed_onGroup g _ _)
  · exact h ▸ (stands n).trans (undisturbed_slotTaken g n c ticket _)
  · exact h ▸ ((stands n).trans (undisturbed_slotTaken g n c ticket _)).trans (undisturbed_onCo f _)

theorem undisturbed_commitFrame (idx ticket port ts : Nat) (asdus : List Asdu) (datas : List Bytes) (s : State) :
    Undisturbed t s (commitFrame idx ticket port ts asdus datas s) := by
  unfold commitFrame
  simp only
  split
  · exact .refl s
  · refine Undisturbed.trans (undisturbed_mapIng _ s (fun y => ?_)) (.foldl (fun u e => .foldl (fun v r => ?_) _ u) _ _)
    · split <;> exact ⟨rfl, fun _ => rfl⟩
    · split
      · exact .refl v
      · exact undisturbed_commitSample _ _ _ _ _ _ _ _ v

end Sys2Proof.Claim
end

section
/-! What the jobs of other frames leave of a frame whose work is done (R79, R147, R164, R166, R177). -/
namespace Sys2Proof.Claim
open Sys2Proof.Machine

variable {t : Nat}

theorem undisturbed_onPu (f : Pu → Pu) (s : State) : Undisturbed t s (onPu f s) := .of_apart rfl rfl rfl
theorem undisturbed_onKslot (i : Nat) (f : KSlot → KSlot) (s : State) : Undisturbed t s (onKslot i f s) := .of_apart rfl rfl rfl
theorem undisturbed_inTurn (kind id rank : Nat) (s : State) : Undisturbed t s (inTurn kind id rank s) :=
  .of_apart (by simp) (by simp) (by rw [inTurn_parts])

/-! ## The frame's own end -/

/-- What the time-bound check adds to a frame and its entry (R79, R198). -/
theorem undisturbed_timeFlag (k i n : Nat) (s : State) : Undisturbed t s
    (dataEntry i (fun e => { e with tflag := min 255 (e.tflag + 1) })
      (onIng k (fun x => { x with flags := x.flags ||| BitVec.twoPow 5 n }) s)) := by
  refine Undisturbed.trans ?_ (undisturbed_dataEntry i _ _)
  exact undisturbed_onIng k _ s (fun _ => rfl) (fun _ _ => rfl)

theorem undisturbed_applyTimeCheck (k : Nat) (s : State) : Undisturbed t s (applyTimeCheck k s) := by
  unfold applyTimeCheck
  split
  next => exact .refl s
  next =>
    split
    · simp only
      split
      next => exact .refl s
      next =>
        split
        · exact .refl s
        · exact .refl s
        · exact .of_apart rfl rfl rfl
        · exact undisturbed_timeFlag k _ 2 s
        · exact undisturbed_timeFlag k _ 3 s
    · exact .refl s

theorem undisturbed_acceptFrame (k : Nat) (s : State) : Undisturbed t s (acceptFrame k s) := by
  unfold acceptFrame
  split
  next => exact .refl s
  next =>
    split
    · split
      next => exact .refl s
      next =>
        extract_lets a e
        have judged (u : State) (f : Ing → Ing) (e : Entry) (i : Nat) (h : ∀ y, (f y).ticket = y.ticket) (hc : ∀ y, core (f y) = core y) :
            Undisturbed t u (onIng k f (dataEntry i (fun _ => e) u)) :=
          (undisturbed_dataEntry i _ u).trans (undisturbed_onIng k f _ h (fun _ => hc))
        split
        extract_lets d
        have hd : Undisturbed t s d := (undisturbed_inTurn _ _ _ s).trans (judged a _ _ _ (fun _ => rfl) (fun _ => rfl))
        split
        · exact hd.trans (undisturbed_commitFrame _ _ _ _ _ _ d)
        · exact hd
    · exact .refl s

/-! ## Jobs of other frames -/

theorem undisturbed_setDone {k : Nat} (h : k ≠ t) (c : Code) (s : State) : Undisturbed t s (setDone k c s) :=
  undisturbed_onIng k _ s (fun _ => rfl) (fun hk => absurd hk h)

theorem undisturbed_endWith {k : Nat} (h : k ≠ t) (c : Code) (s : State) : Undisturbed t s (endWith k c s) :=
  (undisturbed_setDone h c s).trans (undisturbed_applyTimeCheck k _)

theorem undisturbed_startJob (g : List Nat) (w : Nat) (s : State) : Undisturbed t s (startJob g w s) :=
  .foldl (fun u _ => undisturbed_onPu _ u) g s

theorem undisturbed_endJob (g : List Nat) (w : Nat) (s : State) : Undisturbed t s (endJob g w s) :=
  .foldl (fun u _ => undisturbed_onPu _ u) g s

/-- One lane's latch of a slot's row (R164). -/
def laneLatched (i : Nat) (l : List Latch × State) (p : Nat) : List Latch × State :=
  (l.1 ++ [⟨(rowOf i (genDraw p l.2).2).share0, (rowOf i (genDraw p l.2).2).share1, (genDraw p l.2).1⟩], (genDraw p l.2).2)

theorem latchRow_foldl (i : Nat) (g : List Nat) (s : State) : latchRow i g s = g.foldl (laneLatched i) ([], s) := rfl

theorem undisturbed_laneLatched (i : Nat) (g : List Nat) (l : List Latch × State) : Undisturbed t l.2 (g.foldl (laneLatched i) l).2 := by
  induction g generalizing l with
  | nil => exact .refl _
  | cons p g ih =>
    have draws : Undisturbed t l.2 (laneLatched i l p).2 := .of_apart rfl rfl rfl
    exact draws.trans (ih _)

theorem undisturbed_latchRow {i : Nat} {g : List Nat} {s u : State} {l : List Latch} (h : latchRow i g s = (l, u)) : Undisturbed t s u := by
  have lanes := undisturbed_laneLatched (t := t) i g ([], s)
  rw [← latchRow_foldl, h] at lanes
  exact lanes

theorem undisturbed_takeSpare (i : Nat) (s : State) : Undisturbed t s (takeSpare i s) := by
  unfold takeSpare
  split
  · exact .of_apart rfl rfl rfl
  · exact .refl s

theorem undisturbed_drainNotice (i : Nat) (s : State) : Undisturbed t s (drainNotice i s) := by
  obtain ⟨_, _, _, _, h⟩ := drainNotice_parts i s
  rw [h]
  exact .of_apart rfl rfl rfl

theorem undisturbed_drainSlot (i : Nat) (s : State) : Undisturbed t s (drainSlot i s) := by
  unfold drainSlot
  split
  · exact (undisturbed_onKslot i _ s).trans (undisturbed_drainNotice i _)
  · exact .refl s

theorem undisturbed_badRowFound (i : Nat) (s : State) : Undisturbed t s (badRowFound i s) := by
  unfold badRowFound
  extract_lets a b d
  have hd : Undisturbed t s d :=
    ((undisturbed_onKslot i _ s).trans (undisturbed_onPu _ a)).trans (undisturbed_raise 72 [i] b)
  split
  · exact hd.trans (undisturbed_takeSpare i d)
  · exact hd.trans (undisturbed_drainSlot i d)

theorem undisturbed_dispatchIng {k : Nat} (h : k ≠ t) (s : State) : Undisturbed t s (dispatchIng k s) := by
  have ends := undisturbed_endWith h .noKey s
  unfold dispatchIng
  split
  next => exact .refl s
  next =>
    split
    next =>
      split
      next => exact ends
      next =>
        split
        next => exact .refl s
        next =>
          split
          next => exact ends.trans (undisturbed_badRowFound _ _)
          next =>
            extract_lets w
            split
            next hl =>
              refine (undisturbed_latchRow hl).trans (Undisturbed.trans ?_ (undisturbed_startJob _ _ _))
              exact undisturbed_onIng k _ _ (fun _ => rfl) (fun hk => absurd hk h)
    next => exact .refl s

theorem undisturbed_dispatchEgr (k : Nat) (s : State) : Undisturbed t s (dispatchEgr k s) := by
  have refused : Undisturbed t s (refuseEgr k .noKey s) := (sent_refuseEgr k .noKey s).undisturbed
  unfold dispatchEgr
  split
  next => exact .refl s
  next =>
    split
    next =>
      split
      next => exact refused
      next =>
        split
        next => exact (sent_onEgr k _ s).undisturbed
        next =>
          split
          next => exact refused.trans (undisturbed_badRowFound _ _)
          next =>
            extract_lets w
            split
            next hl =>
              exact (undisturbed_latchRow hl).trans ((undisturbed_startJob _ _ _).trans (sent_onEgr k _ _).undisturbed)
    next => exact .refl s

theorem Undisturbed.foldl_mem {α : Type} {f : State → α → State} {l : List α} (h : ∀ x ∈ l, ∀ s, Undisturbed t s (f s x)) (s : State) :
    Undisturbed t s (l.foldl f s) := by
  induction l generalizing s with
  | nil => exact .refl s
  | cons x l ih =>
    exact (h x (List.mem_cons_self ..) s).trans (ih (fun y hy => h y (List.mem_cons_of_mem _ hy)) _)

theorem mem_sortBy {α : Type} {le : α → α → Bool} {l : List α} {x : α} : x ∈ sortBy le l ↔ x ∈ l := by
  simp [sortBy, mem_foldl_insertBy]

/-- Jobs are given to waiting frames only, so not to one that is done. -/
theorem undisturbed_dispatchWaiting {s : State} (h : ∀ y ∈ s.fp.ing, y.ticket = t → y.stage = .done) :
    Undisturbed t s (dispatchWaiting s) := by
  unfold dispatchWaiting
  extract_lets ing a
  have hing : ∀ x ∈ sortBy (fun a b : Ing => a.port ≤ b.port) ing, x.ticket ≠ t := by
    intro x hx ht
    obtain ⟨hmem, hw⟩ := List.mem_filter.mp (mem_sortBy.mp hx)
    simp [h x hmem ht] at hw
  have ha : Undisturbed t s a := .foldl_mem (fun x hx u => undisturbed_dispatchIng (hing x hx) u) s
  exact ha.trans (.foldl (fun u _ => undisturbed_dispatchEgr _ u) _ a)

end Sys2Proof.Claim
end

section
/-! Settles TagWork: the end of a frame's tag work, and the evaluation of a complete instant (R79, R80, R160, R204, R205). -/
namespace Sys2Proof.Claim
open Sys2Proof.Machine

/-! ## The frame under a ticket -/

theorem ingOf_onIng {t : Nat} {f : Ing → Ing} (s : State) (h : ∀ y, (f y).ticket = y.ticket) :
    ingOf t (onIng t f s) = (ingOf t s).map f := by
  have ticket : (fun y : Ing => (if y.ticket = t then f y else y).ticket == t) = (fun y => y.ticket == t) := by
    funext y
    split
    · rw [h]
    · rfl
  unfold ingOf onIng
  simp only [onFp_fp, List.find?_map, Function.comp_def, ticket]
  cases hfind : s.fp.ing.find? (fun y => y.ticket == t) with
  | none => rfl
  | some y =>
    have hy : y.ticket = t := by simpa using List.find?_some hfind
    simp [hy]

theorem Undisturbed.ingOf {t : Nat} {s u : State} (h : Undisturbed t s u) {x : Ing} (hx : Machine.ingOf t s = some x) :
    ∃ y, Machine.ingOf t u = some y ∧ core y = core x := by
  obtain ⟨f, hf, hfc⟩ := h.ing
  have ticket : (fun y : Ing => (f y).ticket == t) = (fun y => y.ticket == t) := funext (fun y => by rw [(hfc y).1])
  refine ⟨f x, ?_, (hfc x).2 (ticket_of_ingOf hx)⟩
  unfold Machine.ingOf at hx ⊢
  rw [hf, List.find?_map, Function.comp_def, ticket, hx]
  rfl

/-- Frames under the ticket that were done are done. -/
theorem Undisturbed.done {t : Nat} {s u : State} (h : Undisturbed t s u) (hd : ∀ y ∈ s.fp.ing, y.ticket = t → y.stage = .done) :
    ∀ y ∈ u.fp.ing, y.ticket = t → y.stage = .done := by
  obtain ⟨f, hf, hfc⟩ := h.ing
  intro y hy ht
  rw [hf] at hy
  obtain ⟨z, hz, rfl⟩ := List.mem_map.mp hy
  have hzt := (hfc z).1.symm.trans ht
  have same : (f z).stage = z.stage := congrArg Prod.fst ((hfc z).2 hzt)
  rw [same]
  exact hd z hz hzt

/-! ## The end of a frame's tag work -/

section work
variable (x : Ing) (b : Bank) (p : Apdu) (errA errB : LaneFault) (s : State)

/-- The tag one lane forms, and whether it passes the frame (R160). -/
def laneTag (lane : Nat) (err : LaneFault) : BitVec 128 :=
  frameTag b.prof (latchedKey b.prof lane x.latched) p.segs x.sec ^^^ err.tag
def lanePass (lane : Nat) (err : LaneFault) : Bool := (laneTag x b p lane err == extTag x.sec) != err.pass

/-- The two lanes do not agree (R160). -/
def lanesDiffer : Bool :=
  x.lanes.length = 2 && (laneTag x b p 0 errA ≠ laneTag x b p 1 errB || lanePass x b p 0 errA ≠ lanePass x b p 1 errB)

/-- The code of R77 that the work settles. -/
def settledCode : Code :=
  if lanesDiffer x b p errA errB then .laneMismatch
  else if lanePass x b p 0 errA && extFitsProf b.prof x.sec then .authOk else .authFail

/-- The lanes give the job back, and report that they differ (R147, R160). -/
def jobOver (differ : Bool) : State :=
  if differ then laneMismatch x.lanes (endJob x.lanes x.work s) else endJob x.lanes x.work s

/-- The payload of PROF 3 is decrypted under the first lane's key (R155). -/
def opened : State :=
  if b.prof = 3 then
    onIng x.ticket (fun y => { y with frame := withSegs x.frame (fun l => cryptSegs (latchedKey b.prof 0 x.latched) x.sec l) }) s
  else s

def settled : State := setDone x.ticket (settledCode x b p errA errB) (opened x b (jobOver x s (lanesDiffer x b p errA errB)))

/-- Once the frame has its code, the window, the consistency unit and the time-bound check leave it. -/
theorem undisturbed_finishIng : Undisturbed x.ticket (settled x b p errA errB s) (finishIng x b p errA errB s) := by
  have accepted (u : State) (d : Prop) [Decidable d] : Undisturbed x.ticket u (applyTimeCheck x.ticket (if d then acceptFrame x.ticket u else u)) := by
    refine Undisturbed.trans ?_ (undisturbed_applyTimeCheck _ _)
    split
    · exact undisturbed_acceptFrame _ u
    · exact .refl u
  exact accepted _ _

end work

/-! ## A lane mismatch (R160, R175, R176) -/

section mismatch
variable {α : Type} (proj : State → α) (h : ∀ (p : Nat) (k : Pump → Pump) (u : State), proj (onPump p k u) = proj u)
include h

theorem foldl_onPump_apart (f : Nat → Pump → Pump) (g : List Nat) (s : State) :
    proj (g.foldl (fun s p => onPump p (f p) s) s) = proj s := by
  induction g generalizing s with
  | nil => rfl
  | cons p g ih => exact (ih _).trans (h _ _ s)

theorem setStandby_apart (s : State) : proj (setStandby s) = proj s := foldl_onPump_apart proj h _ _ s

end mismatch

section mismatch
variable {t : Nat} (g : List Nat) (s : State)

theorem declareFailed_fp (p : Nat) : (declareFailed p s).fp = s.fp := by
  unfold declareFailed
  split
  · rfl
  · rw [setStandby_apart State.fp (fun _ _ _ => rfl), raise_fp]
    rfl

theorem declareFailed_clk (p : Nat) : (declareFailed p s).clk = s.clk := by
  unfold declareFailed
  split
  · rfl
  · rw [setStandby_apart State.clk (fun _ _ _ => rfl), raise_clk]
    rfl

theorem undisturbed_declareFailed (p : Nat) : Undisturbed t s (declareFailed p s) := by
  unfold declareFailed
  split
  · exact .refl s
  · have standby (u : State) : Undisturbed t u (setStandby u) := .of_apart (setStandby_apart State.fp (fun _ _ _ => rfl) u)
      (setStandby_apart State.ev (fun _ _ _ => rfl) u) (setStandby_apart State.cmd (fun _ _ _ => rfl) u)
    exact Undisturbed.trans (Undisturbed.trans (undisturbed_onPu _ s) (undisturbed_raise 75 [p] _)) (standby _)

/-- The books of a mismatch: self-tests asked of the pair, and the pair noted (R175, R176). -/
def mismatchNoted : State :=
  onPu (fun x => { x with mism := match x.mism with
    | cur :: r => (cur ++ [g]) :: r
    | [] => [[g], [], []] }) (g.foldl (fun s p => onPump p (fun x => { x with katNow := true }) s) s)

theorem mismatchNoted_apart {α : Type} (proj : State → α) (h : ∀ (k : Pu → Pu) (u : State), proj (onPu k u) = proj u) :
    proj (mismatchNoted g s) = proj s := (h _ _).trans (foldl_onPump_apart proj (fun _ _ => h _) _ g s)

theorem laneMismatch_cases : laneMismatch g s = mismatchNoted g (raise 71 [] s) ∨
    ∃ p, laneMismatch g s = declareFailed p (mismatchNoted g (raise 71 [] s)) := by
  unfold laneMismatch
  extract_lets a b c
  split
  next p _ => exact .inr ⟨p, rfl⟩
  next => exact .inl rfl

theorem laneMismatch_fp : (laneMismatch g s).fp = s.fp := by
  have noted := mismatchNoted_apart g (raise 71 [] s) State.fp (fun _ _ => rfl)
  obtain h | ⟨p, h⟩ := laneMismatch_cases g s
  · rw [h, noted, raise_fp]
  · rw [h, declareFailed_fp, noted, raise_fp]

theorem laneMismatch_clk : (laneMismatch g s).clk = s.clk := by
  have noted := mismatchNoted_apart g (raise 71 [] s) State.clk (fun _ _ => rfl)
  obtain h | ⟨p, h⟩ := laneMismatch_cases g s
  · rw [h, noted, raise_clk]
  · rw [h, declareFailed_clk, noted, raise_clk]

theorem laneMismatch_pend : (laneMismatch g s).ev.pend.getLsbD 71 = true := by
  have noted : Undisturbed 0 (raise 71 [] s) (mismatchNoted g (raise 71 [] s)) :=
    .of_apart (mismatchNoted_apart g _ State.fp (fun _ _ => rfl)) (mismatchNoted_apart g _ State.ev (fun _ _ => rfl))
      (mismatchNoted_apart g _ State.cmd (fun _ _ => rfl))
  have raised := noted.pend 71 (raise_pend [] s (by decide) (by decide))
  obtain h | ⟨p, h⟩ := laneMismatch_cases g s
  · rw [h]
    exact raised
  · rw [h]
    exact (undisturbed_declareFailed (t := 0) _ p).pend 71 raised

end mismatch

section work
variable {x : Ing} {b : Bank} {p : Apdu} {errA errB : LaneFault} {s : State}

theorem endJob_apart {α : Type} (proj : State → α) (h : ∀ (k : Pu → Pu) (u : State), proj (onPu k u) = proj u) (g : List Nat) (w : Nat) (s : State) :
    proj (endJob g w s) = proj s := foldl_onPump_apart proj (fun _ _ => h _) _ g s

theorem jobOver_fp (x : Ing) (d : Bool) (s : State) : (jobOver x s d).fp = s.fp := by
  have ended := endJob_apart State.fp (fun _ _ => rfl) x.lanes x.work s
  cases d
  · exact ended
  · exact (laneMismatch_fp _ _).trans ended

theorem jobOver_clk (x : Ing) (d : Bool) (s : State) : (jobOver x s d).clk = s.clk := by
  have ended := endJob_apart State.clk (fun _ _ => rfl) x.lanes x.work s
  cases d
  · exact ended
  · exact (laneMismatch_clk _ _).trans ended

theorem opened_clk (x : Ing) (b : Bank) (s : State) : (opened x b s).clk = s.clk := by
  unfold opened
  split <;> rfl

theorem opened_ev (x : Ing) (b : Bank) (s : State) : (opened x b s).ev = s.ev := by
  unfold opened
  split <;> rfl

/-- The frame as its work leaves it (R79, R155). -/
def workDone (x : Ing) (b : Bank) (code : Code) (now : Nat) : Ing :=
  { x with code := some code, stage := .done, doneAt := now
           frame := if b.prof = 3 then withSegs x.frame (fun l => cryptSegs (latchedKey b.prof 0 x.latched) x.sec l) else x.frame }

theorem ingOf_opened (hx : ingOf x.ticket s = some x) : ingOf x.ticket (opened x b s) = some { x with
    frame := if b.prof = 3 then withSegs x.frame (fun l => cryptSegs (latchedKey b.prof 0 x.latched) x.sec l) else x.frame } := by
  unfold opened
  split
  · rw [ingOf_onIng s, hx]
    · rfl
    · exact fun _ => rfl
  · exact hx

theorem ingOf_settled (hx : ingOf x.ticket s = some x) :
    ingOf x.ticket (settled x b p errA errB s) = some (workDone x b (settledCode x b p errA errB) s.clk.now) := by
  have kept : ingOf x.ticket (jobOver x s (lanesDiffer x b p errA errB)) = some x := by
    unfold ingOf at hx ⊢
    rw [jobOver_fp, hx]
  unfold settled setDone
  rw [ingOf_onIng, ingOf_opened kept, opened_clk, jobOver_clk]
  · rfl
  · exact fun _ => rfl

theorem settled_done : ∀ y ∈ (settled x b p errA errB s).fp.ing, y.ticket = x.ticket → y.stage = .done := by
  intro y hy ht
  obtain ⟨z, _, rfl⟩ := List.mem_map.mp hy
  split
  next => rfl
  next hz => simp [hz] at ht

theorem settled_pend (h : lanesDiffer x b p errA errB = true) : (settled x b p errA errB s).ev.pend.getLsbD 71 = true := by
  have noted : (jobOver x s (lanesDiffer x b p errA errB)).ev.pend.getLsbD 71 = true := by
    rw [h]
    exact laneMismatch_pend _ _
  have same : (settled x b p errA errB s).ev = (jobOver x s (lanesDiffer x b p errA errB)).ev := opened_ev _ _ _
  rw [same]
  exact noted

/-- The row's frame is done with its code, and what is settled of it no other work changes (R79, R147). -/
theorem ingressStep6_settles {dt ticket : Nat} {s a : State} (ha : pass dt s = a) (hx : ingOf ticket a = some x) (hbank : x.bank = some b)
    (hapdu : x.frame.apdu = some p) (hstage : x.stage = .working) (hlanes : x.lanes ≠ []) :
    ∃ d y, exec (.ingressStep6 dt ticket errA errB) s = .next d ∧ ingOf ticket d = some y ∧
      core y = core (workDone x b (settledCode x b p errA errB) a.clk.now) ∧
      (lanesDiffer x b p errA errB = true → d.ev.pend.getLsbD 71 = true) := by
  have hticket := ticket_of_ingOf hx
  subst hticket
  have row : exec (.ingressStep6 dt x.ticket errA errB) s = .next (dispatchWaiting (finishIng x b p errA errB a)) := by
    show execIngressStep6 dt x.ticket errA errB s = _
    simp [execIngressStep6, ha, hx, hbank, hapdu, hstage, hlanes, done]
  have finished := undisturbed_finishIng x b p errA errB a
  have whole := finished.trans (undisturbed_dispatchWaiting (finished.done settled_done))
  obtain ⟨y, hy, hcore⟩ := whole.ingOf (ingOf_settled hx)
  exact ⟨_, y, row, hy, hcore, fun h => whole.pend 71 (settled_pend h)⟩

end work

end Sys2Proof.Claim
end

section
/-! The keys the lanes use, the evaluation of a complete instant, and TagWork (R148, R162, R204, R205, R207, R209). -/
namespace Sys2Proof.Claim
open Sys2Proof.Machine

/-! ## Keys as bytes -/

theorem natLE_take (m n v : Nat) (h : m ≤ n) : (natLE n v).take m = natLE m v := by
  induction m generalizing n v with
  | zero => rfl
  | succ m ih =>
    obtain ⟨n, rfl⟩ : ∃ k, n = k + 1 := ⟨n - 1, by omega⟩
    simp only [natLE, List.take_succ_cons, ih n (v / 256) (by omega)]

/-- The low bytes of a number are those of its residue. -/
theorem natLE_mod (n v : Nat) : natLE n (v % 256 ^ n) = natLE n v := by
  induction n generalizing v with
  | zero => rfl
  | succ n ih =>
    have head : BitVec.ofNat 8 (v % 256 ^ (n + 1)) = BitVec.ofNat 8 v := by
      apply BitVec.eq_of_toNat_eq
      simp only [BitVec.toNat_ofNat, Nat.reducePow, Nat.pow_succ']
      exact Nat.mod_mul_right_mod v 256 _
    have tail : v % 256 ^ (n + 1) / 256 = v / 256 % 256 ^ n := by
      rw [Nat.pow_succ', Nat.mod_mul_right_div_self]
    simp only [natLE, head, tail, ih]

theorem bytes128_setWidth (k : BitVec 256) : bytes128 (k.setWidth 128) = (bytes256 k).drop 16 := by
  have low : natLE 16 (k.setWidth 128).toNat = natLE 16 k.toNat := by
    rw [BitVec.toNat_setWidth]
    exact natLE_mod 16 _
  simp only [bytes128, bytes256, natBE, List.drop_reverse, length_natLE, low]
  rw [natLE_take 16 32 _ (by decide)]

/-- The key a lane uses: of AES-128 the low half of its row, and zero where it has latched none (R148, R162). -/
def laneKeyOf (prof : Nat) (l : List Latch) (lane : Nat) : Bytes :=
  match l[lane]? with
  | some l => (bytes256 (l.share0 ^^^ l.share1)).drop (if prof = 1 then 16 else 0)
  | none => List.replicate (if prof = 1 then 16 else 32) 0

theorem latchedKey_eq (prof lane : Nat) (l : List Latch) : Machine.latchedKey prof lane l = laneKeyOf prof l lane := by
  unfold Machine.latchedKey laneKeyOf
  cases l[lane]? with
  | none =>
    by_cases hp : prof = 1
    · simp only [hp, if_true]
      decide
    · simp only [hp, if_false]
      decide
  | some k =>
    by_cases hp : prof = 1
    · simp only [hp, if_true, laneKey]
      exact bytes128_setWidth _
    · simp only [hp, if_false, laneKey, List.drop_zero]

/-! ## The evaluation (R204, R205, R207) -/

section evaluation
variable {g n : Nat} {c : CSlot} {s : State}

@[simp] theorem groupOf_onGroup_same (f : Group → Group) : groupOf g (onGroup g f s) = f (groupOf g s) := by
  simp [groupOf, onGroup, onCo]

/-- The instant leaves the queue of its window (R205). -/
def windowLeft (g n : Nat) (s : State) : State :=
  onGroup g (fun p =>
      let l := p.slots.map (fun d => if d.n = n then { d with evaluated := true, queued := false } else d)
      { p with slots := l.filter (fun d => !(d.evaluated && d.n + p.d ≤ p.top)) })
    (onCo (fun u => { u with evalTimes := (u.evalTimes.filter (fun t => s.clk.now < t + secTicks 1)) ++ [s.clk.now] }) s)

/-- Its answer is counted and posted (R206, R209). -/
def counted (g n : Nat) (a : Ans) (s : State) : State := postAnswer g n a (tally g a (windowLeft g n s))

/-- The operands whose frame has its verdict already (R207). -/
def lateOperands (c : CSlot) (s : State) : List Nat :=
  (c.from_.filter (fun (_, t) => !s.fp.ing.any (fun x => x.ticket == t))).map (·.1)

/-- They wait for their streams' next verdict, and the record is kept (R207, R209). -/
def pendNoted (g n : Nat) (c : CSlot) (late : List Nat) (s : State) : State :=
  onGroup g (fun q => { q with
    pend := q.pend ++ late.filter (fun k => !q.pend.contains k), lastRec := some (n, sumS q.ops c.xs, sumA q.ops c.xs, c.lastTs) }) s

section found
variable (hfind : (groupOf g s).slots.find? (fun c => c.n == n && c.queued) = some c)
include hfind

theorem evaluate_of_consistent (ha : answerOf (groupOf g s) c = .consistent) : evaluate g n s = counted g n .consistent s := by
  simp only [evaluate, hfind, ha]
  rfl

theorem evaluate_of_inconsistent (ha : answerOf (groupOf g s) c = .inconsistent) : evaluate g n s =
    raise 76 [g] (pendNoted g n c (lateOperands c (counted g n .inconsistent s)) (counted g n .inconsistent s)) := by
  unfold evaluate
  extract_lets p u v
  split
  next hnone => exact absurd (hfind.symm.trans hnone) (by simp)
  next c' hsome =>
  obtain rfl : c = c' := Option.some.inj (hfind.symm.trans hsome)
  extract_lets a w late
  have hw : w = counted g n (answerOf (groupOf g s) c) s := rfl
  have hlate : late = lateOperands c w := rfl
  rw [if_pos ha, hlate, hw, ha]
  rfl

end found

theorem groupOf_counted (a : Ans) : groupOf g (counted g n a s) = groupOf g (tally g a (windowLeft g n s)) := rfl

theorem groupOf_windowLeft : (groupOf g (windowLeft g n s)).nCons = (groupOf g s).nCons ∧
    (groupOf g (windowLeft g n s)).nIncons = (groupOf g s).nIncons ∧ (groupOf g (windowLeft g n s)).pend = (groupOf g s).pend := by
  simp only [windowLeft, groupOf_onGroup_same]
  exact ⟨rfl, rfl, rfl⟩

theorem undisturbed_counted {t : Nat} (a : Ans) : Undisturbed t s (counted g n a s) := by
  have left : Undisturbed t s (windowLeft g n s) := (undisturbed_onCo _ s).trans (undisturbed_onGroup g _ _)
  exact (left.trans (undisturbed_tally g a _)).trans (undisturbed_postAnswer g n a _)

/-- A frame whose verdict is written is in flight no more, so its operand is a late one. -/
theorem mem_lateOperands {k t : Nat} (hfrom : (k, t) ∈ c.from_) (hgone : ∀ y ∈ s.fp.ing, y.ticket ≠ t) (a : Ans) :
    k ∈ lateOperands c (counted g n a s) := by
  obtain ⟨f, hf, hfc⟩ := (undisturbed_counted (t := 0) (g := g) (n := n) (s := s) a).ing
  have hticket (y : Ing) : (f y).ticket = y.ticket := (hfc y).1
  refine List.mem_map.mpr ⟨(k, t), List.mem_filter.mpr ⟨hfrom, ?_⟩, rfl⟩
  rw [hf]
  simp only [List.any_map, Function.comp_def, hticket, Bool.not_eq_true', List.any_eq_false, beq_iff_eq]
  exact hgone

/-- R204's inequality decides, in whole numbers. -/
theorem answerOf_eq {p : Group} (hbad : c.bad = 0) : answerOf p c =
    if 65536 * ((p.ops.zipIdx.map (fun e => e.1.gain * smGet 0 c.xs e.2)).sum).natAbs ≤
      2 ^ 32 * p.thr + p.prop * (p.ops.zipIdx.map (fun e => (e.1.gain * smGet 0 c.xs e.2).natAbs)).sum then .consistent else .inconsistent := by
  have sizes : sumA p.ops c.xs = (((p.ops.zipIdx.map (fun e => (e.1.gain * smGet 0 c.xs e.2).natAbs)).sum : Nat) : Int) := by
    rw [Nat.cast_list_sum, List.map_map]
    rfl
  have total : sumS p.ops c.xs = (p.ops.zipIdx.map (fun e => e.1.gain * smGet 0 c.xs e.2)).sum := rfl
  simp only [answerOf, hbad, ne_eq, not_true_eq_false, if_false, sizes, total]
  norm_cast

theorem evaluated_consistent (hfind : (groupOf g s).slots.find? (fun c => c.n == n && c.queued) = some c)
    (ha : answerOf (groupOf g s) c = .consistent) : (evaluate g n s).co.queue = s.co.queue ∧ (evaluate g n s).ev = s.ev ∧
      (groupOf g (evaluate g n s)).nCons = ((groupOf g s).nCons + 1) % 2 ^ 32 ∧
      (groupOf g (evaluate g n s)).nIncons = (groupOf g s).nIncons ∧ (groupOf g (evaluate g n s)).pend = (groupOf g s).pend := by
  obtain ⟨hcons, hincons, hpend⟩ := groupOf_windowLeft (g := g) (n := n) (s := s)
  rw [evaluate_of_consistent hfind ha, groupOf_counted]
  simp only [tally, groupOf_onGroup_same, hcons, hincons, hpend, and_true]
  exact ⟨rfl, rfl⟩

theorem evaluated_inconsistent (hfind : (groupOf g s).slots.find? (fun c => c.n == n && c.queued) = some c)
    (ha : answerOf (groupOf g s) c = .inconsistent) : (evaluate g n s).co.queue = s.co.queue ∧
      (evaluate g n s).ev.pend.getLsbD 76 = true ∧
      (groupOf g (evaluate g n s)).nIncons = ((groupOf g s).nIncons + 1) % 2 ^ 32 ∧
      (groupOf g (evaluate g n s)).nCons = (groupOf g s).nCons ∧
      ∀ k t, (k, t) ∈ c.from_ → (∀ y ∈ s.fp.ing, y.ticket ≠ t) → k ∈ (groupOf g (evaluate g n s)).pend := by
  obtain ⟨hcons, hincons, _⟩ := groupOf_windowLeft (g := g) (n := n) (s := s)
  have told (d : List Nat) (u : State) : groupOf g (raise 76 d u) = groupOf g u := by simp [groupOf]
  rw [evaluate_of_inconsistent hfind ha, told, raise_co]
  refine ⟨rfl, raise_pend _ _ (by decide) (by decide), ?_, ?_, fun k t hfrom hgone => ?_⟩
  · simp only [pendNoted, groupOf_onGroup_same, groupOf_counted, tally, hincons]
  · simp only [pendNoted, groupOf_onGroup_same, groupOf_counted, tally, hcons]
  · have late := mem_lateOperands (g := g) (n := n) hfrom hgone .inconsistent
    simp only [pendNoted, groupOf_onGroup_same, List.mem_append, List.mem_filter, late, true_and]
    by_cases hk : (groupOf g (counted g n .inconsistent s)).pend.contains k = true
    · exact .inl (by simpa using hk)
    · exact .inr (by simpa using hk)

end evaluation

/-! ## TagWork -/

/-- The frame's work ends with the code of R77, and PROF 3 with its payload decrypted. -/
theorem tagWork_frame {dt ticket : Nat} {errA errB : LaneFault} {s a : State} {x : Ing} {b : Bank} {p : Apdu} (ha : pass dt s = a)
    (hx : ingOf ticket a = some x) (hbank : x.bank = some b) (hapdu : x.frame.apdu = some p) (hstage : x.stage = .working)
    (hlanes : x.lanes ≠ []) :
    let key := laneKeyOf b.prof x.latched
    let tagA := frameTag b.prof (key 0) p.segs x.sec ^^^ errA.tag
    let tagB := frameTag b.prof (key 1) p.segs x.sec ^^^ errB.tag
    let okA := (tagA == extTag x.sec) != errA.pass
    let okB := (tagB == extTag x.sec) != errB.pass
    let differ : Prop := x.lanes.length = 2 ∧ (tagA ≠ tagB ∨ okA ≠ okB)
    let ok : Prop := okA = true ∧ extFitsProf b.prof x.sec = true
    ∃ d y, exec (.ingressStep6 dt ticket errA errB) s = .next d ∧ ingOf ticket d = some y ∧ y.stage = .done ∧
      y.doneAt = a.clk.now ∧ y.entry = x.entry ∧ (differ → y.code = some .laneMismatch ∧ d.ev.pend.getLsbD 71 = true) ∧
      (¬ differ → ok → y.code = some .authOk) ∧ (¬ differ → ¬ ok → y.code = some .authFail) ∧
      (b.prof ≠ 3 → y.frame = x.frame) ∧
      (b.prof = 3 → y.frame.apdu = some { p with segs := cryptSegs (key 0) x.sec p.segs }) := by
  intro key tagA tagB okA okB differ ok
  have hA : laneTag x b p 0 errA = tagA := by simp only [laneTag, latchedKey_eq]; rfl
  have hB : laneTag x b p 1 errB = tagB := by simp only [laneTag, latchedKey_eq]; rfl
  have differs : lanesDiffer x b p errA errB = true ↔ differ := by
    simp [lanesDiffer, lanePass, hA, hB, differ, okA, okB]
  have passes : (lanePass x b p 0 errA && extFitsProf b.prof x.sec) = true ↔ ok := by
    simp [lanePass, hA, ok, okA]
  obtain ⟨d, y, hrow, hy, hcore, hmis⟩ := ingressStep6_settles (errA := errA) (errB := errB) ha hx hbank hapdu hstage hlanes
  simp only [core, workDone, Prod.mk.injEq] at hcore
  obtain ⟨hdone, hat, hentry, hcode, hframe⟩ := hcore
  refine ⟨d, y, hrow, hy, hdone, hat, hentry, fun h => ⟨?_, hmis (differs.mpr h)⟩, fun h k => ?_, fun h k => ?_, fun h => ?_, fun h => ?_⟩
  · rw [hcode, settledCode, if_pos (differs.mpr h)]
  · rw [hcode, settledCode, if_neg (mt differs.mp h), if_pos (passes.mpr k)]
  · rw [hcode, settledCode, if_neg (mt differs.mp h), if_neg (mt passes.mp k)]
  · rw [hframe, if_neg h]
  · rw [hframe, if_pos h, latchedKey_eq]
    simp only [withSegs, hapdu, Option.map_some]
    rfl

/-- The oldest request is evaluated by R204's inequality, and counted. -/
theorem tagWork_evaluation {dt : Nat} {r : EvalReq} {rest : List EvalReq} {c : CSlot} {s a : State} (ha : pass dt s = a)
    (hqueue : a.co.queue = r :: rest) (hfind : (groupOf r.group a).slots.find? (fun c => c.n == r.n && c.queued) = some c) (hbad : c.bad = 0) :
    let g := r.group
    let p := groupOf g a
    let total := ((p.ops.zipIdx.map (fun e => e.1.gain * smGet 0 c.xs e.2)).sum).natAbs
    let size := (p.ops.zipIdx.map (fun e => (e.1.gain * smGet 0 c.xs e.2).natAbs)).sum
    ∃ d, exec (.consistencyEvaluation dt) s = .next d ∧ d.co.queue = rest ∧
      (65536 * total ≤ 2 ^ 32 * p.thr + p.prop * size →
        (groupOf g d).nCons = (p.nCons + 1) % 2 ^ 32 ∧ (groupOf g d).nIncons = p.nIncons ∧ (groupOf g d).pend = p.pend ∧ d.ev = a.ev) ∧
      (2 ^ 32 * p.thr + p.prop * size < 65536 * total →
        (groupOf g d).nIncons = (p.nIncons + 1) % 2 ^ 32 ∧ (groupOf g d).nCons = p.nCons ∧ d.ev.pend.getLsbD 76 = true ∧
        ∀ k t, (k, t) ∈ c.from_ → (∀ y ∈ a.fp.ing, y.ticket ≠ t) → k ∈ (groupOf g d).pend) := by
  intro g p total size
  let u := onCo (fun x => { x with queue := rest }) a
  have row : exec (.consistencyEvaluation dt) s = .next (evaluate g r.n u) := by
    show execConsistencyEvaluation dt s = _
    simp only [execConsistencyEvaluation, ha, hqueue, done]
    rfl
  have answer : answerOf (groupOf g u) c = if 65536 * total ≤ 2 ^ 32 * p.thr + p.prop * size then .consistent else .inconsistent := answerOf_eq hbad
  by_cases hle : 65536 * total ≤ 2 ^ 32 * p.thr + p.prop * size
  · obtain ⟨hq, hev, hcons, hincons, hpend⟩ := evaluated_consistent (s := u) hfind (answer.trans (if_pos hle))
    exact ⟨_, row, hq, fun _ => ⟨hcons, hincons, hpend, hev⟩, fun h => absurd hle (Nat.not_le.mpr h)⟩
  · obtain ⟨hq, hpend, hincons, hcons, hlate⟩ := evaluated_inconsistent (s := u) hfind (answer.trans (if_neg hle))
    exact ⟨_, row, hq, fun h => absurd h hle, fun _ => ⟨hincons, hcons, hpend, hlate⟩⟩

/-- Settles O39: the frame keeps what its lanes settle through the window, the consistency unit and the jobs given out behind it. -/
theorem tagWork : Obligations.TagWork := by
  unfold Obligations.TagWork
  exact ⟨fun dt ticket errA errB s x b p => tagWork_frame rfl, fun dt r rest c s => tagWork_evaluation rfl⟩

end Sys2Proof.Claim
end

section
/-! Commands whose operation changes more than it replies, and the maintenance commands that show the counters, test a unit,
restore a pump and run a march test (R85, R177, R243, R379, R524). -/
namespace Sys2Proof.Claim
open Sys2Proof.Machine

/-! ## The reply of a command over the state its operation leaves -/

section replies
variable {opc : Nat} {c : Call} {s : State} (h : Ready opc c s)
include h

/-- A Ready command whose operation keeps the commands' state ends with its reply over what the operation leaves. -/
theorem serve_body {st : Nat} {tlvs : List Tlv} {t : State} (hrun : run opc c (taken opc c s) = reply c st tlvs t)
    (ht : t.cmd = (taken opc c s).cmd) : serve opc c s = answered opc c st tlvs (onCmd (fun _ => s.cmd) t) := by
  have same : taken opc c (onCmd (fun _ => s.cmd) t) = onCmd (fun _ => t.cmd) t := by
    rw [ht]
    rfl
  have quiet := quiet_of_ready h
  have owed := owed_nil_of_ready h
  exact serve_answers h (by rw [same]; exact hrun) owed quiet

end replies

/-- What waits is the command alone. -/
theorem await_taken (opc : Nat) (c : Call) (w : Wait) (s : State) : await c w (taken opc c s) = waits opc c w s := by
  simp [await, taken, waits, isOwed, onCmd]

/-- Steps that each leave the commands aside leave them aside together. -/
theorem foldl_onCmd {α : Type} {f : State → α → State} (g : Cmd → Cmd) (hf : ∀ u x, f (onCmd g u) x = onCmd g (f u x))
    (l : List α) (s : State) : l.foldl f (onCmd g s) = onCmd g (l.foldl f s) := by
  induction l generalizing s with
  | nil => rfl
  | cons x l ih => rw [List.foldl_cons, List.foldl_cons, hf, ih]

section clauses
variable {c : Call} {s : State}

/-! ## SNAPSHOT and SELFTEST -/

theorem words32_eq_flatMap (l : List Nat) : words32 l = l.flatMap (natLE 4) := rfl

theorem snapshot_replies (h : Ready 0x0B01 c s) : RepliesOk 0x0B01 c [rtlv 1 ((
    ([0, 1, 2, 3] : List Nat).flatMap (fun p => cntPort p s) ++ (List.range 64).flatMap (fun q => cntRxq q s) ++
    (List.range 64).flatMap (fun q => cntTxq q s) ++ cntGlobal s).flatMap (natLE 4))] s (exec (.snapshot c) s) := by
  have hrun : run 0x0B01 c (taken 0x0B01 c s) = reply c stOk [rtlv 1 ((
      ([0, 1, 2, 3] : List Nat).flatMap (fun p => cntPort p s) ++ (List.range 64).flatMap (fun q => cntRxq q s) ++
      (List.range 64).flatMap (fun q => cntTxq q s) ++ cntGlobal s).flatMap (natLE 4))] (taken 0x0B01 c s) := by
    show snapshotBody c (taken 0x0B01 c s) = _
    simp only [snapshotBody, words32_eq_flatMap, ← List.flatMap_def]
    rfl
  exact congrArg Host.Outcome.next (serve_replies h hrun)

theorem selftest_replies (h : Ready 0x0B02 c s) :
    ∃ v, v ≤ 1 ∧ RepliesOk 0x0B02 c [r8 1 v] { s with free := s.free + 1 } (exec (.selftest c) s) := by
  have hrun : run 0x0B02 c (taken 0x0B02 c s) = reply c stOk [r8 1 (Config.freeValue s.free % 2 ^ 1)]
      (taken 0x0B02 c { s with free := s.free + 1 }) := by
    show selftestBody c (taken 0x0B02 c s) = _
    rfl
  exact ⟨_, by omega, congrArg Host.Outcome.next (serve_answers h hrun (owed_nil_of_ready h) (quiet_of_ready h))⟩

/-! ## PUMP_RESTORE (R177) -/

theorem pump_onPump (p q : Nat) (f : Pump → Pump) (s : State) : pump q (onPump p f s) = if q = p then f (pump p s) else pump q s := by
  simp only [pump, onPump, onPu_pu, smGet_smMod]

theorem pump_foldl_standby {f : Nat → Pump → Pump} (hf : ∀ p x, ∃ b, f p x = { x with standby := b }) (q : Nat) (l : List Nat) (s : State) :
    ∃ b, pump q (l.foldl (fun s p => onPump p (f p) s) s) = { pump q s with standby := b } := by
  induction l generalizing s with
  | nil => exact ⟨_, rfl⟩
  | cons p l ih =>
    obtain ⟨b, hb⟩ := ih (onPump p (f p) s)
    rw [List.foldl_cons, hb, pump_onPump]
    split
    next hq =>
      obtain ⟨v, hv⟩ := hf p (pump p s)
      exact ⟨b, by rw [hv, hq]⟩
    next => exact ⟨b, rfl⟩

/-- Whether a pump stands by is all that a change of the failed set settles (R177). -/
theorem pump_setStandby (q : Nat) (s : State) : ∃ b, pump q (setStandby s) = { pump q s with standby := b } :=
  pump_foldl_standby (fun _ _ => ⟨_, rfl⟩) q _ s

/-- The pump is restored, and standby settled anew (R177). -/
def pumpRestored (p : Nat) (s : State) : State := setStandby (onPump p (fun x => { x with failed := false, katFails := 0 }) s)

theorem pump_pumpRestored (p q : Nat) (s : State) : ∃ b, pump q (pumpRestored p s) = { (if q = p then
    { pump p s with failed := false, katFails := 0 } else pump q s) with standby := b } := by
  obtain ⟨b, hb⟩ := pump_setStandby q (onPump p (fun x => { x with failed := false, katFails := 0 }) s)
  exact ⟨b, hb.trans (by rw [pump_onPump])⟩

theorem pumpRestored_apart {α : Type} (proj : State → α) (h : ∀ (p : Nat) (k : Pump → Pump) (u : State), proj (onPump p k u) = proj u)
    (p : Nat) (s : State) : proj (pumpRestored p s) = proj s := (setStandby_apart proj h _).trans (h _ _ s)

/-- The pair rotation begins anew once no pump is failed (R146, R177). -/
def rotationRestored (s : State) : State :=
  if failedPumps s = [] then onPu (fun x => { x with rot := 0, rotAt := s.clk.now + msTicks 100 }) s else s

theorem pump_rotationRestored (q : Nat) (s : State) : pump q (rotationRestored s) = pump q s := by
  unfold rotationRestored
  split <;> rfl

theorem rotationRestored_rows (s : State) : (rotationRestored s).pu.rows = s.pu.rows := by
  unfold rotationRestored
  split <;> rfl

theorem rotationRestored_rot (s : State) (h : failedPumps (rotationRestored s) = []) : (rotationRestored s).pu.rot = 0 := by
  have same : failedPumps (rotationRestored s) = failedPumps s := by
    simp only [failedPumps, pump_rotationRestored]
  unfold rotationRestored
  rw [if_pos (same ▸ h)]
  rfl

theorem rotationRestored_apart {α : Type} (proj : State → α) (h : ∀ (k : Pu → Pu) (u : State), proj (onPu k u) = proj u) (s : State) :
    proj (rotationRestored s) = proj s := by
  unfold rotationRestored
  split
  · exact h _ s
  · rfl

theorem pumpRestore_replies (h : Ready 0x0B03 c s) {p : Nat} (hp : argN c 1 = some p) :
    ((pump p s).failed = false → RepliesOk 0x0B03 c [] s (exec (.pumpRestore c) s)) ∧
    ((pump p s).failed = true → (pump p s).katPasses < 1000 → Refuses 0x0B03 c stBusy [] s (exec (.pumpRestore c) s)) := by
  have body : run 0x0B03 c (taken 0x0B03 c s) = pumpRestoreBody c (taken 0x0B03 c s) := rfl
  have same : pump p (taken 0x0B03 c s) = pump p s := rfl
  refine ⟨fun hf => congrArg Host.Outcome.next (serve_replies h ?_), fun hf hk => congrArg Host.Outcome.next (serve_replies h ?_)⟩
  · simp [body, pumpRestoreBody, argD_of_argN hp, same, hf, replyOk]
  · simp only [body, pumpRestoreBody, argD_of_argN hp, same, hf, hk, Bool.not_true, Bool.false_eq_true, if_false, if_true]
    rfl

/-- What PUMP_RESTORE leaves of a pump that passed its rounds. -/
def restored (p : Nat) (s : State) : State := rotationRestored (pumpRestored p s)

theorem restored_apart {α : Type} (proj : State → α) (h : ∀ (k : Pu → Pu) (u : State), proj (onPu k u) = proj u) (p : Nat) (s : State) :
    proj (restored p s) = proj s := (rotationRestored_apart proj h _).trans (pumpRestored_apart proj (fun _ _ => h _) p s)

theorem pump_restored (p q : Nat) (s : State) : ∃ b, pump q (restored p s) = { (if q = p then
    { pump p s with failed := false, katFails := 0 } else pump q s) with standby := b } := by
  obtain ⟨b, hb⟩ := pump_pumpRestored p q s
  exact ⟨b, (pump_rotationRestored q _).trans hb⟩

theorem pumpRestoreBody_of_passed {p : Nat} (hp : argN c 1 = some p) (hf : (pump p s).failed = true)
    (hk : 1000 ≤ (pump p s).katPasses) : pumpRestoreBody c s = reply c stOk [] (restored p s) := by
  have served : ¬ (pump p s).katPasses < 1000 := by omega
  simp only [pumpRestoreBody, argD_of_argN hp, hf, served, Bool.not_true, Bool.false_eq_true, if_false]
  rfl

/-- What PUMP_RESTORE leaves reads as it should, whatever the commands' state. -/
theorem restored_holds (p : Nat) {s t : State} (ht : t = restored p s) : (pump p t).failed = false ∧ (pump p t).katFails = 0 ∧
    (∀ j, j < 4 → j ≠ p → (pump j t).failed = (pump j s).failed ∧ (pump j t).gen = (pump j s).gen) ∧
    (failedPumps t = [] → t.pu.rot = 0) ∧ t.pu.rows = s.pu.rows ∧ t = { s with pu := t.pu } := by
  obtain ⟨b, hb⟩ := pump_restored p p s
  rw [← ht, if_pos rfl] at hb
  refine ⟨by rw [hb], by rw [hb], fun j _ hj => ?_, fun hf => ?_, ?_, ?_⟩
  · obtain ⟨v, hv⟩ := pump_restored p j s
    rw [← ht, if_neg hj] at hv
    rw [hv]
    exact ⟨rfl, rfl⟩
  · rw [ht] at hf ⊢
    exact rotationRestored_rot _ hf
  · rw [ht]
    exact (rotationRestored_rows _).trans (pumpRestored_apart (fun u => u.pu.rows) (fun _ _ _ => rfl) p s)
  · have apart := restored_apart (fun u => onPu (fun _ => t.pu) u) (fun _ _ => rfl) p s
    rw [← ht] at apart
    exact apart

/-- The pumps whose partner has failed, and the step that puts one of them into standby (R177). -/
def bereft (s : State) : List Nat :=
  if s.pol.dual && (failedPumps s).length = 1 then ((pairing s.pu.rot).filter (fun g => g.any (fun p => (failedPumps s).contains p))).flatten else []

def standbyStep (l : List Nat) (s : State) (p : Nat) : State := onPump p (fun x => { x with standby := l.contains p && !x.failed }) s

theorem setStandby_eq (s : State) : setStandby s = pumpNos.foldl (standbyStep (bereft s)) s := rfl

theorem setStandby_taken (opc : Nat) (c : Call) (s : State) : setStandby (taken opc c s) = taken opc c (setStandby s) := by
  have same : bereft (taken opc c s) = bereft s := rfl
  rw [setStandby_eq, setStandby_eq, same]
  exact foldl_onCmd _ (fun _ _ => rfl) pumpNos s

theorem rotationRestored_taken (opc : Nat) (c : Call) (s : State) : rotationRestored (taken opc c s) = taken opc c (rotationRestored s) := by
  have same : failedPumps (taken opc c s) = failedPumps s := rfl
  unfold rotationRestored
  rw [same]
  split <;> rfl

theorem restored_taken (p opc : Nat) (c : Call) (s : State) : restored p (taken opc c s) = taken opc c (restored p s) := by
  unfold restored pumpRestored
  rw [← rotationRestored_taken, ← setStandby_taken]
  rfl

theorem pumpRestore_restores (h : Ready 0x0B03 c s) {p : Nat} (hp : argN c 1 = some p) (hf : (pump p s).failed = true)
    (hk : 1000 ≤ (pump p s).katPasses) :
    RepliesWith 0x0B03 c [] (fun d => (pump p d).failed = false ∧ (pump p d).katFails = 0 ∧
        (∀ j, j < 4 → j ≠ p → (pump j d).failed = (pump j s).failed ∧ (pump j d).gen = (pump j s).gen) ∧
        (failedPumps d = [] → d.pu.rot = 0) ∧ d.pu.rows = s.pu.rows ∧ d = { s with pu := d.pu })
      (exec (.pumpRestore c) s) := by
  have hrun : run 0x0B03 c (taken 0x0B03 c s) = reply c stOk [] (restored p (taken 0x0B03 c s)) := by
    show pumpRestoreBody c (taken 0x0B03 c s) = _
    exact pumpRestoreBody_of_passed hp hf hk
  have hcmd : (restored p s).cmd = s.cmd := restored_apart State.cmd (fun _ _ => rfl) p s
  have quiet : Quiet (restored p s) := by
    unfold Quiet
    rw [hcmd]
    exact quiet_of_ready h
  exact ⟨_, congrArg Host.Outcome.next (serve_answers h (restored_taken p _ c s ▸ hrun) (hcmd ▸ owed_nil_of_ready h) quiet), restored_holds p rfl⟩

/-! ## MARCH_RUN (R379) -/

section aside
variable (g : Cmd → Cmd)

theorem returning_onCmd {f : State → State} (s : State) (hf : f (onCmd g s) = onCmd g (f s)) : returning f (onCmd g s) = onCmd g (returning f s) := by
  have ing (u : State) : ingressHeld (onCmd g u) = ingressHeld u := rfl
  have egr (u : State) : egressHeld (onCmd g u) = egressHeld u := rfl
  have del (u : State) : deliveryHeld (onCmd g u) = deliveryHeld u := rfl
  have tra (u : State) : transmitHeld (onCmd g u) = transmitHeld u := rfl
  unfold returning
  simp only [hf, ing, egr, del, tra]
  split <;> rfl

theorem lowCells_onCmd (s : State) : lowCells (onCmd g s) = onCmd g (lowCells s) := by
  have free : freeDelivery (onCmd g s) = freeDelivery s := rfl
  have spill (u : State) (e : Nat × RxQ) : beginSpill e.1 (onCmd g u) = onCmd g (beginSpill e.1 u) := returning_onCmd g u rfl
  unfold lowCells
  rw [free]
  split
  · exact foldl_onCmd g spill _ s
  · rfl

theorem lend_onCmd (m : MemId) (n : Nat) (s : State) : lend m n (onCmd g s) = onCmd g (lend m n s) := by
  cases m with
  | delivery => exact lowCells_onCmd g (onFp (fun f => { f with lentDelivery := n }) s)
  | _ => rfl

end aside

theorem lend_cmd (m : MemId) (n : Nat) (s : State) : (lend m n s).cmd = s.cmd := by
  cases m with
  | delivery => exact (lowCells_spilt _).apart State.cmd (fun _ _ => rfl)
  | _ => rfl

theorem marchWake_waits (opc : Nat) (c : Call) (s : State) : marchWake (waits opc c .marchIdle s) =
    waits opc c (if enginesIdle s then .march .engineBuffers 0 0 [] else .marchIdle) s := by
  have idle : enginesIdle (waits opc c .marchIdle s) = enginesIdle s := rfl
  unfold marchWake
  rw [idle]
  split
  · show await c (.march .engineBuffers 0 0 []) (waits opc c .marchIdle s) = _
    simp [await, waits, isOwed, onCmd]
  · rfl

theorem marchRun_replies (h : Ready 0x0B04 c s) {a b : Nat} {m : MemId} (ha : argN c 1 = some a) (hb : argN c 2 = some b)
    (hm : marchRegion a b = some m) (hx : c.pkt.expert = false) :
    (m = .pumpStore → Refuses 0x0B04 c stDenied [] s (exec (.marchRun c) s)) ∧
    (m ≠ .pumpStore → m ≠ .engineBuffers → exec (.marchRun c) s = .next (waits 0x0B04 c (.march m 0 0 []) (lend m 32 s))) ∧
    (m = .engineBuffers → enginesIdle s = true → exec (.marchRun c) s = .next (waits 0x0B04 c (.march m 0 0 []) s)) ∧
    (m = .engineBuffers → enginesIdle s = false → exec (.marchRun c) s = .next (waits 0x0B04 c .marchIdle s)) := by
  have body : run 0x0B04 c (taken 0x0B04 c s) = if m = .pumpStore then refuse c stDenied (taken 0x0B04 c s)
      else if m = .engineBuffers then marchWake (waits 0x0B04 c .marchIdle s)
      else lend m 32 (waits 0x0B04 c (.march m 0 0 []) s) := by
    show marchRunBody c (taken 0x0B04 c s) = _
    simp only [marchRunBody, argD_of_argN ha, argD_of_argN hb, hm, hx, await_taken, Bool.false_eq_true, if_false]
  have quiet := quiet_of_ready h
  refine ⟨fun h0 => ?_, fun h0 h1 => ?_, fun h1 hi => ?_, fun h1 hi => ?_⟩
  · exact congrArg Host.Outcome.next (serve_replies h (body.trans (if_pos h0)))
  · have lent : Quiet (lend m 32 s) := by
      unfold Quiet
      rw [lend_cmd]
      exact quiet
    refine congrArg Host.Outcome.next (serve_waits h ?_ lent)
    rw [body, if_neg h0, if_neg h1]
    exact lend_onCmd _ m 32 s
  · refine congrArg Host.Outcome.next (serve_waits h ?_ quiet)
    rw [body, h1, if_neg (by decide), if_pos rfl, marchWake_waits, if_pos hi]
  · refine congrArg Host.Outcome.next (serve_waits h ?_ quiet)
    rw [body, h1, if_neg (by decide), if_pos rfl, marchWake_waits, hi, if_neg (by decide)]

end clauses
end Sys2Proof.Claim
end

section
/-! Calibration values, event settings, the sump and the log by command, and MaintenanceCommands (R346, R504 to R507, R514, R516, R518). -/
namespace Sys2Proof.Claim
open Sys2Proof.Machine

section calibration
variable {c : Call} {s : State} {i : Nat} {r : CalItem}

/-! ## Calibration (R504 to R507) -/

theorem clampI_eq_self {u lo hi : Int} : clampI u lo hi = u ↔ lo ≤ u ∧ u ≤ hi := by
  unfold clampI
  split_ifs <;> omega

theorem calGet_replies (h : Ready 0x0D01 c s) (hi : argN c 1 = some i) (hr : calItem i = some r) :
    RepliesOk 0x0D01 c [r32 1 (ofSigned 4 (calFactory i s)), r32 2 (ofSigned 4 (calUser i s)), r32 3 (ofSigned 4 (calEff i s))] s
      (exec (.calGet c) s) := by
  have hrun : run 0x0D01 c (taken 0x0D01 c s) = reply c stOk [r32 1 (ofSigned 4 (calFactory i s)),
      r32 2 (ofSigned 4 (calUser i s)), r32 3 (ofSigned 4 (calEff i s))] (taken 0x0D01 c s) := by
    show calGetBody c (taken 0x0D01 c s) = _
    simp only [calGetBody, argD_of_argN hi, hr, Option.isNone_some, Bool.false_eq_true, if_false]
    rfl
  exact congrArg Host.Outcome.next (serve_replies h hrun)

/-- The user value stored is what the effective value makes of it (R504). -/
def calStored (i : Nat) (e : Int) (s : State) : State := onNv (fun n => { n with userCal := smSet 0 n.userCal i (e - calFactory i s) }) s

theorem calSet_replies (h : Ready 0x0D02 c s) (hi : argN c 1 = some i) (hr : calItem i = some r) {v : Nat} (hv : argN c 2 = some v) :
    let f := calFactory i s
    let u := toSigned 4 v
    let e := clampI (f + clampI u r.uLo r.uHi) r.eLo r.eHi
    ∃ clamped : Bool, (clamped = false ↔ e = f + u ∧ r.uLo ≤ u ∧ u ≤ r.uHi) ∧
      RepliesWith 0x0D02 c [r32 1 (ofSigned 4 e), r8 2 (b2n clamped)] (fun d => calUser i d = e - f ∧
          (∀ j, j ≠ i → calUser j d = calUser j s) ∧ d = { s with nv := { s.nv with userCal := d.nv.userCal } })
        (exec (.calSet c) s) := by
  intro f u e
  have hrun : run 0x0D02 c (taken 0x0D02 c s) = reply c stOk [r32 1 (ofSigned 4 e),
      r8 2 (b2n (decide (clampI u r.uLo r.uHi ≠ u) || decide (e ≠ f + clampI u r.uLo r.uHi)))] (taken 0x0D02 c (calStored i e s)) := by
    show calSetBody c (taken 0x0D02 c s) = _
    simp only [calSetBody, argD_of_argN hi, hr, hv, calStore, Option.isNone_some, Bool.false_eq_true, if_false]
    rfl
  refine ⟨_, ?_, _, congrArg Host.Outcome.next (serve_answers h hrun (owed_nil_of_ready h) (quiet_of_ready h)), ?_, fun j hj => ?_, rfl⟩
  · have inRange := clampI_eq_self (u := u) (lo := r.uLo) (hi := r.uHi)
    simp only [Bool.or_eq_false_iff, decide_eq_false_iff_not, ne_eq, not_not, ← inRange]
    constructor
    · rintro ⟨hu, he⟩
      exact ⟨by rw [he, hu], hu⟩
    · rintro ⟨he, hu⟩
      exact ⟨hu, by rw [hu, he]⟩
  · simp [calUser, calStored, f]
  · simp [calUser, calStored, smGet_smSet, hj]

theorem calClear_replies (h : Ready 0x0D03 c s) (hi : argN c 1 = some i) (hr : calItem i = some r) (hx : c.pkt.expert = false) :
    RepliesWith 0x0D03 c [] (fun d => calUser i d = 0 ∧ (∀ j, j ≠ i → calUser j d = calUser j s) ∧
      d = { s with nv := { s.nv with userCal := d.nv.userCal } }) (exec (.calClear c) s) := by
  have hrun : run 0x0D03 c (taken 0x0D03 c s) = reply c stOk []
      (taken 0x0D03 c (onNv (fun n => { n with userCal := smDel n.userCal i }) s)) := by
    show calClearBody c (taken 0x0D03 c s) = _
    simp only [calClearBody, argD_of_argN hi, hr, hx, Option.isNone_some, Bool.false_and, Bool.false_eq_true, if_false]
    rfl
  refine ⟨_, congrArg Host.Outcome.next (serve_answers h hrun (owed_nil_of_ready h) (quiet_of_ready h)), ?_, fun j hj => ?_, rfl⟩
  · simp [calUser, smGet]
  · simp [calUser, smGet, hj]

end calibration

section events
variable {c : Call} {s : State}

/-! ## Event settings (R514) -/

/-- A change of the event registers adds MSI-X bits only. -/
theorem evChange_ev (f : Ev → Ev) (s : State) : ∃ b, (evChange f s).ev = { f s.ev with msixPba := b } := by
  have sent (l : List Nat) (old : Ev) (u : State) : ∃ b,
      (l.foldl (fun s l => if !evOr old l && evOr s.ev l then msix (60 + l) s else s) u).ev = { u.ev with msixPba := b } := by
    induction l generalizing u with
    | nil => exact ⟨_, rfl⟩
    | cons l ls ih =>
      rw [List.foldl_cons]
      obtain ⟨b, hb⟩ := ih (if !evOr old l && evOr u.ev l then msix (60 + l) u else u)
      rw [hb]
      split
      · unfold msix
        split
        · exact ⟨b, rfl⟩
        · split
          · exact ⟨b, rfl⟩
          · exact ⟨b, rfl⟩
      · exact ⟨b, rfl⟩
  exact sent [0, 1, 2, 3] s.ev (onEv f s)

theorem evChange_cmd (f : Ev → Ev) (s : State) : (evChange f s).cmd = s.cmd := by
  have sent (l : List Nat) (old : Ev) (u : State) :
      (l.foldl (fun s l => if !evOr old l && evOr s.ev l then msix (60 + l) s else s) u).cmd = u.cmd := by
    induction l generalizing u with
    | nil => rfl
    | cons l ls ih =>
      rw [List.foldl_cons, ih]
      split
      · exact (sent_msix _ u).cmd
      · rfl
  exact sent [0, 1, 2, 3] s.ev (onEv f s)

/-- The change of one source's level and mask that the arguments give. -/
def evSettings (c : Call) (a : Nat) (e : Ev) : Ev :=
  let e := match argN c 2 with | some l => setLvl a l e | none => e
  match argN c 3 with | some m => setMask a (m = 1) e | none => e

theorem listed_alone {a : Nat} (hl : evListed a = true) (ha : a < 256) :
    (List.range 256).filter (fun n => a ≤ n && n ≤ a && evListed n) = [a] := by
  have only : (fun n => decide (a ≤ n) && decide (n ≤ a) && evListed n) = (· == a) := by
    funext n
    by_cases hn : n = a
    · simp [hn, hl]
    · have : ¬ (a ≤ n ∧ n ≤ a) := by omega
      simp [hn, ← Bool.decide_and, this]
  rw [only, List.filter_beq, List.count_eq_one_of_mem List.nodup_range (List.mem_range.mpr ha)]
  rfl

theorem evLevel_setLvl (a l n : Nat) (e : Ev) : evLevel (setLvl a l e) n = if n = a then l else evLevel e n := by
  unfold evLevel setLvl
  by_cases hn : n = a
  · simp [hn]
  · unfold smGet smSet
    split <;> simp [hn]

theorem getLsbD_setMask {a : Nat} (ha : a < 256) (m : Bool) (n : Nat) (e : Ev) :
    (setMask a m e).mask.getLsbD n = if n = a then m else e.mask.getLsbD n := by
  have other (hn : n ≠ a) : (BitVec.twoPow 256 a).getLsbD n = false := by
    simp [BitVec.getLsbD_twoPow, Ne.symm hn]
  have own : (BitVec.twoPow 256 a).getLsbD a = true := by simp [ha]
  unfold setMask
  by_cases hn : n = a
  · subst hn
    cases m
    · simp [clr256, own]
    · simp [set256, own]
  · cases m
    · by_cases hlt : n < 256
      · simp [clr256, hn, hlt]
      · simp [clr256, hn, BitVec.getLsbD_of_ge _ _ (Nat.le_of_not_lt hlt)]
    · simp [set256, hn, other hn]

theorem evSettings_spec (c : Call) (a : Nat) (e : Ev) (ha : a < 256) :
    (∀ l, argN c 2 = some l → evLevel (evSettings c a e) a = l) ∧ (argN c 2 = none → evLevel (evSettings c a e) a = evLevel e a) ∧
    (∀ m, argN c 3 = some m → ((evSettings c a e).mask.getLsbD a = true ↔ m = 1)) ∧
    (∀ n, n ≠ a → evLevel (evSettings c a e) n = evLevel e n ∧ (evSettings c a e).mask.getLsbD n = e.mask.getLsbD n) ∧
    (evSettings c a e).pend = e.pend := by
  have level (n l : Nat) (m : Bool) (e : Ev) : evLevel (setMask l m e) n = evLevel e n := rfl
  have mask (l v : Nat) (e : Ev) : (setLvl l v e).mask = e.mask := rfl
  have pendM (l : Nat) (m : Bool) (e : Ev) : (setMask l m e).pend = e.pend := rfl
  have pendL (l v : Nat) (e : Ev) : (setLvl l v e).pend = e.pend := rfl
  unfold evSettings
  cases argN c 2 <;> cases argN c 3 <;>
    simp +contextual [level, mask, pendM, pendL, evLevel_setLvl, getLsbD_setMask ha]

theorem evCfg_replies (h : Ready 0x0E01 c s) (hspan : argN c 4 = none) {a : Nat} (ha : argN c 1 = some a) (hl : evListed a = true)
    (hlt : a < 256) : RepliesWith 0x0E01 c [] (fun d => (∀ l, argN c 2 = some l → evLevel d.ev a = l) ∧
        (argN c 2 = none → evLevel d.ev a = evLevel s.ev a) ∧ (∀ m, argN c 3 = some m → (d.ev.mask.getLsbD a = true ↔ m = 1)) ∧
        (∀ n, n ≠ a → evLevel d.ev n = evLevel s.ev n ∧ d.ev.mask.getLsbD n = s.ev.mask.getLsbD n) ∧ d.ev.pend = s.ev.pend)
      (exec (.evCfg c) s) := by
  have span : (if c.pkt.expert then argD c 4 a else a) = a := by simp [argD, hspan]
  have body : run 0x0E01 c (taken 0x0E01 c s) = reply c stOk [] (evChange (evSettings c a) (inTurn turnEvCfg 0 1 (taken 0x0E01 c s))) := by
    show evCfgBody c (taken 0x0E01 c s) = _
    have within : ¬ (a < a ∨ 255 < a) := by omega
    simp only [evCfgBody, argD_of_argN ha, span, hl, listed_alone hl hlt, Bool.not_true, Bool.false_or, Bool.or_eq_true,
      decide_eq_true_eq, within, Bool.false_eq_true, if_false]
    rfl
  have kept : (evChange (evSettings c a) (inTurn turnEvCfg 0 1 (taken 0x0E01 c s))).cmd = (taken 0x0E01 c s).cmd := by
    rw [evChange_cmd, inTurn_parts]
  obtain ⟨b, hb⟩ := evChange_ev (evSettings c a) (inTurn turnEvCfg 0 1 (taken 0x0E01 c s))
  rw [inTurn_ev] at hb
  refine ⟨_, congrArg Host.Outcome.next (serve_body h body kept), ?_⟩
  beta_reduce
  rw [onCmd_ev, hb]
  exact evSettings_spec c a s.ev hlt

theorem evRead_replies (h : Ready 0x0E02 c s) {b : Nat} (hb : argN c 1 = some b) : ∃ w : BitVec 32,
    (∀ i, i < 32 → w.getLsbD i = s.ev.pend.getLsbD (32 * b + i)) ∧ RepliesOk 0x0E02 c [r32 1 w.toNat] s (exec (.evRead c) s) := by
  have hrun : run 0x0E02 c (taken 0x0E02 c s) = reply c stOk [r32 1 (BitVec.ofNat 32 (s.ev.pend >>> (32 * b)).toNat).toNat]
      (taken 0x0E02 c s) := by
    show evReadBody c (taken 0x0E02 c s) = _
    simp only [evReadBody, argD_of_argN hb, BitVec.toNat_ofNat]
    rfl
  refine ⟨_, fun i hi => ?_, congrArg Host.Outcome.next (serve_replies h hrun)⟩
  simp only [BitVec.getLsbD, BitVec.toNat_ofNat, Nat.testBit_mod_two_pow, hi, decide_true, Bool.true_and,
    BitVec.toNat_ushiftRight, Nat.testBit_shiftRight]

end events
end Sys2Proof.Claim
end

section
/-! The sump and the log by command, and MaintenanceCommands (R346, R456, R510, R516, R518). -/
namespace Sys2Proof.Claim
open Sys2Proof.Machine

section sump
variable {c : Call} {s : State}

/-! ## SUMP_READ (R518) -/

theorem reverse_bytes256 (v : BitVec 256) : (bytes256 v).reverse = natLE 32 v.toNat := List.reverse_reverse _

theorem sumpRead_replies (h : Ready 0x0E03 c s) {i : Nat} (hi : argN c 2 = some i) :
    (argN c 1 = some 0 → RepliesOk 0x0E03 c [rtlv 1 (natLE 32 s.ev.sumpP.toNat)] s (exec (.sumpRead c) s)) ∧
    (argN c 1 = some 1 → RepliesOk 0x0E03 c [rtlv 1 (natLE 32 s.ev.sumpW.toNat)] s (exec (.sumpRead c) s)) ∧
    (argN c 1 = some 2 → let b := s.nv.bbram
      RepliesOk 0x0E03 c [rtlv 1 (natLE 4 b.sticky.toNat ++ natLE 1 b.pending ++
        (List.range 24).flatMap (fun n => natLE 8 (smGet 0 b.times n)))] s (exec (.sumpRead c) s)) ∧
    (argN c 1 = some 3 → i < 4096 → RepliesOk 0x0E03 c [
      rtlv 1 ((List.range (min 128 (4096 - i))).flatMap (fun j => logBytes (smGet {} s.nv.log (i + j)))), r32 2 s.nv.lostRecs] s
      (exec (.sumpRead c) s)) := by
  have body : run 0x0E03 c (taken 0x0E03 c s) = sumpReadBody c (taken 0x0E03 c s) := rfl
  refine ⟨fun h1 => ?_, fun h1 => ?_, fun h1 => ?_, fun h1 hlt => ?_⟩ <;> refine congrArg Host.Outcome.next (serve_replies h ?_)
  · simp only [body, sumpReadBody, argD_of_argN h1, reverse_bytes256]
    rfl
  · simp only [body, sumpReadBody, argD_of_argN h1, reverse_bytes256]
    rfl
  · simp only [body, sumpReadBody, argD_of_argN h1]
    rfl
  · simp only [body, sumpReadBody, argD_of_argN h1, argD_of_argN hi, Nat.not_le.mpr hlt, if_false]
    rfl

/-! ## SUMP_CLEAR (R518) -/

theorem leNat_take (k : Nat) (b : Bytes) : leNat (b.take k) = leNat b % 256 ^ k := by
  induction k generalizing b with
  | zero => simp [leNat, Nat.mod_one]
  | succ k ih =>
    cases b with
    | nil => simp [leNat]
    | cons x b =>
      have hx := x.isLt
      simp only [List.take_succ_cons, leNat, ih, Nat.pow_succ']
      have rest : (x.toNat + 256 * leNat b) / 256 = leNat b := by omega
      rw [Nat.mod_mul, rest]
      omega

/-- A clear of the bits of a mask, bit by bit. -/
theorem getLsbD_andNot {w : Nat} (v : BitVec w) (m : Nat) {n : Nat} (hn : n < w) :
    (v &&& ~~~ BitVec.ofNat w m).getLsbD n = (v.getLsbD n && !m.testBit n) := by
  simp only [BitVec.getLsbD_and, BitVec.getLsbD_not, BitVec.getLsbD_ofNat, hn, decide_true, Bool.true_and]

theorem smFind_filter_key {α : Type} (p : Nat → Bool) (m : SMap α) (k : Nat) :
    smFind (m.filter (fun e => p e.1)) k = if p k then smFind m k else none := by
  induction m with
  | nil => simp
  | cons e m ih =>
    obtain ⟨j, v⟩ := e
    by_cases hj : j = k
    · subst hj
      by_cases hp : p j = true
      · simp [hp, smFind]
      · simp [hp, ih]
    · by_cases hp : p j = true
      · simp [hp, smFind, hj, ih]
      · simp [hp, smFind, hj, ih]

/-- The log without the records of a range. -/
def logCleared (a b : Nat) (s : State) : State :=
  onEv (fun e => { e with logFull := false }) (onNv (fun n => { n with log := n.log.filter (fun e => e.1 < a || b < e.1), lostRecs := 0 }) s)

theorem logCleared_log (a b i : Nat) (s : State) :
    smGet ({} : LogRec) (logCleared a b s).nv.log i = if a ≤ i ∧ i ≤ b then {} else smGet {} s.nv.log i := by
  have kept : smFind (logCleared a b s).nv.log i = if i < a || b < i then smFind s.nv.log i else none :=
    smFind_filter_key (fun j => j < a || b < j) s.nv.log i
  unfold smGet
  rw [kept]
  by_cases hi : a ≤ i ∧ i ≤ b
  · have out : ¬ (i < a ∨ b < i) := by omega
    simp [hi, out]
  · have out : i < a ∨ b < i := by omega
    simp [hi, out]

theorem sumpClear_bits (h : Ready 0x0E04 c s) {b : Bytes} (hb : argOf c 2 = some b) (hlen : b.length = 32) :
    (argN c 1 = some 0 → RepliesWith 0x0E04 c [] (fun d =>
      (∀ n, n < 256 → d.ev.sumpP.getLsbD n = (s.ev.sumpP.getLsbD n && !(leNat b).testBit n)) ∧
      d = onEv (fun e => { e with sumpP := d.ev.sumpP }) s) (exec (.sumpClear c) s)) ∧
    (argN c 1 = some 1 → RepliesWith 0x0E04 c [] (fun d =>
      (∀ n, n < 256 → d.ev.sumpW.getLsbD n = (s.ev.sumpW.getLsbD n && !(leNat b).testBit n)) ∧
      d = onCl (fun x => { x with mirror := true }) (onEv (fun e => { e with sumpW := d.ev.sumpW }) s)) (exec (.sumpClear c) s)) ∧
    (argN c 1 = some 2 → RepliesWith 0x0E04 c [] (fun d =>
      (∀ n, n < 32 → d.nv.bbram.sticky.getLsbD n = (s.nv.bbram.sticky.getLsbD n && !(leNat b).testBit n)) ∧
      d.nv.bbram.kek = s.nv.bbram.kek ∧ d.ev = s.ev) (exec (.sumpClear c) s)) := by
  have given : (argOf c 2).getD [] = b := by rw [hb]; rfl
  have some_ : b ≠ [] := by rintro rfl; simp at hlen
  have body : run 0x0E04 c (taken 0x0E04 c s) = sumpClearBody c (taken 0x0E04 c s) := rfl
  have answers {d : State} (hrun : run 0x0E04 c (taken 0x0E04 c s) = reply c stOk [] (taken 0x0E04 c d)) (hcmd : d.cmd = s.cmd) :
      exec (.sumpClear c) s = .next (answered 0x0E04 c stOk [] d) := by
    have quiet : Quiet d := by
      unfold Quiet
      rw [hcmd]
      exact quiet_of_ready h
    exact congrArg Host.Outcome.next (serve_answers h hrun (hcmd ▸ owed_nil_of_ready h) quiet)
  refine ⟨fun h1 => ?_, fun h1 => ?_, fun h1 => ?_⟩
  · refine ⟨onEv (fun e => { e with sumpP := e.sumpP &&& ~~~ mask256 b }) s, answers ?_ rfl, fun n hn => getLsbD_andNot _ _ hn, rfl⟩
    simp only [body, sumpClearBody, argD_of_argN h1, given, some_, if_false]
    rfl
  · refine ⟨tagMirror (onEv (fun e => { e with sumpW := e.sumpW &&& ~~~ mask256 b }) s), answers ?_ rfl, fun n hn => getLsbD_andNot _ _ hn, rfl⟩
    simp only [body, sumpClearBody, argD_of_argN h1, given, some_, if_false]
    rfl
  · refine ⟨tagMirror (onNv (fun n => { n with bbram := { n.bbram with
      sticky := n.bbram.sticky &&& ~~~ (BitVec.ofNat 32 (leNat (b.take 4))) } }) s), answers ?_ rfl, fun n hn => ?_, rfl, rfl⟩
    · simp only [body, sumpClearBody, argD_of_argN h1, given, some_, if_false]
      rfl
    · have low : (leNat (b.take 4)).testBit n = (leNat b).testBit n := by
        rw [leNat_take, show 256 ^ 4 = 2 ^ 32 by decide, Nat.testBit_mod_two_pow, decide_eq_true hn, Bool.true_and]
      exact (getLsbD_andNot _ _ hn).trans (by rw [low])

theorem sumpClear_log (h : Ready 0x0E04 c s) (h1 : argN c 1 = some 3) {a b : Nat} (ha : argN c 3 = some a) (hb : argN c 4 = some b)
    (hab : a ≤ b) (hlt : b ≤ 4095) :
    RepliesWith 0x0E04 c [] (fun d => (∀ i, smGet ({} : LogRec) d.nv.log i = if a ≤ i ∧ i ≤ b then {} else smGet {} s.nv.log i) ∧
      d.nv.lostRecs = 0 ∧ d.ev.sumpP = s.ev.sumpP ∧ d.ev.sumpW = s.ev.sumpW) (exec (.sumpClear c) s) := by
  have has {ty v : Nat} (hv : argN c ty = some v) : hasArg c ty = true := by
    obtain ⟨w, hw, _⟩ := Option.map_eq_some_iff.mp hv
    simp [hasArg, hw]
  have first : ¬ 4095 < a := by omega
  have last : ¬ (4095 < b ∨ b < a) := by omega
  have hrun : run 0x0E04 c (taken 0x0E04 c s) = reply c stOk [] (taken 0x0E04 c (logCleared a b s)) := by
    show sumpClearBody c (taken 0x0E04 c s) = _
    simp only [sumpClearBody, argD_of_argN h1, argD_of_argN ha, argD_of_argN hb, has ha, has hb, first, last, Bool.not_true,
      Bool.or_eq_true, decide_eq_true_eq, Bool.false_eq_true, if_false]
    rfl
  exact ⟨_, congrArg Host.Outcome.next (serve_answers h hrun (owed_nil_of_ready h) (quiet_of_ready h)), fun i => logCleared_log a b i s, rfl, rfl, rfl⟩

end sump

/-! ## LOG_READ (R456, R465), and an event raised beside a command (R510) -/

section raised
variable (g : Cmd → Cmd) (s : State)

theorem cdcPass_onCmd (q n : Nat) : cdcPass q n (onCmd g s) = onCmd g (cdcPass q n s) := by
  have seen : cdcSee q (onCmd g s) = onCmd g (cdcSee q s) := by
    unfold cdcSee
    rw [onCmd_cdc, onCmd_clk]
    split <;> rfl
  unfold cdcPass
  split
  · rfl
  · rw [seen]
    rfl

theorem sendRiser_onCmd (w : Bool) (ch : RChan) (q : RQueue) (b : Bytes) : sendRiser w ch q b (onCmd g s) = onCmd g (sendRiser w ch q b s) := by
  have up : riserUp (onCmd g s) = riserUp s := rfl
  unfold sendRiser
  rw [up]
  split
  · rfl
  · have aside (f : Ri → Ri) : onRi f (onCmd g s) = onCmd g (onRi f s) := rfl
    simp only [onCmd_clk, aside]
    exact foldl_onCmd (f := fun s n => cdcPass n (transferFlits ch q b).length s) g (fun u n => cdcPass_onCmd g u n _) _ (onRi _ s)

theorem msix_onCmd (v : Nat) : msix v (onCmd g s) = onCmd g (msix v s) := by
  have reset : (onCmd g s).plat.pcieReset = s.plat.pcieReset := rfl
  have mask : (onCmd g s).ev.msixMask = s.ev.msixMask := rfl
  unfold msix
  rw [reset, mask]
  split
  · rfl
  · split <;> rfl

theorem evChange_onCmd (f : Ev → Ev) : evChange f (onCmd g s) = onCmd g (evChange f s) := by
  have step (u : State) (l : Nat) : (if !evOr s.ev l && evOr (onCmd g u).ev l then msix (60 + l) (onCmd g u) else onCmd g u) =
      onCmd g (if !evOr s.ev l && evOr u.ev l then msix (60 + l) u else u) := by
    rw [onCmd_ev, msix_onCmd]
    split <;> rfl
  exact foldl_onCmd (f := fun u l => if !evOr s.ev l && evOr u.ev l then msix (60 + l) u else u) g step [0, 1, 2, 3] (onEv f s)

/-- An applet that waits for no event is left as it is. -/
theorem appletEvent_of_quiet (n : Nat) {s : State} (h : NoneWaits s) : appletEvent n s = s := by
  have same : (appletEvent n s).cmd.applets = s.cmd.applets := by
    refine (List.map_congr_left (fun y hy => ?_)).trans (List.map_id _)
    obtain ⟨i, a⟩ := y
    have hw : a.wait = .none := h (i, a) hy
    simp only [hw, id]
  have only : appletEvent n s = onCmd (fun c => { c with applets := (appletEvent n s).cmd.applets }) s := rfl
  rw [only, same]
  rfl

/-- A Pumphouse event without a sump record, raised while no applet waits, leaves the commands aside. -/
theorem raise_onCmd {n : Nat} (hs : evSticky n = false) (hp : evWell n = false) {s : State} (hw : NoneWaits s) (hg : NoneWaits (onCmd g s)) :
    raise n [] (onCmd g s) = onCmd g (raise n [] s) := by
  have views : evPumpViews n (cdcPass cdcEvents 1 (onCmd g s)) = onCmd g (evPumpViews n (cdcPass cdcEvents 1 s)) := by
    rw [cdcPass_onCmd]
    exact evChange_onCmd g _ _
  have up (u : State) : riserUp (onCmd g u) = riserUp u := rfl
  unfold raise evRaise
  simp only [hs, hp, Bool.false_eq_true, if_false, appletEvent_of_quiet n hw, appletEvent_of_quiet n hg, views, up]
  split
  · rw [sendRiser_onCmd]
    rfl
  · rfl

end raised

section log
variable {c : Call} {s : State}

theorem logRead_replies (h : Ready 0x0E05 c s) {off n : Nat} (hoff : argN c tyOffset = some off) (hn : argN c 1 = some n)
    (hmax : n ≤ 16000) (hend : off + n ≤ 0x10000000) (hlt : off < 0x10000000) :
    (dmaGranted s.vtP 1 (0xA0000000 + off) n .read = false → Refuses 0x0E05 c stHwFault [] (dmaRefused s) (exec (.logRead c) s)) ∧
    (dmaGranted s.vtP 1 (0xA0000000 + off) n .read = true →
      RepliesOk 0x0E05 c [rtlv 1 ((List.range n).map (fun i => logByte (off + i) s))] s (exec (.logRead c) s)) := by
  have start : ¬ 0x10000000 ≤ off := by omega
  have span : ¬ (16000 < n ∨ 0x10000000 < off + n) := by omega
  have table : (taken 0x0E05 c s).vtP = s.vtP := rfl
  have body : run 0x0E05 c (taken 0x0E05 c s) = if !dmaGranted s.vtP 1 (0xA0000000 + off) n .read
      then refuse c stHwFault (dmaRefused (taken 0x0E05 c s))
      else replyOk c [rtlv 1 ((List.range n).map (fun i => logByte (off + i) (taken 0x0E05 c s)))] (taken 0x0E05 c s) := by
    show logReadBody c (taken 0x0E05 c s) = _
    simp only [logReadBody, argD_of_argN hoff, argD_of_argN hn, start, span, table, Bool.or_eq_true, decide_eq_true_eq, if_false]
  obtain ⟨-, none, -⟩ := quiet_of_ready h
  have aside : dmaRefused (taken 0x0E05 c s) = taken 0x0E05 c (dmaRefused s) := raise_onCmd _ (by decide) (by decide) none none
  have kept : (dmaRefused s).cmd = s.cmd := (undisturbed_raise (t := 0) 100 [] s).cmd none
  refine ⟨fun hd => ?_, fun hd => ?_⟩
  · have quiet : Quiet (dmaRefused s) := by
      unfold Quiet
      rw [kept]
      exact quiet_of_ready h
    refine congrArg Host.Outcome.next (serve_answers h ?_ (kept ▸ owed_nil_of_ready h) quiet)
    rw [body, hd, aside]
    rfl
  · refine congrArg Host.Outcome.next (serve_replies h ?_)
    rw [body, hd]
    rfl

end log

/-- Settles O36: each command's operation on the state in which it is taken, and its reply over what that leaves. -/
theorem maintenanceCommands : Obligations.MaintenanceCommands := by
  unfold Obligations.MaintenanceCommands
  intro c s
  refine ⟨snapshot_replies, selftest_replies, fun h p hp _ => ?_, fun h a b m ha hb hm hx => marchRun_replies h ha hb hm hx,
    fun i r hi hr => ⟨fun h => calGet_replies h hi hr, fun h v hv => calSet_replies h hi hr hv, fun h hx => calClear_replies h hi hr hx⟩,
    fun h hspan a ha hl hlt => evCfg_replies h hspan ha hl hlt, fun h b hb _ => evRead_replies h hb, fun h i hi => sumpRead_replies h hi,
    fun h => ⟨fun b hb hlen => sumpClear_bits h hb hlen, fun h1 a b ha hb hab hlt => sumpClear_log h h1 ha hb hab hlt⟩,
    fun h off n hoff hn hmax hend hlt => logRead_replies h hoff hn hmax hend hlt⟩
  obtain ⟨sound, busy⟩ := pumpRestore_replies h hp
  exact ⟨sound, busy, pumpRestore_restores h hp⟩

end Sys2Proof.Claim
end

section
/-! What acceptance says of a parameter, and the commands that set and read ports, queues and the default map (R54, R55, R82,
R91, R219, R243, R531). -/
namespace Sys2Proof.Claim
open Sys2Proof.Machine

/-! ## Parameters in range (R219) -/

theorem checkTlv_of_mem {expert crit : Bool} {ps : List Par} {l : List Tlv} {seen : List Nat} {off : Nat}
    (h : checkTlvs expert crit ps l seen off = none) {t : Tlv} (ht : t ∈ l) : ∃ k n, checkTlv expert crit ps n k t = none := by
  induction l generalizing seen off with
  | nil => exact absurd ht List.not_mem_nil
  | cons x l ih =>
    unfold checkTlvs at h
    cases hx : checkTlv expert crit ps off (seen.count x.ty) x with
    | some e => simp [hx] at h
    | none =>
      rw [hx] at h
      rcases List.mem_cons.mp ht with rfl | hl
      · exact ⟨_, _, hx⟩
      · exact ih h hl

/-- An integer parameter of a command that is Ready is within its bound. -/
theorem argN_le {opc : Nat} {c : Call} {s : State} (h : Ready opc c s) {ty v : Nat} (hv : argN c ty = some v) {p : Par}
    (hp : (params opc).find? (fun p => p.ty == ty && (!p.x || c.pkt.expert)) = some p) (hlen : p.lo = p.hi) : v ≤ p.max := by
  obtain ⟨-, -, -, -, -, -, -, -, hcheck, -, -⟩ := h
  obtain ⟨b, hb, rfl⟩ := Option.map_eq_some_iff.mp hv
  obtain ⟨t, ht, rfl⟩ := Option.map_eq_some_iff.mp hb
  have hty : t.ty = ty := by simpa using List.find?_some ht
  obtain ⟨k, n, hone⟩ := checkTlv_of_mem hcheck (List.mem_of_find?_eq_some ht)
  unfold checkTlv at hone
  rw [hty, hp] at hone
  by_contra hlt
  simp only [hlen, Nat.lt_of_not_le hlt] at hone
  split_ifs at hone
  simp_all

/-! ## Tables written twice -/

theorem smPut_smPut {α : Type} (m : SMap α) (k : Nat) (v w : α) : smPut (smPut m k v) k w = smPut m k w := by
  induction m with
  | nil => simp [smPut]
  | cons e m ih =>
    obtain ⟨j, x⟩ := e
    by_cases before : k < j
    · simp [smPut, before]
    · by_cases here : k = j
      · simp [smPut, here]
      · simp [smPut, before, here, ih]

/-- Two changes of one entry are one, when neither leaves the default. -/
theorem smMod_smMod {α : Type} [DecidableEq α] (d : α) (m : SMap α) (k : Nat) (f g : α → α) (hf : f (smGet d m k) ≠ d)
    (hg : g (f (smGet d m k)) ≠ d) : smMod d (smMod d m k f) k g = smMod d m k (fun x => g (f x)) := by
  unfold smMod
  rw [smGet_smSet_same]
  unfold smSet
  rw [if_neg hf, if_neg hg, smPut_smPut]
  exact (if_neg hg).symm

theorem advance_onCmd (g : Cmd → Cmd) (n : Nat) (s : State) : advance n (onCmd g s) = onCmd g (advance n s) := by
  have same (f : Clk → Clk) : onClk f (onCmd g s) = onCmd g (onClk f s) := rfl
  have running (u : State) : running (onCmd g u) = running u := rfl
  unfold advance
  simp only [onCmd_clk, same, running]
  split <;> rfl

theorem advance_cmd (n : Nat) (s : State) : (advance n s).cmd = s.cmd := by
  unfold advance
  simp only
  split <;> rfl

theorem advance_taken (opc : Nat) (c : Call) (n : Nat) (s : State) : advance n (taken opc c s) = taken opc c (advance n s) :=
  advance_onCmd _ n s

theorem onRxq_taken (opc : Nat) (c : Call) (q : Nat) (f : RxQ → RxQ) (s : State) : onRxq q f (taken opc c s) = taken opc c (onRxq q f s) := rfl
theorem onTxq_taken (opc : Nat) (c : Call) (q : Nat) (f : TxQ → TxQ) (s : State) : onTxq q f (taken opc c s) = taken opc c (onTxq q f s) := rfl

/-- A Ready command whose operation leaves the commands aside ends with its reply over what the operation makes of the state. -/
theorem serve_over {opc : Nat} {c : Call} {s : State} (h : Ready opc c s) {st : Nat} {tlvs : List Tlv} {d : State}
    (hrun : run opc c (taken opc c s) = reply c st tlvs (taken opc c d)) (hcmd : d.cmd = s.cmd) :
    serve opc c s = answered opc c st tlvs d := by
  have quiet : Quiet d := by
    unfold Quiet
    rw [hcmd]
    exact quiet_of_ready h
  exact serve_answers h hrun (hcmd ▸ owed_nil_of_ready h) quiet

section settings
variable {c : Call} {s : State}

/-! ## Policy, default map, loopback, and what is read back (R54, R243) -/

theorem policyGet_replies (h : Ready 0x0202 c s) (hx : c.pkt.expert = false) : let p := s.pol
    RepliesOk 0x0202 c [r32 1 p.version, r8 2 (b2n p.dual), r16 3 p.expertPcie, r16 3 p.expertSpi, r16 3 p.expertApp] s
      (exec (.policyGet c) s) := by
  intro p
  have hrun : run 0x0202 c (taken 0x0202 c s) = reply c stOk [r32 1 p.version, r8 2 (b2n p.dual), r16 3 p.expertPcie,
      r16 3 p.expertSpi, r16 3 p.expertApp] (taken 0x0202 c s) := by
    show policyGetBody c (taken 0x0202 c s) = _
    simp only [policyGetBody, hx, Bool.false_eq_true, if_false]
    rfl
  exact congrArg Host.Outcome.next (serve_replies h hrun)

theorem cfgGet_replies (h : Ready 0x0208 c s) {p : Nat} (h1 : argN c 1 = some p) (h2 : argN c 2 = none) (h3 : argN c 3 = none) :
    let x := portOf p s
    RepliesOk 0x0208 c [r8 1 x.mode, r8 2 (b2n x.link), r32 3 x.txeq, r32 4 x.rxadapt, r8 5 x.mapUnknown,
      r8 6 x.mapMalformed, r8 7 x.mapUnprot, r8 8 x.loopback] s (exec (.cfgGet c) s) := by
  intro x
  have hrun : run 0x0208 c (taken 0x0208 c s) = reply c stOk [r8 1 x.mode, r8 2 (b2n x.link), r32 3 x.txeq, r32 4 x.rxadapt,
      r8 5 x.mapUnknown, r8 6 x.mapMalformed, r8 7 x.mapUnprot, r8 8 x.loopback] (taken 0x0208 c s) := by
    show cfgGetBody c (taken 0x0208 c s) = _
    simp only [cfgGetBody, h1, h2, h3]
    rfl
  exact congrArg Host.Outcome.next (serve_replies h hrun)

theorem loopback_replies (h : Ready 0x0B05 c s) {p m : Nat} (h1 : argN c 1 = some p) (h2 : argN c 2 = some m) :
    RepliesOk 0x0B05 c [] (onFp (fun f => { f with ports := smMod {} f.ports p (fun x => { x with loopback := m }) }) s)
      (exec (.loopback c) s) := by
  have hrun : run 0x0B05 c (taken 0x0B05 c s) = reply c stOk []
      (taken 0x0B05 c (onFp (fun f => { f with ports := smMod {} f.ports p (fun x => { x with loopback := m }) }) s)) := by
    show loopbackBody c (taken 0x0B05 c s) = _
    simp only [loopbackBody, argD_of_argN h1, argD_of_argN h2]
    rfl
  exact congrArg Host.Outcome.next (serve_answers h hrun (owed_nil_of_ready h) (quiet_of_ready h))

/-- The default map of a port with the queue of one outcome given (R54). -/
def mapGiven (o q : Nat) (x : Port) : Port :=
  { x with mapUnknown := if o = 2 then q else x.mapUnknown, mapMalformed := if o = 5 then q else x.mapMalformed
           mapUnprot := if o = 7 then q else x.mapUnprot }

theorem mapGiven_eq {o : Nat} (ho : o = 2 ∨ o = 5 ∨ o = 7) (q : Nat) : (fun x : Port =>
    if o = 2 then { x with mapUnknown := q } else if o = 5 then { x with mapMalformed := q } else { x with mapUnprot := q }) = mapGiven o q := by
  funext x
  rcases ho with rfl | rfl | rfl <;> rfl

theorem rxmapSet_replies (h : Ready 0x0207 c s) {p o q : Nat} (h1 : argN c 1 = some p) (h2 : argN c 2 = some o)
    (h3 : argN c 3 = some q) (ho : o = 2 ∨ o = 5 ∨ o = 7) :
    RepliesOk 0x0207 c [] (onFp (fun f => { f with ports := smMod {} f.ports p (fun x => { x with
      mapUnknown := if o = 2 then q else x.mapUnknown, mapMalformed := if o = 5 then q else x.mapMalformed
      mapUnprot := if o = 7 then q else x.mapUnprot }) }) s) (exec (.rxmapSet c) s) := by
  have has : hasArg c 2 = true := by
    obtain ⟨w, hw, _⟩ := Option.map_eq_some_iff.mp h2
    simp [hasArg, hw]
  have named : (decide (o = 2) || decide (o = 5) || decide (o = 7)) = true := by simpa [or_assoc] using ho
  have hrun : run 0x0207 c (taken 0x0207 c s) = reply c stOk []
      (taken 0x0207 c (onPort p (mapGiven o q) s)) := by
    show rxmapSetBody c (taken 0x0207 c s) = _
    simp only [rxmapSetBody, argD_of_argN h1, argD_of_argN h2, h3, has, named, Bool.not_true, Bool.false_eq_true, if_false]
    rw [← mapGiven_eq ho]
    rfl
  exact congrArg Host.Outcome.next (serve_answers h hrun (owed_nil_of_ready h) (quiet_of_ready h))

/-! ## Queues (R55, R237, R531) -/

section rings
variable {base size cbase csize : Nat} (h2 : argN c 2 = some base) (h3 : argN c 3 = some size) (h4 : argN c 4 = some cbase)
  (h5 : argN c 5 = some csize) (hsize : size ≠ 0) (hcsize : csize ≠ 0) (hs : sizeOk size = true) (hc : sizeOk csize = true)
include h2 h3 h4 h5 hcsize hs hc

omit h2 h4 in
/-- Nothing is wrong with the rings given to a queue that is disabled (R237). -/
theorem ringRefuse_of_disabled (b cb cz : Nat) : ringRefuse c b 0 cb cz = none := by
  simp [ringRefuse, argD_of_argN h3, argD_of_argN h5, hs, hc, hcsize]

/-- A receive queue's settings, and the fresh pointers of one that is enabled (log 49). -/
def rxGiven (c : Call) (base size cbase csize : Nat) (y : RxQ) : RxQ :=
  { y with base := base, size := size, cbase := cbase, csize := csize, vector := argD c 6 y.vector, vfmt := argD c 7 y.vfmt
           drop := argD c 8 y.drop }
def rxFresh (y : RxQ) : RxQ := { y with dtail := 0, dhead := 0, chead := 0, ctail := 0, phase := true, bufs := [], bufUsed := 0 }

omit h2 h3 h4 h5 hcsize hs hc in
theorem onRxq_onRxq {f g : RxQ → RxQ} (q : Nat) (s : State) (hf : (f (rxqOf q s)).size ≠ 0) (hg : (g (f (rxqOf q s))).size ≠ 0) :
    onRxq q g (onRxq q f s) = onRxq q (fun y => g (f y)) s := by
  have apart {y : RxQ} (hy : y.size ≠ 0) : y ≠ {} := fun he => hy (by rw [he])
  have merged := smMod_smMod ({} : RxQ) s.fp.rxq q f g (apart hf) (apart hg)
  have twice : onRxq q g (onRxq q f s) = onFp (fun x => { x with rxq := smMod {} (smMod {} s.fp.rxq q f) q g }) s := rfl
  rw [twice, merged]
  rfl

include hsize in
theorem rxqCfg_replies (h : Ready 0x0205 c s) (hx : c.pkt.expert = false) {q : Nat} (h1 : argN c 1 = some q) (hoff : (rxqOf q s).size = 0)
    (hfmt : argN c 7 ≠ some 0) (hdrop : argD c 8 0 < 8192) :
    RepliesOk 0x0205 c [] (advance 1 <| onFp (fun f => { f with rxq := smMod {} f.rxq q (fun y => { y with
      base := base, size := size, cbase := cbase, csize := csize, vector := argD c 6 y.vector, vfmt := argD c 7 y.vfmt
      drop := argD c 8 y.drop, dtail := 0, dhead := 0, chead := 0, ctail := 0, phase := true, bufs := []
      bufUsed := 0 }) }) s) (exec (.rxqCfg c) s) := by
  have off : (rxqOf q (taken 0x0205 c s)).size = 0 := hoff
  have drop : ¬ 8192 ≤ argD c 8 0 := by omega
  have body : rxqCfgBody c (taken 0x0205 c s) = reply c stOk []
      (advance 1 (onRxq q rxFresh (onRxq q (rxGiven c base size cbase csize) (taken 0x0205 c s)))) := by
    simp only [rxqCfgBody, argD_of_argN h1, argD_of_argN h2, argD_of_argN h3, argD_of_argN h4, argD_of_argN h5, off, hfmt, drop, hx,
      ringRefuse_of_disabled h3 h5 hcsize hs hc, hsize, ne_eq, not_true_eq_false, not_false_eq_true, decide_true, decide_false,
      Bool.false_and, Bool.true_and, Bool.false_eq_true, if_false, if_true]
    rfl
  have merged : onRxq q rxFresh (onRxq q (rxGiven c base size cbase csize) s) =
      onRxq q (fun y => rxFresh (rxGiven c base size cbase csize y)) s := onRxq_onRxq q s hsize hsize
  have served : serve 0x0205 c s = answered 0x0205 c stOk [] (advance 1 (onRxq q (fun y => rxFresh (rxGiven c base size cbase csize y)) s)) := by
    refine serve_over h ?_ (advance_cmd 1 _)
    show rxqCfgBody c (taken 0x0205 c s) = _
    rw [body, onRxq_taken, onRxq_taken, advance_taken, merged]
  exact congrArg Host.Outcome.next served

/-- A transmit queue's settings, and the fresh pointers of one that is enabled (log 49). -/
def txGiven (c : Call) (base size cbase csize : Nat) (y : TxQ) : TxQ :=
  { y with base := base, size := size, cbase := cbase, csize := csize, vector := argD c 6 y.vector }
def txFresh (y : TxQ) : TxQ :=
  { y with dtail := 0, dhead := 0, chead := 0, ctail := 0, phase := true, descs := [], order := [], waiting := false }

omit h2 h3 h4 h5 hcsize hs hc in
theorem onTxq_onTxq {f g : TxQ → TxQ} (q : Nat) (s : State) (hf : (f (txqOf q s)).size ≠ 0) (hg : (g (f (txqOf q s))).size ≠ 0) :
    onTxq q g (onTxq q f s) = onTxq q (fun y => g (f y)) s := by
  have apart {y : TxQ} (hy : y.size ≠ 0) : y ≠ {} := fun he => hy (by rw [he])
  have merged := smMod_smMod ({} : TxQ) s.fp.txq q f g (apart hf) (apart hg)
  have twice : onTxq q g (onTxq q f s) = onFp (fun x => { x with txq := smMod {} (smMod {} s.fp.txq q f) q g }) s := rfl
  rw [twice, merged]
  rfl

include hsize in
theorem txqCfg_replies (h : Ready 0x0206 c s) (hx : c.pkt.expert = false) {q : Nat} (h1 : argN c 1 = some q) (hoff : (txqOf q s).size = 0) :
    RepliesOk 0x0206 c [] (onFp (fun f => { f with txq := smMod {} f.txq q (fun y => { y with
      base := base, size := size, cbase := cbase, csize := csize, vector := argD c 6 y.vector, dtail := 0, dhead := 0
      chead := 0, ctail := 0, phase := true, descs := [], order := [], waiting := false }) }) s) (exec (.txqCfg c) s) := by
  have off : (txqOf q (taken 0x0206 c s)).size = 0 := hoff
  have body : txqCfgBody c (taken 0x0206 c s) = reply c stOk []
      (onTxq q txFresh (onTxq q (txGiven c base size cbase csize) (taken 0x0206 c s))) := by
    simp only [txqCfgBody, argD_of_argN h1, argD_of_argN h2, argD_of_argN h3, argD_of_argN h4, argD_of_argN h5, off, hx,
      ringRefuse_of_disabled h3 h5 hcsize hs hc, hsize, ne_eq, not_true_eq_false, not_false_eq_true, decide_true, decide_false,
      Bool.false_and, Bool.true_and, Bool.false_eq_true, if_false, if_true]
    rfl
  have merged : onTxq q txFresh (onTxq q (txGiven c base size cbase csize) s) =
      onTxq q (fun y => txFresh (txGiven c base size cbase csize y)) s := onTxq_onTxq q s hsize hsize
  have served : serve 0x0206 c s = answered 0x0206 c stOk [] (onTxq q (fun y => txFresh (txGiven c base size cbase csize y)) s) := by
    refine serve_over h ?_ rfl
    show txqCfgBody c (taken 0x0206 c s) = _
    rw [body, onTxq_taken, onTxq_taken, merged]
  exact congrArg Host.Outcome.next served

end rings

/-! ## Ports (R43, R91) -/

/-- A change of a port's link leaves the other ports, the time unit and, while no applet waits, the commands. -/
theorem relink_aside (p : Nat) (s : State) : (∀ q, q ≠ p → portOf q (relink p s) = portOf q s) ∧ (relink p s).tu = s.tu ∧
    (NoneWaits s → (relink p s).cmd = s.cmd) := by
  by_cases same : (portOf p s).link = ((portOf p s).mode ≠ 0 && (portOf p s).linkIn && s.plat.refLine && !pinsTaken s)
  · rw [relink_of_same same]
    exact ⟨fun _ _ => rfl, rfl, fun _ => rfl⟩
  · obtain ⟨up, hup⟩ : ∃ up, up = ((portOf p s).mode ≠ 0 && (portOf p s).linkIn && s.plat.refLine && !pinsTaken s) := ⟨_, rfl⟩
    let linked := onPort p (fun x => { x with link := up }) s
    have changes : relink p s = if up then raise (32 + p) [p] linked else dropEgress p (raise (32 + p) [p] linked) := by
      unfold relink
      simp only [← hup]
      exact if_neg (hup ▸ same)
    have raised : (∀ q, q ≠ p → portOf q (raise (32 + p) [p] linked) = portOf q s) ∧ (raise (32 + p) [p] linked).tu = s.tu ∧
        (NoneWaits s → (raise (32 + p) [p] linked).cmd = s.cmd) :=
      ⟨fun q hq => (portOf_raise q _ _ _).trans ((portOf_onPort ..).trans (if_neg hq)), raise_tu .., (undisturbed_raise (t := 0) _ _ linked).cmd⟩
    obtain ⟨ports, tu, cmd⟩ := raised
    rw [changes]
    cases up with
    | true => exact ⟨ports, tu, cmd⟩
    | false =>
      have dropped := dropEgress_sent p (raise (32 + p) [p] linked)
      exact ⟨fun q hq => (dropped.portOf q).trans (((portOf_onPort ..).trans (if_neg hq)).trans (ports q hq)), dropped.tu.trans tu,
        fun hw => dropped.cmd.trans (cmd hw)⟩

/-- Mode and link of a port brought in line (R43). -/
theorem relink_settles {p : Nat} (hp : p < 4) (s : State) : (portOf p (relink p s)).mode = (portOf p s).mode ∧
    ((portOf p (relink p s)).link = true ↔
      (portOf p s).mode ≠ 0 ∧ (portOf p s).linkIn = true ∧ s.plat.refLine = true ∧ pinsTaken s = false) := by
  have up : (portOf p (relink p s)).mode = (portOf p s).mode ∧ (portOf p (relink p s)).link =
      ((portOf p s).mode ≠ 0 && (portOf p s).linkIn && s.plat.refLine && !pinsTaken s) := by
    by_cases same : (portOf p s).link = ((portOf p s).mode ≠ 0 && (portOf p s).linkIn && s.plat.refLine && !pinsTaken s)
    · rw [relink_of_same same]
      exact ⟨rfl, same⟩
    · obtain ⟨_, hlink, hmode, _⟩ := relink_of_change hp rfl same
      exact ⟨hmode, hlink⟩
  obtain ⟨hmode, hlink⟩ := up
  refine ⟨hmode, ?_⟩
  rw [hlink]
  simp [and_assoc]

/-- A port's settings as PORT_CFG gives them. -/
def portGiven (c : Call) (m : Nat) (x : Port) : Port :=
  { x with mode := m, txeq := if c.pkt.expert then argD c 3 x.txeq else x.txeq
           rxadapt := if c.pkt.expert then argD c 4 x.rxadapt else x.rxadapt }

theorem portCfg_replies (h : Ready 0x0203 c s) {p m : Nat} (h1 : argN c 1 = some p) (h2 : argN c 2 = some m) :
    ∃ d up, exec (.portCfg c) s = .next (answered 0x0203 c stOk [r8 1 m, r8 2 (b2n up)] d) ∧
      (up = true ↔ m ≠ 0 ∧ (portOf p s).linkIn = true ∧ s.plat.refLine = true ∧ pinsTaken s = false) ∧
      (portOf p d).mode = m ∧ (portOf p d).link = up ∧ (∀ q, q ≠ p → portOf q d = portOf q s) ∧ d.tu = s.tu := by
  have hp : p ≤ 3 := argN_le (p := pI 1 1 3) h h1 rfl rfl
  obtain ⟨-, none, -⟩ := quiet_of_ready h
  obtain ⟨t, ht⟩ : ∃ t, t = relink p (onPort p (portGiven c m) (taken 0x0203 c s)) := ⟨_, rfl⟩
  have hrun : run 0x0203 c (taken 0x0203 c s) = reply c stOk [r8 1 m, r8 2 (b2n (portOf p t).link)] t := by
    show portCfgBody c (taken 0x0203 c s) = _
    simp only [portCfgBody, argD_of_argN h1, argD_of_argN h2, ht]
    rfl
  obtain ⟨ports, tu, cmd⟩ := relink_aside p (onPort p (portGiven c m) (taken 0x0203 c s))
  obtain ⟨mode, link⟩ := relink_settles (Nat.lt_succ_of_le hp) (onPort p (portGiven c m) (taken 0x0203 c s))
  rw [← ht] at ports tu cmd mode link
  rw [portOf_onPort_same] at mode link
  have own : portOf p (taken 0x0203 c s) = portOf p s := rfl
  have others (q : Nat) (hq : q ≠ p) : portOf q (onPort p (portGiven c m) (taken 0x0203 c s)) = portOf q s :=
    (portOf_onPort ..).trans (if_neg hq)
  refine ⟨onCmd (fun _ => s.cmd) t, _, congrArg Host.Outcome.next (serve_body h hrun (cmd none)), ?_, mode, rfl,
    fun q hq => (ports q hq).trans (others q hq), tu⟩
  rw [link, own]
  rfl

end settings
end Sys2Proof.Claim
end

section
/-! A change of a pair's mode, and PAIR_CFG (R91, R92, R93). -/
namespace Sys2Proof.Claim
open Sys2Proof.Machine

/-- The pairs keep their settings and, while no applet waits, the commands their state. -/
structure PairsKept (s u : State) : Prop where
  pairs : u.fp.pairs = s.fp.pairs
  cmd : NoneWaits s → u.cmd = s.cmd

theorem PairsKept.refl (s : State) : PairsKept s s := ⟨rfl, fun _ => rfl⟩

theorem PairsKept.trans {s u v : State} (h : PairsKept s u) (k : PairsKept u v) : PairsKept s v := by
  refine ⟨k.pairs.trans h.pairs, fun none => ?_⟩
  have same := h.cmd none
  exact (k.cmd (by unfold NoneWaits; rw [same]; exact none)).trans same

theorem PairsKept.foldl {α : Type} {f : State → α → State} (h : ∀ s x, PairsKept s (f s x)) (l : List α) (s : State) :
    PairsKept s (l.foldl f s) := by
  induction l generalizing s with
  | nil => exact .refl s
  | cons x l ih => exact (h s x).trans (ih _)

theorem Undisturbed.pairsKept {t : Nat} {s u : State} (h : Undisturbed t s u) : PairsKept s u := ⟨h.pairs, h.cmd⟩
theorem Sent.pairsKept {s u : State} (h : Sent s u) : PairsKept s u := ⟨h.pairs, fun _ => h.cmd⟩
theorem pairsKept_raise (n : Nat) (d : List Nat) (s : State) : PairsKept s (raise n d s) := (undisturbed_raise (t := 0) n d s).pairsKept
theorem pairsKept_onPort (p : Nat) (f : Port → Port) (s : State) : PairsKept s (onPort p f s) := ⟨rfl, fun _ => rfl⟩
theorem pairsKept_endJob (g : List Nat) (w : Nat) (s : State) : PairsKept s (endJob g w s) := (undisturbed_endJob (t := 0) g w s).pairsKept

/-- No frame has a ticket that none was given. -/
theorem exists_freshTicket (s : State) : ∃ t, ∀ y ∈ s.fp.ing, y.ticket ≠ t := by
  obtain ⟨t, ht⟩ := Infinite.exists_notMem_finset (s.fp.ing.map (·.ticket)).toFinset
  exact ⟨t, fun y hy he => ht (by simpa using ⟨y, hy, he⟩)⟩

theorem pairsKept_dispatchWaiting (s : State) : PairsKept s (dispatchWaiting s) := by
  obtain ⟨t, ht⟩ := exists_freshTicket s
  exact (undisturbed_dispatchWaiting (t := t) (fun y hy he => absurd he (ht y hy))).pairsKept

theorem pairsKept_dropUnsent (q : Nat) (s : State) : PairsKept s (dropUnsent q s) := by
  have one (u : State) (x : Egr) : PairsKept u (refuseEgr x.ticket .portDown (if x.stage = .working then endJob x.lanes x.work u else u)) := by
    refine PairsKept.trans ?_ (sent_refuseEgr _ _ _).pairsKept
    split
    · exact pairsKept_endJob _ _ u
    · exact .refl u
  exact (PairsKept.foldl one _ s).trans (pairsKept_dispatchWaiting _)

theorem pairsKept_dropEgress (p : Nat) (s : State) : PairsKept s (dropEgress p s) :=
  (pairsKept_onPort p _ s).trans (dropEgress_sent p s).pairsKept

/-- A frame in flight gives back its key reference and its job (R91, R132, R147). -/
def released (s : State) (x : Ing) : State :=
  let s := match x.slot with
    | some i => refDown i s
    | none => s
  if x.stage = .working && x.lanes ≠ [] then endJob x.lanes x.work s else s

theorem pairsKept_released (s : State) (x : Ing) : PairsKept s (released s x) := by
  have unreferred : PairsKept s (match x.slot with | some i => refDown i s | none => s) := by
    cases x.slot with
    | none => exact .refl s
    | some i => exact (sent_refDown i s).pairsKept
  unfold released
  simp only
  split
  · exact unreferred.trans (pairsKept_endJob _ _ _)
  · exact unreferred

theorem pairsKept_returning {f : State → State} {s : State} (h : PairsKept s (f s)) : PairsKept s (returning f s) :=
  ⟨(returning_pairs f s).trans h.pairs, fun none => (returning_apart f s State.cmd (fun _ _ => rfl)).trans (h.cmd none)⟩

theorem pairsKept_dropIngress (p : Nat) (s : State) : PairsKept s (dropIngress p s) := by
  unfold dropIngress
  extract_lets gone a b
  have ha : PairsKept s a := .foldl pairsKept_released gone s
  have hb : PairsKept a b := pairsKept_returning ⟨rfl, fun _ => rfl⟩
  exact (ha.trans hb).trans (pairsKept_onPort p _ b)

/-- The pair's settings after a change of its mode (R91). -/
def modeGiven (m : PairMode) (x : Pair) : Pair := { x with mode := m, seq := 0, marks := [], queueUp := [], queueDown := [] }

theorem pairsKept_changePair (q : Nat) (m : PairMode) (s : State) : PairsKept (onPair q (modeGiven m) s) (changePair q m s) := by
  refine PairsKept.foldl (fun u p => ?_) [2 * q, 2 * q + 1] _
  have dropped := ((pairsKept_dropUnsent q u).trans (pairsKept_dropEgress p _)).trans (pairsKept_dropIngress p _)
  simp only
  split
  · exact dropped.trans (pairsKept_raise _ _ _)
  · exact dropped

theorem pairModeNo_pairModeOf {m : Nat} (h : m ≤ 2) : pairModeNo (pairModeOf m) = m := by
  obtain rfl | rfl | rfl : m = 0 ∨ m = 1 ∨ m = 2 := by omega
  all_goals rfl

section command
variable {c : Call} {s : State} {q m : Nat}

/-- The node address a command gives (R94). -/
def macGiven (c : Call) (q : Nat) (s : State) : State :=
  match argOf c 3 with
  | some b => onPair q (fun x => { x with nodeMac := BitVec.ofNat 48 (beNat b) }) s
  | none => s

/-- What PAIR_CFG leaves. -/
def pairGiven (c : Call) (q m : Nat) (s : State) : State :=
  if m ≠ pairModeNo (pairOf q s).mode then changePair q (pairModeOf m) (macGiven c q s) else macGiven c q s

theorem macGiven_spec (c : Call) (q : Nat) (s : State) : (pairOf q (macGiven c q s)).mode = (pairOf q s).mode ∧
    (∀ b, argOf c 3 = some b → (pairOf q (macGiven c q s)).nodeMac = BitVec.ofNat 48 (beNat b)) ∧
    (∀ p, p ≠ q → pairOf p (macGiven c q s) = pairOf p s) ∧ (macGiven c q s).cmd = s.cmd := by
  unfold macGiven
  cases hb : argOf c 3 with
  | none => exact ⟨rfl, fun b h => (by contradiction), fun _ _ => rfl, rfl⟩
  | some b =>
    simp only [pairOf_onPair, if_true]
    exact ⟨trivial, fun b' h => by rw [Option.some.inj h], fun p hp => if_neg hp, rfl⟩

theorem pairGiven_spec (hm : m ≤ 2) (none : NoneWaits s) : pairModeNo (pairOf q (pairGiven c q m s)).mode = m ∧
    (∀ b, argOf c 3 = some b → (pairOf q (pairGiven c q m s)).nodeMac = BitVec.ofNat 48 (beNat b)) ∧
    ((pairOf q s).mode ≠ (pairOf q (pairGiven c q m s)).mode →
      (pairOf q (pairGiven c q m s)).seq = 0 ∧ (pairOf q (pairGiven c q m s)).marks = []) ∧
    (∀ p, p ≠ q → pairOf p (pairGiven c q m s) = pairOf p s) ∧ (pairGiven c q m s).cmd = s.cmd := by
  obtain ⟨mode, mac, others, cmd⟩ := macGiven_spec c q s
  unfold pairGiven
  split
  next changes =>
    have kept := pairsKept_changePair q (pairModeOf m) (macGiven c q s)
    have pair (p : Nat) : pairOf p (changePair q (pairModeOf m) (macGiven c q s)) = pairOf p (onPair q (modeGiven (pairModeOf m)) (macGiven c q s)) := by
      unfold pairOf
      rw [kept.pairs]
    have waits : NoneWaits (onPair q (modeGiven (pairModeOf m)) (macGiven c q s)) := by
      have same : (onPair q (modeGiven (pairModeOf m)) (macGiven c q s)).cmd = s.cmd := cmd
      unfold NoneWaits
      rw [same]
      exact none
    refine ⟨?_, fun b hb => ?_, fun _ => ?_, fun p hp => ?_, (kept.cmd waits).trans cmd⟩
    · rw [pair, pairOf_onPair, if_pos rfl]
      exact pairModeNo_pairModeOf hm
    · rw [pair, pairOf_onPair, if_pos rfl]
      exact mac b hb
    · rw [pair, pairOf_onPair, if_pos rfl]
      exact ⟨rfl, rfl⟩
    · rw [pair, pairOf_onPair, if_neg hp]
      exact others p hp
  next same =>
    exact ⟨by rw [mode]; exact (not_not.mp same).symm, mac, fun h => absurd mode.symm h, others, cmd⟩

theorem pairCfg_replies (h : Ready 0x0204 c s) (h1 : argN c 1 = some q) (h2 : argN c 2 = some m) :
    ∃ d, exec (.pairCfg c) s = .next (answered 0x0204 c stOk [r8 1 m] d) ∧ pairModeNo (pairOf q d).mode = m ∧
      (∀ b, argOf c 3 = some b → (pairOf q d).nodeMac = BitVec.ofNat 48 (beNat b)) ∧
      ((pairOf q s).mode ≠ (pairOf q d).mode → (pairOf q d).seq = 0 ∧ (pairOf q d).marks = []) ∧
      ∀ p, p ≠ q → pairOf p d = pairOf p s := by
  have hm : m ≤ 2 := argN_le (p := opt (pI 1 2 2)) h h2 rfl rfl
  obtain ⟨-, none, -⟩ := quiet_of_ready h
  obtain ⟨t, ht⟩ : ∃ t, t = pairGiven c q m (taken 0x0204 c s) := ⟨_, rfl⟩
  have hrun : run 0x0204 c (taken 0x0204 c s) = reply c stOk [r8 1 m] t := by
    show pairCfgBody c (taken 0x0204 c s) = _
    simp only [pairCfgBody, argD_of_argN h1, argD_of_argN h2, ht]
    rfl
  obtain ⟨mode, mac, reset, others, cmd⟩ := pairGiven_spec (c := c) (q := q) (s := taken 0x0204 c s) hm none
  rw [← ht] at mode mac reset others cmd
  exact ⟨onCmd (fun _ => s.cmd) t, congrArg Host.Outcome.next (serve_body h hrun cmd), mode, mac, reset, others⟩

end command
end Sys2Proof.Claim
end

section
/-! A policy that takes effect, through the sources it makes fire, and ConfigurationCommands (R320, R324, R327, R343, R355). -/
namespace Sys2Proof.Claim
open Sys2Proof.Machine

/-- No applet waits, and every command owed a reply waits to start and loads no key. -/
def Unstarted (s : State) : Prop := NoneWaits s ∧ ∀ o ∈ s.cmd.owed, o.wait = .held ∧ o.opcode ≠ 0x0401

/-- The policy in force, its copies and the tamper table stay, and so do the commands while none has started. -/
def PolicyKept (s u : State) : Prop :=
  Unstarted s → u.pol = s.pol ∧ u.nv.polA = s.nv.polA ∧ u.nv.polB = s.nv.polB ∧ u.bk.table = s.bk.table ∧ u.cmd = s.cmd

theorem PolicyKept.refl (s : State) : PolicyKept s s := fun _ => ⟨rfl, rfl, rfl, rfl, rfl⟩

theorem Unstarted.of_cmd {s u : State} (h : Unstarted s) (hcmd : u.cmd = s.cmd) : Unstarted u := by
  unfold Unstarted NoneWaits
  rw [hcmd]
  exact h

theorem PolicyKept.trans {s u v : State} (h : PolicyKept s u) (k : PolicyKept u v) : PolicyKept s v := by
  intro hs
  obtain ⟨hp, ha, hb, ht, hc⟩ := h hs
  obtain ⟨kp, ka, kb, kt, kc⟩ := k (hs.of_cmd hc)
  exact ⟨kp.trans hp, ka.trans ha, kb.trans hb, kt.trans ht, kc.trans hc⟩

theorem PolicyKept.foldl {α : Type} {f : State → α → State} (h : ∀ s x, PolicyKept s (f s x)) (l : List α) (s : State) :
    PolicyKept s (l.foldl f s) := by
  induction l generalizing s with
  | nil => exact .refl s
  | cons x l ih => exact (h s x).trans (ih _)

theorem PolicyKept.of_parts {s u : State} (hpol : u.pol = s.pol) (ha : u.nv.polA = s.nv.polA) (hb : u.nv.polB = s.nv.polB)
    (ht : u.bk.table = s.bk.table) (hc : u.cmd = s.cmd) : PolicyKept s u := fun _ => ⟨hpol, ha, hb, ht, hc⟩

theorem PolicyKept.ite {s u v : State} {d : Prop} [Decidable d] (h : PolicyKept s u) (k : PolicyKept s v) : PolicyKept s (if d then u else v) := by
  split
  · exact h
  · exact k

theorem PolicyKept.of_told {s u : State} (h : Told s u) : PolicyKept s u := by
  rintro ⟨none, _⟩
  obtain ⟨_, _, _, _, _, _, _, _, ⟨_, ha⟩, rfl⟩ := h
  simp only [ha none, and_self]

theorem PolicyKept.of_sent {s u : State} (h : Sent s u) : PolicyKept s u := by
  obtain ⟨_, _, _, _, _, _, _, _, _, _, _, _, _, _, rfl⟩ := h.parts
  exact .of_parts rfl rfl rfl rfl rfl

theorem policyKept_raise (n : Nat) (d : List Nat) (s : State) : PolicyKept s (raise n d s) := .of_told (raise_told n d s)

/-- A step over the commands owed a reply that passes over those not started. -/
theorem foldl_of_unstarted {f : State → Owed → State} (hf : ∀ s o, o.wait = .held → o.opcode ≠ 0x0401 → f s o = s) {s : State}
    (h : Unstarted s) (u : State) : s.cmd.owed.foldl f u = u := by
  obtain ⟨_, held⟩ := h
  revert held
  generalize s.cmd.owed = l
  intro held
  induction l with
  | nil => rfl
  | cons o l ih =>
    obtain ⟨hw, ho⟩ := held o (List.mem_cons_self ..)
    rw [List.foldl_cons, hf u o hw ho]
    exact ih (fun x hx => held x (List.mem_cons_of_mem _ hx))

/-! ## What the responses leave (R324) -/

theorem policyKept_relink (p : Nat) (s : State) : PolicyKept s (relink p s) := by
  unfold relink
  extract_lets x up a
  have linked : PolicyKept s a := PolicyKept.trans (.of_parts rfl rfl rfl rfl rfl) (policyKept_raise _ _ (onPort p _ s))
  refine PolicyKept.ite (.refl s) (PolicyKept.ite linked (linked.trans (PolicyKept.trans ?_ (.of_sent (dropEgress_sent p a)))))
  exact .of_parts rfl rfl rfl rfl rfl

theorem policyKept_relinkAll (s : State) : PolicyKept s (relinkAll s) := by
  unfold relinkAll
  extract_lets a
  have ha : PolicyKept s a := .of_parts rfl rfl rfl rfl rfl
  exact ha.trans (.foldl (fun u p => policyKept_relink p u) _ a)

theorem policyKept_setScope (b : BitVec 4) (n : Nat) (s : State) : PolicyKept s (setScope b n s) := by
  unfold setScope
  extract_lets a d e
  have control : PolicyKept s a := .ite (.refl s) (.of_parts rfl rfl rfl rfl rfl)
  have vault : PolicyKept a d := .ite (.refl a) (.of_parts rfl rfl rfl rfl rfl)
  have opened : PolicyKept d e := .of_parts rfl rfl rfl rfl rfl
  refine ((control.trans vault).trans opened).trans (.ite (.refl e) (PolicyKept.trans ?_ (policyKept_relinkAll _)))
  exact .of_parts rfl rfl rfl rfl rfl

theorem policyKept_respSeal (s : State) : PolicyKept s (respSeal s) := by
  unfold respSeal
  extract_lets a
  have ended : PolicyKept s a := policyKept_setScope 0 _ s
  exact .ite (ended.trans (.of_parts rfl rfl rfl rfl rfl)) ended

theorem policyKept_abandonLoads (st : Nat) (s : State) : PolicyKept s (abandonLoads st s) := by
  intro h
  have same : abandonLoads st s = onPu (fun p => { p with keyChan := [], queued := [] }) s := by
    unfold abandonLoads
    rw [foldl_of_unstarted (fun u o hw ho => by simp only [hw, ho, if_false]) h]
  rw [same]
  exact ⟨rfl, rfl, rfl, rfl, rfl⟩

theorem policyKept_checkReleases (s : State) : PolicyKept s (checkReleases s) := by
  intro h
  have same : checkReleases s = s := foldl_of_unstarted (fun u o hw _ => by simp only [hw]) h s
  rw [same]
  exact ⟨rfl, rfl, rfl, rfl, rfl⟩

theorem policyKept_finishDestroys (s : State) : PolicyKept s (finishDestroys s) := by
  intro h
  have same : finishDestroys s = s := foldl_of_unstarted (fun u o hw _ => by simp only [hw]) h s
  rw [same]
  exact ⟨rfl, rfl, rfl, rfl, rfl⟩

theorem policyKept_respDrop (s : State) : PolicyKept s (respDrop s) :=
  PolicyKept.trans (.of_parts rfl rfl rfl rfl rfl) (policyKept_checkReleases (dropPumpKeys s))

/-! ## Engines (R264, R273) -/

/-- A queue's request whose command has not started has no owner. -/
theorem owner_of_unstarted {s : State} (h : Unstarted s) {w : Wait} (hw : w ≠ .held) : s.cmd.owed.find? (fun o => o.wait == w) = none := by
  obtain ⟨_, held⟩ := h
  refine List.find?_eq_none.mpr (fun o ho => ?_)
  rw [(held o ho).1]
  simpa using hw.symm

theorem policyKept_vcComplete (irq : Bool) (a : VcAns) (s : State) : PolicyKept s (vcComplete irq a s) := by
  unfold vcComplete
  extract_lets i u v
  have put : PolicyKept s u := by
    have parts : u = { s with me := u.me } := ramPut_parts ..
    rw [parts]
    exact .of_parts rfl rfl rfl rfl rfl
  have moved : PolicyKept u v := .of_parts rfl rfl rfl rfl rfl
  exact (put.trans moved).trans (.ite (policyKept_raise _ _ v) (.refl v))

theorem policyKept_meComplete (irq : Bool) (st : Nat) (s : State) : PolicyKept s (meComplete irq st s) := by
  unfold meComplete
  extract_lets i u v
  have put : PolicyKept s u := by
    have parts : u = { s with me := u.me } := ramPut_parts ..
    rw [parts]
    exact .of_parts rfl rfl rfl rfl rfl
  have moved : PolicyKept u v := .of_parts rfl rfl rfl rfl rfl
  exact (put.trans moved).trans (.ite (policyKept_raise _ _ v) (.refl v))

theorem policyKept_vcFault (s : State) : PolicyKept s (faultOwner (vcOwner s) s) := by
  intro h
  have none : vcOwner s = none := owner_of_unstarted h (by simp)
  rw [none]
  exact ⟨rfl, rfl, rfl, rfl, rfl⟩

theorem policyKept_meFault (s : State) : PolicyKept s (faultOwner (meOwner s) s) := by
  intro h
  have none : meOwner s = none := owner_of_unstarted h (by simp)
  rw [none]
  exact ⟨rfl, rfl, rfl, rfl, rfl⟩

theorem policyKept_vcAbortAll (n : Nat) (s : State) : PolicyKept s (vcAbortAll n s) := by
  induction n generalizing s with
  | zero => exact .refl s
  | succ n ih =>
    unfold vcAbortAll
    exact .ite (.refl s) (((PolicyKept.ite (policyKept_vcFault s) (.refl s)).trans (policyKept_vcComplete _ _ _)).trans (ih _))

theorem policyKept_meAbortAll (n : Nat) (s : State) : PolicyKept s (meAbortAll n s) := by
  induction n generalizing s with
  | zero => exact .refl s
  | succ n ih =>
    unfold meAbortAll
    exact .ite (.refl s) (((PolicyKept.ite (policyKept_meFault s) (.refl s)).trans (policyKept_meComplete _ _ _)).trans (ih _))

theorem policyKept_zeroiseEngines (s : State) : PolicyKept s (zeroiseEngines s) := by
  unfold zeroiseEngines
  extract_lets a
  have ha : PolicyKept s a := (policyKept_vcAbortAll 256 s).trans (.of_parts rfl rfl rfl rfl rfl)
  have scrubbed : PolicyKept a (scrubMe a) := .of_parts rfl rfl rfl rfl rfl
  exact (ha.trans scrubbed).trans (policyKept_meAbortAll 8 _)

theorem policyKept_respZeroise (s : State) : PolicyKept s (respZeroise s) := by
  unfold respZeroise
  extract_lets a b
  have ha : PolicyKept s a := .of_parts rfl rfl rfl rfl rfl
  have hb : PolicyKept a b := policyKept_zeroiseEngines a
  exact (ha.trans hb).trans (PolicyKept.trans (.of_parts rfl rfl rfl rfl rfl) (policyKept_finishDestroys (onNv _ b)))

theorem policyKept_respond (level : Nat) (s : State) : PolicyKept s (respond level s) := by
  unfold respond
  extract_lets a b d
  have ha : PolicyKept s a := .ite (policyKept_respSeal s) (.refl s)
  have hb : PolicyKept a b := .ite (policyKept_abandonLoads _ a) (.ite (policyKept_abandonLoads _ a) (.refl a))
  have hd : PolicyKept b d := .ite (policyKept_respDrop b) (.refl b)
  exact ((ha.trans hb).trans hd).trans (.ite (policyKept_respZeroise d) (.refl d))

/-! ## Firing (R327, R328) -/

theorem policyKept_applyLevel (level : Nat) (s : State) : PolicyKept s (applyLevel level s) := by
  unfold applyLevel
  extract_lets a held
  have told : PolicyKept s a := .ite (.of_told (sendRiser_told ..)) (.refl s)
  exact told.trans (PolicyKept.trans (.of_parts rfl rfl rfl rfl rfl) (policyKept_respond level (onBk _ a)))

theorem policyKept_recordFiring (s : State) (n : Nat) : PolicyKept s (recordFiring s n) := by
  unfold recordFiring
  extract_lets a b d
  have ha : PolicyKept s a := .of_parts rfl rfl rfl rfl rfl
  have hb : PolicyKept a b := .of_parts rfl rfl rfl rfl rfl
  have hd : PolicyKept b d := .of_told ((sumpSet_told n b).trans (logRecord_told ..))
  exact ((ha.trans hb).trans hd).trans (.ite (.of_told (evRaise_told n d)) (.refl d))

theorem policyKept_mramTurn (m k : Nat) (s : State) : PolicyKept s (mramTurn m k s) := by
  unfold mramTurn
  rw [inTurn_parts]
  exact .of_parts rfl rfl rfl rfl rfl

theorem policyKept_fire (set_ : BitVec 32) (s : State) : PolicyKept s (fire set_ s) := by
  unfold fire
  extract_lets l a b
  have ha : PolicyKept s a := .of_parts rfl rfl rfl rfl rfl
  have hb : PolicyKept a b := PolicyKept.trans (policyKept_mramTurn _ _ a) (policyKept_mramTurn _ _ _)
  have recorded : PolicyKept b (l.foldl recordFiring b) := .foldl policyKept_recordFiring l b
  have shown (u : State) : PolicyKept u (tagMirror u) := .of_parts rfl rfl rfl rfl rfl
  exact ha.trans (.ite (.refl a) (hb.trans (recorded.trans (PolicyKept.trans (policyKept_applyLevel _ _) (shown _)))))

theorem policyKept_goInactive (n : Nat) (s : State) : PolicyKept s (goInactive n s) :=
  .ite (.of_parts rfl rfl rfl rfl rfl) (.refl s)

/-- A new table stands while its sources are judged (R320). -/
theorem policyKept_newTable (t : List Nat) (s : State) : PolicyKept (onBk (fun b => { b with table := t }) s) (newTable t s) := by
  unfold newTable
  extract_lets a diff b
  have ha : PolicyKept (onBk (fun b => { b with table := t }) s) a := .of_parts rfl rfl rfl rfl rfl
  have hb : PolicyKept a b := .foldl (fun u n => .ite (.refl u) (policyKept_goInactive n u)) _ a
  exact (ha.trans hb).trans (policyKept_fire _ b)

/-! ## POLICY_LOAD (R355) -/

section load
variable {c : Call} {s : State} {o : AuthObj}

/-- The copies with the newer policy in the place of the older one (R355). -/
def copyOrder (x : Option AuthObj) : Int := match x with | some y => (leNat (y.body.take 4) : Int) | none => -1
def copyStored (o : AuthObj) (s : State) : State :=
  onNv (fun n => if copyOrder n.polA ≤ copyOrder n.polB then { n with polA := some o } else { n with polB := some o }) s

theorem copyStored_spec (o : AuthObj) (s : State) : (copyStored o s).nv.polA = some o ∧ (copyStored o s).nv.polB = s.nv.polB ∨
    (copyStored o s).nv.polB = some o ∧ (copyStored o s).nv.polA = s.nv.polA := by
  unfold copyStored
  rw [onNv_nv]
  split
  · exact .inl ⟨rfl, rfl⟩
  · exact .inr ⟨rfl, rfl⟩

theorem applyPolicy_spec (p : Policy) {s : State} (h : Unstarted s) : (applyPolicy p s).pol = p ∧ (applyPolicy p s).nv.polA = s.nv.polA ∧
    (applyPolicy p s).nv.polB = s.nv.polB ∧ (applyPolicy p s).bk.table = p.tamper ∧ (applyPolicy p s).cmd = s.cmd := by
  obtain ⟨t, ht⟩ : ∃ t, t = setStandby { s with pol := p } := ⟨_, rfl⟩
  have kept {α : Type} (proj : State → α) (hp : ∀ (i : Nat) (k : Pump → Pump) (u : State), proj (onPump i k u) = proj u) :
      proj t = proj { s with pol := p } := by
    rw [ht]
    exact setStandby_apart proj hp _
  have cmd : (onBk (fun b => { b with table := p.tamper }) t).cmd = s.cmd := kept State.cmd (fun _ _ _ => rfl)
  obtain ⟨pol, polA, polB, table, cmd2⟩ := policyKept_newTable p.tamper t (h.of_cmd cmd)
  unfold applyPolicy
  rw [← ht]
  exact ⟨pol.trans (kept State.pol (fun _ _ _ => rfl)), polA.trans (kept (fun u => u.nv.polA) (fun _ _ _ => rfl)),
    polB.trans (kept (fun u => u.nv.polB) (fun _ _ _ => rfl)), table, cmd2.trans cmd⟩

theorem unstarted_taken {opc : Nat} (h : Ready opc c s) (hop : opc ≠ 0x0401) : Unstarted (taken opc c s) := by
  obtain ⟨-, none, -⟩ := quiet_of_ready h
  refine ⟨none, fun o ho => ?_⟩
  obtain rfl : o = { call := c, opcode := opc, wait := .held } := by simpa [taken] using ho
  exact ⟨rfl, hop⟩

theorem policyLoad_replies (h : Ready 0x0201 c s) (ho : authArg c 1 [0x10] s = some o) (hok : policyOk o.body = true)
    (hnew : s.pol.version < (policyOf o.body).version) :
    ∃ d, exec (.policyLoad c) s = .next (answered 0x0201 c stOk [r32 1 (policyOf o.body).version] d) ∧
      d.pol = policyOf o.body ∧ d.bk.table = (policyOf o.body).tamper ∧
      (d.nv.polA = some o ∧ d.nv.polB = s.nv.polB ∨ d.nv.polB = some o ∧ d.nv.polA = s.nv.polA) := by
  have given : authArg c 1 [0x10] (taken 0x0201 c s) = some o := ho
  have newer : ¬ (policyOf o.body).version ≤ (taken 0x0201 c s).pol.version := Nat.not_le.mpr hnew
  obtain ⟨t, ht⟩ : ∃ t, t = applyPolicy (policyOf o.body) (copyStored o (taken 0x0201 c s)) := ⟨_, rfl⟩
  have hrun : run 0x0201 c (taken 0x0201 c s) = reply c stOk [r32 1 (policyOf o.body).version] t := by
    show policyLoadBody c (taken 0x0201 c s) = _
    simp only [policyLoadBody, given, hok, newer, Bool.not_true, Bool.false_eq_true, if_false, ht]
    rfl
  have stored : (copyStored o (taken 0x0201 c s)).cmd = (taken 0x0201 c s).cmd := rfl
  obtain ⟨pol, polA, polB, table, cmd⟩ := applyPolicy_spec (policyOf o.body) ((unstarted_taken h (by decide)).of_cmd stored)
  rw [← ht] at pol polA polB table cmd
  refine ⟨onCmd (fun _ => s.cmd) t, congrArg Host.Outcome.next (serve_body h hrun (cmd.trans stored)), pol, table, ?_⟩
  rw [onCmd_nv, polA, polB]
  exact copyStored_spec o (taken 0x0201 c s)

end load

/-- Settles O27: each command's operation on the state in which it is taken; a policy and a pair's mode through all they set off. -/
theorem configurationCommands : Obligations.ConfigurationCommands := by
  unfold Obligations.ConfigurationCommands
  intro c s
  exact ⟨fun h o ho hok hnew => policyLoad_replies h ho hok hnew, policyGet_replies, fun h p m h1 h2 => portCfg_replies h h1 h2,
    fun h q m h1 h2 => pairCfg_replies h h1 h2,
    fun h hx q base size cbase csize h1 h2 h3 h4 h5 hoff hsize hcsize hs hc hfmt hdrop =>
      rxqCfg_replies h2 h3 h4 h5 hsize hcsize hs hc h hx h1 hoff hfmt hdrop,
    fun h hx q base size cbase csize h1 h2 h3 h4 h5 hoff hsize hcsize hs hc =>
      txqCfg_replies h2 h3 h4 h5 hsize hcsize hs hc h hx h1 hoff,
    fun h p o q h1 h2 h3 ho => rxmapSet_replies h h1 h2 h3 ho, fun h p h1 h2 h3 => cfgGet_replies h h1 h2 h3,
    fun h p m h1 h2 => loopback_replies h h1 h2⟩

end Sys2Proof.Claim
end

section
/-! A calm device behind events and answers, and the end of a row while commands or a swap wait for their time (R232, R372). -/
namespace Sys2Proof.Claim
open Sys2Proof.Machine

/-! ## What keeps a device calm -/

/-- What falls due depends on the frames in work only, of all the frame path holds. -/
theorem NothingDue.of_frames {s t : State} (h : NothingDue s) (hse : t.se = s.se) (hegr : t.fp.egr = s.fp.egr)
    (hing : t.fp.ing = s.fp.ing) (htu : t.tu = s.tu) (hclk : t.clk = s.clk) (hkey : t.ev.waitKey = s.ev.waitKey) : NothingDue t := by
  obtain ⟨commits, frames, verdicts, asked⟩ := h
  have same : NothingDue { s with fp := t.fp } := ⟨commits, hegr ▸ frames, hing ▸ verdicts, asked⟩
  exact same.of_parts hse rfl htu hclk hkey

theorem Calm.of_parts {s t : State} (h : Calm s) (hplat : t.plat = s.plat) (hcmd : t.cmd = s.cmd) (hctl : t.cpuC = s.cpuC)
    (hvlt : t.cpuV = s.cpuV) (hdue : NothingDue t) : Calm t := by
  obtain ⟨run, owed, swap, ctl, vlt, quiet, -⟩ := h
  exact ⟨by simpa [running, hplat] using run, hcmd ▸ owed, hplat ▸ swap, hctl ▸ ctl, hvlt ▸ vlt, quiet.of_cmd hcmd, hdue⟩

theorem Calm.of_heard {s t : State} (h : Calm s) (k : Heard s t) : Calm t := by
  have told := k.told
  exact h.of_parts told.plat (told.cmd (quiet_of_calm h).2.1) told.cpuC told.cpuV
    ((nothingDue_of_calm h).of_parts told.se told.fp told.tu told.clk k.waitKey)

theorem Calm.onMe {s : State} (h : Calm s) (f : Me → Me) : Calm (onMe f s) := h

theorem Calm.lowCells {s : State} (h : Calm s) : Calm (lowCells s) := by
  have spilt := lowCells_spilt s
  have apart {α : Type} (g : State → α) (hg : ∀ (k : Fp → Fp) (u : State), g (onFp k u) = g u) : g (Machine.lowCells s) = g s :=
    spilt.apart g hg
  exact h.of_parts (apart State.plat fun _ _ => rfl) (apart State.cmd fun _ _ => rfl) (apart State.cpuC fun _ _ => rfl)
    (apart State.cpuV fun _ _ => rfl)
    ((nothingDue_of_calm h).of_frames (apart State.se fun _ _ => rfl) (spilt.fp Fp.egr fun _ _ _ _ _ _ _ => rfl) (lowCells_ing s)
      (apart State.tu fun _ _ => rfl) (lowCells_clk s) (by simp))

/-! ## A waiting command that is answered -/

theorem Calm.mailboxWrite {s : State} (h : Calm s) (m : Bool) (a : Nat) (b : Bytes) : Calm (mailboxWrite m a b s) := by
  unfold Machine.mailboxWrite
  simp only
  split
  · exact h.onMe _
  · exact (h.onMe _).of_heard (heard_raise _ _ _)

theorem Calm.mailboxPut {s : State} (h : Calm s) (out : Bool) (b : Bytes) : Calm (mailboxPut out b s) := by
  have slots (l : List Nat) (at_ : Nat → Nat) (x : Nat → Bytes) {t : State} (ht : Calm t) :
      Calm (l.foldl (fun s i => Machine.mailboxWrite (!out) (at_ i) (x i) s) t) := by
    induction l generalizing t with
    | nil => exact ht
    | cons i l ih => exact ih (ht.mailboxWrite _ _ _)
  exact ((slots _ _ _ h).mailboxWrite _ _ _).mailboxWrite _ _ _

theorem Calm.carry {s : State} (h : Calm s) (opc : Nat) (c : Call) (r : Reply) : Calm (carry opc c r s) := by
  unfold Machine.carry
  split
  · exact (((h.of_heard (heard_sendRiser _ _ _ _ _)).mailboxPut _ _).mailboxPut _ _).of_heard (heard_sendRiser _ _ _ _ _)
  · exact h

theorem Calm.ends {d : State} (h : Calm d) (opc : Nat) (c : Call) (st : Nat) (tlvs : List Tlv) : Calm (ends opc c st tlvs d) := by
  have carried := h.carry opc c (mkReply c opc st tlvs (replyVersion c d))
  unfold Claim.ends handBack
  refine Calm.deliver ?_ _
  have passed := (carried.of_heard (heard_cdcPass cdcRequests ((requestBytes opc c).length / 16) _)).of_heard
    (heard_cdcPass cdcReplies ((replyBytes (mkReply c opc st tlvs (replyVersion c d))).length / 16) _)
  cases c.via <;> assumption

/-- The one command that waits is answered. -/
theorem reply_awaited {c : Call} {opc : Nat} {w : Wait} {s : State} (h : s.cmd.owed = [{ call := c, opcode := opc, wait := w }])
    (st : Nat) (tlvs : List Tlv) : reply c st tlvs s = ends opc c st tlvs (onCmd (fun x => { x with owed := [] }) s) := by
  have own : isOwed c { call := c, opcode := opc, wait := w } = true := by simp [isOwed]
  have dropped : onCmd (fun x => { x with owed := dropOwed c x.owed }) s = onCmd (fun x => { x with owed := [] }) s := by
    simp [onCmd, h, dropOwed, own]
  simp only [reply, h, List.find?_cons, own, dropped]
  rfl

theorem await_awaited {c : Call} {opc : Nat} {w : Wait} {s : State} (h : s.cmd.owed = [{ call := c, opcode := opc, wait := w }])
    (v : Wait) : await c v s = onCmd (fun x => { x with owed := [{ call := c, opcode := opc, wait := v }] }) s := by
  simp [await, onCmd, h, isOwed]

/-! ## The end of a row -/

/-- The device without the commands that wait and the swap that runs. -/
def atRest (s : State) : State := onCmd (fun c => { c with owed := [] }) (onPlat (fun p => { p with swap := none }) s)

/-- The command waits for a march test, for an armed instant or for a swap. -/
def AwaitsTime (o : Owed) : Prop :=
  match o.wait with
  | .march _ _ _ _ | .armedSwap _ _ | .swap _ _ => True
  | _ => False

theorem AwaitsTime.notHeld {o : Owed} (h : AwaitsTime o) : o.wait ≠ .held := by
  intro held
  simp [AwaitsTime, held] at h

/-- A step that passes over such commands passes over a list of them. -/
theorem foldl_of_awaitsTime {f : State → Owed → State} (hf : ∀ s o, AwaitsTime o → f s o = s) {l : List Owed}
    (h : ∀ o ∈ l, AwaitsTime o) (s : State) : l.foldl f s = s := by
  induction l with
  | nil => rfl
  | cons o l ih =>
    rw [List.foldl_cons, hf s o (h o (List.mem_cons_self ..))]
    exact ih (fun x hx => h x (List.mem_cons_of_mem _ hx))

theorem marchWake_of_awaitsTime {s : State} (h : ∀ o ∈ s.cmd.owed, AwaitsTime o) : marchWake s = s := by
  unfold marchWake
  split
  · refine foldl_of_awaitsTime (fun s o ho => ?_) h s
    cases hw : o.wait <;> simp_all [AwaitsTime]
  · rfl

theorem tokensDue_of_awaitsTime {s : State} (h : ∀ o ∈ s.cmd.owed, AwaitsTime o) : tokensDue s = s := by
  refine foldl_of_awaitsTime (fun s o ho => ?_) h s
  cases hw : o.wait <;> simp_all [AwaitsTime]

theorem startWaiting_of_awaitsTime {s : State} (h : ∀ o ∈ s.cmd.owed, AwaitsTime o) : startWaiting s = s := by
  have none_ (l earlier : List Owed) (hl : ∀ o ∈ l, AwaitsTime o) : firstStart s earlier l = none := by
    induction l generalizing earlier with
    | nil => rfl
    | cons o l ih =>
      have notHeld := (hl o (List.mem_cons_self ..)).notHeld
      simp only [firstStart, startable, beq_eq_false_iff_ne.mpr notHeld, Bool.false_and, Bool.false_eq_true, if_false]
      exact ih _ (fun x hx => hl x (List.mem_cons_of_mem _ hx))
  unfold startWaiting
  cases s.cmd.owed.length with
  | zero => rfl
  | succ n => simp only [startAll, none_ _ _ h]

/-- The end of a row moves a running swap on, and nothing else when all else is calm and what waits waits for its time. -/
theorem settle_of_atRest {s t : State} (ht : swapTick s = t) (hw : ∀ o ∈ t.cmd.owed, AwaitsTime o) (h : Calm (atRest t)) :
    settle s = t := by
  obtain ⟨-, -, -, hctl, hvlt, hquiet, hdue⟩ := h
  have quiet : Quiet t := hquiet
  have due : NothingDue t := hdue
  have caught : catchUp s = t := by
    unfold catchUp
    rw [ht, restartTick_of_none (s := t) hctl hvlt, marchWake_of_awaitsTime hw, tokensDue_of_awaitsTime hw, commitDue_of_nothingDue due,
      framesDue_of_nothingDue due, askWaiting_of_nothingDue due, startWaiting_of_awaitsTime hw]
  unfold settle
  rw [caught]
  exact rowEnd_of_quiet quiet

/-- The rows that let time pass and move the device on. -/
theorem movesAfter_of_running {dt : Nat} {f : State → State} {s : State} (h : running (advance dt s) = true) :
    movesAfter dt f s = .next (settle (f (advance dt s))) := by
  simp only [movesAfter, moves, h, if_true]
  rfl

end Sys2Proof.Claim
end

section
/-! Trials, armed swaps and the parts of a running swap (R366 to R372, R443). -/
namespace Sys2Proof.Claim
open Sys2Proof.Machine

/-! ## The end of a trial (R367) -/

theorem trialEnd_row (dt : Nat) (k : CoreId) (s : State) : let a := advance dt s
    let r := recOf k a
    let at_ := match k with
      | .control => a.fw.trialAtC
      | .vault => a.fw.trialAtV
    let due : Prop := running a = true ∧ r.trial = true ∧ chosenOf k a = some r.active ∧ (cpu k a).stopped = false ∧
      at_ + 250000000 * a.pol.trial ≤ a.clk.now
    (¬ due → exec (.trialEnd dt k) s = .next a) ∧
    (due → exec (.trialEnd dt k) s = .next (setRec k { r with trial := false, floor := max r.floor (imageSvn k r.active a) }
      (onFw (fun f => { f with trialWas := some (k, a.clk.now, r) }) a))) := by
  intro a r at_ due
  have row : exec (.trialEnd dt k) s = done (if due then
      setRec k { r with trial := false, floor := max r.floor (imageSvn k r.active a) }
        (onFw (fun f => { f with trialWas := some (k, a.clk.now, r) }) a) else a) := by
    show execTrialEnd dt k s = _
    have test : (running a && r.trial && decide (chosenOf k a = some r.active) && !(cpu k a).stopped &&
        decide (at_ + secTicks a.pol.trial ≤ a.clk.now)) = true ↔ due := by
      simp [due, secTicks, Nat.mul_comm, and_assoc]
    unfold execTrialEnd
    exact congrArg done (if_congr test rfl rfl)
  exact ⟨fun h => by rw [row, if_neg h]; rfl, fun h => by rw [row, if_pos h]; rfl⟩

/-! ## The parts of a running swap (R369, R370) -/

/-- The instant of the swap's next part has not come. -/
def Unreached (w : Swap) (now : Nat) : Prop :=
  w.pointed = false ∧ now < w.pointAt ∨ w.pointed = true ∧ w.committed = false ∧ now < w.commitAt ∨
    w.pointed = true ∧ w.committed = true ∧ now < w.endsAt

section running
variable {a : State} {w : Swap} (hswap : a.plat.swap = some w)
include hswap

theorem swapPart_of_running : swapPart a = if !w.pointed then (if w.pointAt ≤ a.clk.now then swapPoint w a else a)
    else if !w.committed then
      if a.clk.now < w.commitAt || (w.core == .control && a.ri.st == .retraining) then a
      else if swapReaches w a then swapCommit w a
      else abandonSwap w (if vaultReached a then dmaRefused a else a)
    else if w.endsAt ≤ a.clk.now then swapEnd w a
    else a := by
  simp only [swapPart, hswap]

theorem swapPart_of_unreached (h : Unreached w a.clk.now) : swapPart a = a := by
  rw [swapPart_of_running hswap]
  rcases h with ⟨hp, ht⟩ | ⟨hp, hc, ht⟩ | ⟨hp, hc, ht⟩
  · simp [hp, ht]
  · simp [hp, hc, ht]
  · simp [hp, hc, ht]

theorem swapTick_of_unreached (h : Unreached w a.clk.now) : swapTick a = a := by
  simp only [swapTick, swapPart_of_unreached hswap h]

end running

theorem swapPart_of_none {s : State} (h : s.plat.swap = none) : swapPart s = s := by simp only [swapPart, h]

/-- A part behind which none is due is all a tick performs. -/
theorem swapTick_of_part {s t : State} (hpart : swapPart s = t) (ht : swapPart t = t) : swapTick s = t := by
  simp only [swapTick, hpart, ht]

section parts
variable {a : State} {w : Swap} (calm : Calm (onPlat (fun p => { p with swap := none }) a))
include calm

theorem armedSwaps_of_running : armedSwaps a = a := by
  obtain ⟨-, unowed, -⟩ := calm
  have owed : a.cmd.owed = [] := unowed
  simp only [armedSwaps, owed, List.foldl_nil]

/-- The row ends with the swap's part when that leaves the commands and all else calm. -/
theorem settle_swap {t : State} (ht : swapTick a = t) (hcmd : t.cmd.owed = []) (h : Calm (atRest t)) : settle (armedSwaps a) = t := by
  rw [armedSwaps_of_running calm]
  exact settle_of_atRest ht (by simp [hcmd]) h

variable (hswap : a.plat.swap = some w)
include hswap

theorem settle_swap_unreached (h : Unreached w a.clk.now) : settle (armedSwaps a) = a := by
  obtain ⟨run, owed, swap, rest⟩ := calm
  exact settle_swap ⟨run, owed, swap, rest⟩ (swapTick_of_unreached hswap h) owed ⟨run, rfl, rfl, rest⟩

/-- The swap point. -/
theorem settle_swap_point (hp : w.pointed = false) (hc : w.committed = false) (h : w.pointAt ≤ a.clk.now) (hnext : a.clk.now < w.commitAt) :
    settle (armedSwaps a) = swapPoint w a := by
  obtain ⟨run, owed, -, ctl, vlt, quiet, due⟩ := calm
  have part : swapPart a = swapPoint w a := by simp [swapPart_of_running hswap, hp, h]
  have next : swapPart (swapPoint w a) = swapPoint w a := by
    refine swapPart_of_unreached (w := { w with pointed := true }) ?_ (.inr (.inl ⟨rfl, hc, ?_⟩))
    · cases hk : w.core <;> simp [swapPoint, hk, onCpu]
    · cases hk : w.core <;> simpa [swapPoint, hk, onCpu] using hnext
  refine settle_swap ⟨run, owed, rfl, ctl, vlt, quiet, due⟩ (swapTick_of_part part next) ?_ ?_
  · cases hk : w.core <;> simpa [swapPoint, hk, onCpu] using owed
  · have power : a.plat.pwrOk = true := by simp only [running, Bool.and_eq_true] at run; exact run.1
    unfold swapPoint
    cases w.core <;> exact ⟨by simp [running, atRest, onCpu, power], rfl, rfl, ctl, vlt, quiet, due⟩

/-- What the commit point of a swap of the vault core leaves while none of its applets runs. -/
def committedSwap (w : Swap) (a : State) : State :=
  onPlat (fun p => { p with swap := some { w with committed := true, apps := [] } })
    (match w.sess with
      | some id => onFw (fun f => { f with sessions := f.sessions.filter (fun x => x.id ≠ id) }) (setRec .vault
          { recOf .vault a with active := 1 - (recOf .vault a).active, trial := true, prev := true } a)
      | none => setRec .vault { recOf .vault a with active := 1 - (recOf .vault a).active, trial := false, prev := true } a)

omit hswap calm in
theorem swapCommit_eq (hk : w.core = .vault) (hidle : ∀ i, (appletOf i a).running = false) : swapCommit w a = committedSwap w a := by
  have none_ : runningApplets .vault a = [] := by simp [runningApplets, hidle]
  unfold swapCommit committedSwap
  simp only [hk, none_, List.foldl_nil]
  cases w.sess <;> rfl

/-- The commit point. -/
theorem settle_swap_commit (hp : w.pointed = true) (hc : w.committed = false) (h : w.commitAt ≤ a.clk.now) (hnext : a.clk.now < w.endsAt)
    (hk : w.core = .vault) (hidle : ∀ i, (appletOf i a).running = false) : settle (armedSwaps a) = committedSwap w a := by
  obtain ⟨run, owed, -, ctl, vlt, quiet, due⟩ := calm
  have part : swapPart a = committedSwap w a := by
    rw [swapPart_of_running hswap, ← swapCommit_eq hk hidle]
    simp [hp, hc, hk, h, swapReaches]
  have next : swapPart (committedSwap w a) = committedSwap w a := by
    refine swapPart_of_unreached (w := { w with committed := true, apps := [] }) rfl (.inr (.inr ⟨hp, rfl, ?_⟩))
    unfold committedSwap
    cases w.sess <;> exact hnext
  refine settle_swap ⟨run, owed, rfl, ctl, vlt, quiet, due⟩ (swapTick_of_part part next) ?_ ?_
  · unfold committedSwap
    cases w.sess <;> exact owed
  · unfold committedSwap
    cases w.sess <;> exact ⟨run, rfl, rfl, ctl, vlt, quiet, due⟩

omit hswap calm in
/-- A core that starts changes its own state, the control RAM and the firmware's records, and restarts no core (R361, R409). -/
theorem startCore_parts (k : CoreId) (bank : Nat) (cause : Word) (s : State) : ∃ m f x y,
    startCore k bank cause s = { s with me := m, fw := f, cpuC := x, cpuV := y } ∧
      (s.cpuC.restarting = none → x.restarting = none) ∧ (s.cpuV.restarting = none → y.restarting = none) := by
  cases k
  · exact ⟨_, _, _, _, rfl, fun _ => rfl, fun h => h⟩
  · exact ⟨_, _, _, _, rfl, fun h => h, fun _ => rfl⟩

/-- What the end of a swap leaves that stopped no applet. -/
def endedSwap (w : Swap) (a : State) : State :=
  onPlat (fun p => { p with swap := none, stage := .ready }) (startCore w.core (recOf w.core a).active w.cause a)

/-- The end of a swap. -/
theorem settle_swap_end (hp : w.pointed = true) (hc : w.committed = true) (h : w.endsAt ≤ a.clk.now) (happs : w.apps = []) :
    settle (armedSwaps a) = endedSwap w a := by
  obtain ⟨run, owed, -, ctl, vlt, quiet, due⟩ := calm
  have owed' : (endedSwap w a).cmd.owed = [] := by
    obtain ⟨_, _, _, _, started, -⟩ := startCore_parts w.core (recOf w.core a).active w.cause a
    unfold endedSwap
    rw [started]
    exact owed
  have part : swapPart a = endedSwap w a := by
    have finish : swapEnd w a = nextSwap (endedSwap w a) := by
      show nextSwap (match (resumeApplets w.apps (endedSwap w a)).cmd.owed.find? _ with
        | some o => replyOk o.call [] (resumeApplets w.apps (endedSwap w a))
        | none => resumeApplets w.apps (endedSwap w a)) = _
      simp only [happs, resumeApplets, List.foldl_nil, owed', List.find?_nil]
    rw [swapPart_of_running hswap]
    simp only [hp, hc, h, Bool.not_true, Bool.false_eq_true, if_false, if_true]
    simp only [finish, nextSwap, owed', List.find?_nil]
  refine settle_swap ⟨run, owed, rfl, ctl, vlt, quiet, due⟩ (swapTick_of_part part (swapPart_of_none rfl)) owed' ?_
  have power : a.plat.pwrOk = true := by simp only [running, Bool.and_eq_true] at run; exact run.1
  obtain ⟨m, f, x, y, started, hx, hy⟩ := startCore_parts w.core (recOf w.core a).active w.cause a
  unfold endedSwap
  rw [started]
  exact ⟨by simp [running, atRest, power], rfl, rfl, hx ctl, hy vlt, quiet, due⟩

end parts

/-! ## Armed swaps (R370) -/

theorem startSwap_eq (k : CoreId) (sess : Option Nat) (s : State) :
    startSwap k sess s = onPlat (fun p => { p with swap := some (swapAt k sess (cpu k s).ecause s.clk.now) }) s := by
  cases k <;> rfl

theorem fwActivateInstant_row {dt : Nat} {s d : State} (h : running (advance dt s) = true)
    (hd : settle (armedSwaps (advance dt s)) = d) : exec (.fwActivateInstant dt) s = .next d := by
  rw [← hd]
  exact movesAfter_of_running h

section armed
variable {a : State} {c : Call} {id t : Nat} (howed : a.cmd.owed = [{ call := c, opcode := 0x0C04, wait := .armedSwap id t }])
include howed

theorem armedSwaps_of_armed : armedSwaps a = if ptp16 a < t then a else match sessOfId id a with
    | some x => askSwap c x.core (some id) a
    | none => badParam c 1 a := by
  unfold armedSwaps
  exact congrArg (List.foldl _ a) howed

variable (calm : Calm (onCmd (fun c => { c with owed := [] }) a))
include calm

/-- Before its instant an armed swap waits. -/
theorem settle_armed_early (h : ptp16 a < t) : settle (armedSwaps a) = a := by
  obtain ⟨run, owed, swap, rest⟩ := calm
  rw [armedSwaps_of_armed howed, if_pos h]
  exact settle_of_atRest (swapTick_of_none swap) (by simp [howed, AwaitsTime]) ⟨run, owed, rfl, rest⟩

/-- At its instant it begins. -/
theorem settle_armed_begins (h : t ≤ ptp16 a) {x : FwSess} (hx : sessOfId id a = some x) :
    settle (armedSwaps a) = onPlat (fun p => { p with swap := some (swapAt x.core (some id) (cpu x.core a).ecause a.clk.now) })
      (onCmd (fun y => { y with owed := [{ call := c, opcode := 0x0C04, wait := .swap x.core (some id) }] }) a) := by
  obtain ⟨run, owed, swap, rest⟩ := calm
  have asked : askSwap c x.core (some id) a = onPlat (fun p => { p with
      swap := some (swapAt x.core (some id) (cpu x.core a).ecause a.clk.now) })
      (onCmd (fun y => { y with owed := [{ call := c, opcode := 0x0C04, wait := .swap x.core (some id) }] }) a) := by
    have idle : (onCmd (fun y => { y with owed := [{ call := c, opcode := 0x0C04, wait := .swap x.core (some id) }] }) a).plat.swap.isSome =
      false := by rw [Option.isSome_eq_false_iff]; exact Option.isNone_iff_eq_none.mpr swap
    simp only [askSwap, await_awaited howed, idle, startSwap_eq, Bool.false_eq_true, if_false]
    cases x.core <;> rfl
  rw [armedSwaps_of_armed howed, if_neg (Nat.not_lt.mpr h), hx]
  refine (congrArg settle asked).trans (settle_of_atRest (swapTick_of_unreached rfl ?_) (by simp [AwaitsTime]) ⟨run, rfl, rfl, rest⟩)
  refine .inl ⟨rfl, ?_⟩
  cases x.core <;> exact Nat.lt_add_of_pos_right (by decide)

/-- One whose session is gone is refused. -/
theorem settle_armed_gone (h : t ≤ ptp16 a) (hx : sessOfId id a = none) : settle (armedSwaps a) =
    ends 0x0C04 c stBadParam (refuseTlvs (stBadParam, tlvOffset c.pkt 1 0, rsRange, 1)) (onCmd (fun y => { y with owed := [] }) a) := by
  rw [armedSwaps_of_armed howed, if_neg (Nat.not_lt.mpr h), hx]
  have refused : badParam c 1 a = _ := reply_awaited howed _ _
  rw [refused]
  exact settle_of_calm (calm.ends _ _ _ _)

end armed

/-- Trials, armed swaps and the parts of a swap. -/
theorem firmwareEvents : FirmwareEvents := by
  refine ⟨trialEnd_row, ?_, ?_⟩
  · intro dt s c id t x a calm howed
    have run : running a = true := calm.1
    exact ⟨fun h => fwActivateInstant_row run (settle_armed_early howed calm h),
      fun h hx => fwActivateInstant_row run (settle_armed_begins howed calm h hx),
      fun h hx => fwActivateInstant_row run (settle_armed_gone howed calm h hx)⟩
  · intro dt s w a hswap calm
    have run : running a = true := calm.1
    exact ⟨fun hp h => fwActivateInstant_row run (settle_swap_unreached calm hswap (.inl ⟨hp, h⟩)),
      fun hp hc h hnext => fwActivateInstant_row run (settle_swap_point calm hswap hp hc h hnext),
      fun hp hc h => fwActivateInstant_row run (settle_swap_unreached calm hswap (.inr (.inl ⟨hp, hc, h⟩))),
      fun hp hc h hnext hk hidle => fwActivateInstant_row run (settle_swap_commit calm hswap hp hc h hnext hk hidle),
      fun hp hc h happs => fwActivateInstant_row run (settle_swap_end calm hswap hp hc h happs)⟩

end Sys2Proof.Claim
end

section
/-! March tests block by block, and the commanded run that goes on with them (R65, R376 to R379). -/
namespace Sys2Proof.Claim
open Sys2Proof.Machine

/-- The memory is march-tested in service. -/
abbrev Tested (m : MemId) : Prop := m ≠ .pumpStore ∧ m ≠ .controlRom ∧ m ≠ .vaultRom ∧ m ≠ .mram

/-- The last march test of the memory's die (R377). -/
def lastMarch (m : MemId) (s : State) : Nat := if memWell m then s.me.marchAtW else s.me.marchAtP

/-- The instant of a test is noted on the memory's die. -/
def marchStamped (m : MemId) (s : State) : State :=
  onMe (fun x => if memWell m then { x with marchAtW := s.clk.now } else { x with marchAtP := s.clk.now }) s

/-- The failing words of a block, as offsets in their memory. -/
def failingWords (m : MemId) (b : Nat) (fails : List Nat) : List Nat :=
  ((fails.filter (fun f => f < 256 && b * 256 + f < memWords m)).dedup).map (b * 256 + ·)

/-- The commanded run that waits for the block goes on to the next, or ends with its result. -/
def marchAnswered (m : MemId) (b : Nat) (words : List Nat) (s : State) : State :=
  match s.cmd.owed.find? (fun o => match o.wait with
      | .march n k _ _ => n == m && k == b
      | _ => false) with
  | none => s
  | some o =>
    match o.wait with
    | .march _ _ count first =>
      if b + 1 < memBlocks m then await o.call (.march m (b + 1) (count + words.length) ((first ++ words).take 8)) s
      else replyOk o.call [rtlv 1 (marchResult (count + words.length) ((first ++ words).take 8))] (lend m 0 s)
    | _ => s

theorem marchBlock_eq (m : MemId) (b : Nat) (fails : List Nat) (s : State) : marchBlock m b fails s =
    if memBlocks m ≤ b ∨ ¬ Tested m then s
    else if lastMarch m s ≠ 0 ∧ s.clk.now < lastMarch m s + 25000 then s
    else marchAnswered m b (failingWords m b fails) (marchFail false m (failingWords m b fails) (marchEvict m b (marchStamped m s))) := by
  have out : (memBlocks m ≤ b || m = .pumpStore || m = .controlRom || m = .vaultRom || m = .mram) = true ↔
      memBlocks m ≤ b ∨ ¬ Tested m := by
    simp only [Bool.or_eq_true, decide_eq_true_eq, Tested]
    tauto
  have soon : (lastMarch m s ≠ 0 && s.clk.now < lastMarch m s + marchTicks) = true ↔
      lastMarch m s ≠ 0 ∧ s.clk.now < lastMarch m s + 25000 := by
    rw [Bool.and_eq_true, decide_eq_true_eq, decide_eq_true_eq]
    rfl
  exact if_congr out rfl (if_congr soon rfl rfl)

section answered
variable {m : MemId} {b : Nat} {s : State} (words : List Nat)

theorem marchAnswered_of_unasked (h : s.cmd.owed = []) : marchAnswered m b words s = s := by
  simp only [marchAnswered, h, List.find?_nil]

variable {c : Call} {n : Nat} {first : List Nat} (h : s.cmd.owed = [{ call := c, opcode := 0x0B04, wait := .march m b n first }])
include h

theorem marchAnswered_on (hb : b + 1 < memBlocks m) : marchAnswered m b words s = onCmd (fun x => { x with
    owed := [{ call := c, opcode := 0x0B04, wait := .march m (b + 1) (n + words.length) ((first ++ words).take 8) }] }) s := by
  rw [← await_awaited h]
  simp [marchAnswered, h, hb]

theorem marchAnswered_end (hb : b + 1 = memBlocks m) (hm : m ≠ .delivery ∧ m ≠ .transmit) : marchAnswered m b words s =
    ends 0x0B04 c stOk [rtlv 1 (marchResult (n + words.length) ((first ++ words).take 8))]
      (onCmd (fun x => { x with owed := [] }) s) := by
  have whole : lend m 0 s = s := by
    cases m with
    | delivery => exact absurd rfl hm.1
    | transmit => exact absurd rfl hm.2
    | _ => rfl
  rw [← reply_awaited h]
  simp [marchAnswered, h, hb, whole, replyOk]

end answered

/-! ## What a failing word maps out (R65, R379) -/

/-- The event of a failed march test on the memory's die. -/
def marchRaised (m : MemId) (s : State) : State := raise (if memWell m then 141 else 97) [] s

theorem marchRaised_sump (m : MemId) (s : State) :
    if memWell m then (marchRaised m s).ev.sumpW.getLsbD 141 = true else (marchRaised m s).ev.sumpP.getLsbD 97 = true := by
  unfold marchRaised
  split
  · exact raise_sticky (n := 141) [] s (by decide) (by decide)
  · exact raise_sticky (n := 97) [] s (by decide) (by decide)

theorem raise_tag (n : Nat) (d : List Nat) (s : State) : (raise n d s).nv.tag = s.nv.tag := by
  obtain ⟨_, _, _, _, _, _, _, _, _, told⟩ := raise_told n d s
  rw [told]

/-- A word is put out of use. -/
def wordWithdrawn (m : MemId) (w : Nat) (s : State) : State :=
  onMe (fun x => { x with withdrawn := x.withdrawn ++ [(m, w)].filter (fun e => !x.withdrawn.contains e) }) s

theorem mem_wordWithdrawn (m : MemId) (w : Nat) (s : State) : (m, w) ∈ (wordWithdrawn m w s).me.withdrawn := by
  by_cases h : (m, w) ∈ s.me.withdrawn <;> simp [wordWithdrawn, h]

theorem marchFail_delivery (w : Nat) (s : State) : marchFail false .delivery [w] s =
    lowCells (onFp (fun f => { f with wdDelivery := min 32768 (f.wdDelivery + 1) }) (wordWithdrawn .delivery w (marchRaised .delivery s))) := by
  simp [marchFail, marchRaised, wordWithdrawn]

theorem marchFail_transmit (w : Nat) (s : State) : marchFail false .transmit [w] s =
    onFp (fun f => { f with wdTransmit := min 32768 (f.wdTransmit + 1) }) (wordWithdrawn .transmit w (marchRaised .transmit s)) := by
  simp [marchFail, marchRaised, wordWithdrawn]

theorem marchFail_other {m : MemId} (h : m ≠ .streamCache ∧ m ≠ .delivery ∧ m ≠ .transmit) (w : Nat) (s : State) :
    marchFail false m [w] s = marchRaised m s := by
  obtain ⟨h1, h2, h3⟩ := h
  cases m with
  | streamCache => exact absurd rfl h1
  | delivery => exact absurd rfl h2
  | transmit => exact absurd rfl h3
  | _ => rfl

/-- What a march test that finds one bad word leaves of the device. -/
def MappedOut (m : MemId) (w : Nat) (a d : State) : Prop :=
  (if m = .delivery ∨ m = .transmit then (m, w) ∈ d.me.withdrawn else d.me.withdrawn = a.me.withdrawn) ∧
    (if memWell m then d.ev.sumpW.getLsbD 141 = true else d.ev.sumpP.getLsbD 97 = true) ∧
    (m = .delivery → d.fp.wdDelivery = min 32768 (a.fp.wdDelivery + 1)) ∧
    (m = .transmit → d.fp.wdTransmit = min 32768 (a.fp.wdTransmit + 1)) ∧ d.se = a.se ∧ d.nv.tag = a.nv.tag

theorem marchFail_mapsOut {m : MemId} (hcache : m ≠ .streamCache) (w : Nat) (s : State) : MappedOut m w s (marchFail false m [w] s) := by
  have sump := marchRaised_sump m s
  have tag : (marchRaised m s).nv.tag = s.nv.tag := raise_tag _ _ s
  have withdrawn := mem_wordWithdrawn m w (marchRaised m s)
  have se : (marchRaised m s).se = s.se := raise_se _ _ s
  have fp : (marchRaised m s).fp = s.fp := raise_fp _ _ s
  by_cases hd : m = .delivery
  · subst hd
    rw [marchFail_delivery]
    have me := (lowCells_spilt (onFp (fun f => { f with wdDelivery := min 32768 (f.wdDelivery + 1) })
      (wordWithdrawn .delivery w (marchRaised .delivery s)))).apart State.me (fun _ _ => rfl)
    refine ⟨?_, ?_, fun _ => ?_, nofun, ?_, ?_⟩
    · rw [if_pos (.inl rfl), me]
      exact withdrawn
    · simpa [wordWithdrawn] using sump
    · simp [wordWithdrawn, fp]
    · simp [wordWithdrawn, se]
    · simp [wordWithdrawn, tag]
  by_cases ht : m = .transmit
  · subst ht
    rw [marchFail_transmit]
    generalize marchRaised .transmit s = u at *
    exact ⟨by rw [if_pos (.inr rfl)]; exact withdrawn, sump, nofun, fun _ => by simp [wordWithdrawn, fp], se, tag⟩
  · rw [marchFail_other ⟨hcache, hd, ht⟩]
    have me : (marchRaised m s).me = s.me := raise_me _ _ s
    exact ⟨by rw [if_neg (by simp [hd, ht]), me], sump, fun h => absurd h hd, fun h => absurd h ht, se, tag⟩

/-- The same on a die whose last test is noted. -/
theorem marchFail_stamped {m : MemId} (hcache : m ≠ .streamCache) (w : Nat) (s : State) :
    MappedOut m w s (marchFail false m [w] (marchStamped m s)) := by
  have same : (marchStamped m s).me.withdrawn = s.me.withdrawn := by
    unfold marchStamped
    simp only [onMe_me]
    split <;> rfl
  obtain ⟨withdrawn, rest⟩ := marchFail_mapsOut hcache w (marchStamped m s)
  exact ⟨same ▸ withdrawn, rest⟩

theorem Calm.marchFail {m : MemId} {s : State} (h : Calm s) (hcache : m ≠ .streamCache) (w : Nat) : Calm (marchFail false m [w] s) := by
  have raised : Calm (marchRaised m s) := h.of_heard (heard_raise _ _ _)
  by_cases hd : m = .delivery
  · subst hd
    rw [marchFail_delivery]
    generalize marchRaised .delivery s = u at *
    exact Calm.lowCells (s := onFp (fun f => { f with wdDelivery := min 32768 (f.wdDelivery + 1) }) (wordWithdrawn .delivery w u)) raised
  by_cases ht : m = .transmit
  · subst ht
    rw [marchFail_transmit]
    generalize marchRaised .transmit s = u at *
    exact raised
  · rw [marchFail_other ⟨hcache, hd, ht⟩]
    exact raised

/-! ## The row -/

theorem marchBlock_row {dt : Nat} {m : MemId} {b : Nat} {fails : List Nat} {s d : State} (h : running (advance dt s) = true)
    (hd : settle (marchBlock m b fails (advance dt s)) = d) : exec (.marchBlock dt m b fails) s = .next d := by
  rw [← hd]
  exact movesAfter_of_running h

section rows
variable {m : MemId} {b : Nat} {a : State} (calm : Calm (onCmd (fun c => { c with owed := [] }) a))
include calm

theorem calm_of_unowed (howed : a.cmd.owed = []) : Calm a := by
  obtain ⟨run, -, rest⟩ := calm
  exact ⟨run, howed, rest⟩

theorem settle_march_untested (howed : a.cmd.owed = [])
    (h : ¬ Tested m ∨ memBlocks m ≤ b ∨ lastMarch m a ≠ 0 ∧ a.clk.now < lastMarch m a + 25000) (fails : List Nat) :
    settle (marchBlock m b fails a) = a := by
  have stays : marchBlock m b fails a = a := by
    rw [marchBlock_eq]
    split
    next => rfl
    next inside =>
      rw [not_or] at inside
      exact if_pos ((h.resolve_left inside.2).resolve_left inside.1)
  rw [stays]
  exact settle_of_calm (calm_of_unowed calm howed)

section tested
variable (tested : Tested m) (hb : b < memBlocks m) (late : lastMarch m a = 0 ∨ lastMarch m a + 25000 ≤ a.clk.now)
  (hcache : m ≠ .streamCache)
include tested hb late hcache

omit calm in
theorem marchBlock_of_tested (fails : List Nat) : marchBlock m b fails a =
    marchAnswered m b (failingWords m b fails) (marchFail false m (failingWords m b fails) (marchStamped m a)) := by
  rw [marchBlock_eq, if_neg (not_or.mpr ⟨Nat.not_le.mpr hb, not_not.mpr tested⟩), if_neg (by omega), marchEvict, if_neg hcache]

omit calm in
theorem marchBlock_clean : marchBlock m b [] a = marchAnswered m b [] (marchStamped m a) := by
  have none_ : failingWords m b [] = [] := by simp [failingWords]
  rw [marchBlock_of_tested tested hb late hcache, none_]
  simp [marchFail]

theorem settle_march_clean (howed : a.cmd.owed = []) : settle (marchBlock m b [] a) = marchStamped m a := by
  have stamped : Calm (marchStamped m a) := (calm_of_unowed calm howed).onMe _
  rw [marchBlock_clean tested hb late hcache, marchAnswered_of_unasked _ (owed_nil_of_calm stamped)]
  exact settle_of_calm stamped

theorem settle_march_failing (howed : a.cmd.owed = []) {f : Nat} (hf : f < 256) (hin : b * 256 + f < memWords m) :
    settle (marchBlock m b [f] a) = marchFail false m [b * 256 + f] (marchStamped m a) := by
  have words : failingWords m b [f] = [b * 256 + f] := by simp [failingWords, hf, hin]
  have stamped : Calm (marchStamped m a) := (calm_of_unowed calm howed).onMe _
  have marched := stamped.marchFail hcache (b * 256 + f)
  rw [marchBlock_of_tested tested hb late hcache, words, marchAnswered_of_unasked _ (owed_nil_of_calm marched)]
  exact settle_of_calm marched

variable {c : Call} {n : Nat} {first : List Nat} (howed : a.cmd.owed = [{ call := c, opcode := 0x0B04, wait := .march m b n first }])
include howed

theorem settle_march_on (hnext : b + 1 < memBlocks m) : settle (marchBlock m b [] a) = marchStamped m (onCmd (fun x => { x with
    owed := [{ call := c, opcode := 0x0B04, wait := .march m (b + 1) n (first.take 8) }] }) a) := by
  obtain ⟨run, owed, swap, rest⟩ := calm
  have goes : marchBlock m b [] a = marchStamped m (onCmd (fun x => { x with
      owed := [{ call := c, opcode := 0x0B04, wait := .march m (b + 1) n (first.take 8) }] }) a) := by
    rw [marchBlock_clean tested hb late hcache]
    refine (marchAnswered_on (s := marchStamped m a) _ howed hnext).trans ?_
    rw [List.append_nil]
    rfl
  rw [goes]
  exact settle_of_atRest (swapTick_of_none swap) (by simp [marchStamped, AwaitsTime]) ⟨run, rfl, rfl, rest⟩

theorem settle_march_end (hend : b + 1 = memBlocks m) (hm : m ≠ .delivery ∧ m ≠ .transmit) : settle (marchBlock m b [] a) =
    ends 0x0B04 c stOk [rtlv 1 (natLE 4 n ++ ((first.take 8 ++ List.replicate 8 0).take 8).flatMap (fun w => natLE 4 w))]
      (marchStamped m (onCmd (fun x => { x with owed := [] }) a)) := by
  have goes : marchBlock m b [] a = ends 0x0B04 c stOk
      [rtlv 1 (natLE 4 n ++ ((first.take 8 ++ List.replicate 8 0).take 8).flatMap (fun w => natLE 4 w))]
      (marchStamped m (onCmd (fun x => { x with owed := [] }) a)) := by
    rw [marchBlock_clean tested hb late hcache]
    refine (marchAnswered_end (s := marchStamped m a) _ howed hend hm).trans ?_
    rw [List.append_nil]
    rfl
  rw [goes]
  exact settle_of_calm ((calm.onMe _).ends _ _ _ _)

end tested
end rows

end Sys2Proof.Claim
end

section
/-! The scrubbers, and MemoryTestsAndFirmwareEvents (R65, R115, R374, R375, R404). -/
namespace Sys2Proof.Claim
open Sys2Proof.Machine

/-! ## A line that is read again (R115) -/

/-- The lines and the table of the entries change, and no pending event goes. -/
structure Reread (s t : State) : Prop where
  fp : t.fp = s.fp
  se : ∃ c u, t.se = { s.se with cache := c, table := u }
  pend : ∀ n, s.ev.pend.getLsbD n = true → t.ev.pend.getLsbD n = true

theorem Reread.refl (s : State) : Reread s s := ⟨rfl, ⟨_, _, rfl⟩, fun _ h => h⟩

theorem Reread.trans {s t u : State} (h : Reread s t) (k : Reread t u) : Reread s u := by
  obtain ⟨c, e, hse⟩ := h.se
  obtain ⟨c2, e2, kse⟩ := k.se
  exact ⟨k.fp.trans h.fp, ⟨c2, e2, by rw [kse, hse]⟩, fun n hn => k.pend n (h.pend n hn)⟩

theorem Heard.reread {s t : State} (h : Heard s t) : Reread s t := ⟨h.told.fp, ⟨_, _, h.told.se⟩, h.pend⟩

theorem reread_setTable (i : Nat) (e : Entry) (s : State) : Reread s (setTable i e s) := ⟨rfl, ⟨_, _, rfl⟩, fun _ h => h⟩

theorem reread_onCacheSet (n : Nat) (f : List CLineC → List CLineC) (s : State) : Reread s (onCacheSet n f s) :=
  ⟨rfl, ⟨_, _, rfl⟩, fun _ h => h⟩

theorem reread_dataEntry (i : Nat) (f : Entry → Entry) (s : State) : Reread s (dataEntry i f s) := by
  unfold dataEntry
  split
  · exact reread_onCacheSet _ _ s
  · exact reread_setTable _ _ s

theorem reread_reserve (i : Nat) (s : State) : Reread s (reserve i s).2 := by
  have asked := heard_sendRiser true .key .counterBlocks (natLE 2 i) s
  have bound (f : CtrLine → CtrLine) (u : State) : Reread u (onLine i f u) := ⟨rfl, ⟨_, _, rfl⟩, fun _ h => h⟩
  exact (asked.reread.trans (bound _ _)).trans (heard_sendRiser false .key .counterBlocks _ _).reread

theorem reread_reload (i : Nat) (s : State) : Reread s (keyRequest (.reload i) s) := by
  simp only [keyRequest]
  split
  · exact (reread_reserve _ s).trans (reread_dataEntry i _ _)
  · exact .refl s

theorem reread_askReload (i : Nat) (s : State) : Reread s (askVault (.reload i) s) := by
  unfold askVault
  split
  · exact reread_reload i s
  · exact ⟨rfl, ⟨_, _, rfl⟩, fun _ h => h⟩

/-- A lost line is reported before it is read again. -/
theorem reloadLost_after (i : Nat) (s : State) : Reread (raise 67 [i] s) (reloadLost i s) := by
  unfold reloadLost
  simp only
  split
  · exact (reread_setTable _ _ _).trans (reread_askReload i _)
  · exact .refl _

theorem reread_reloadLost (i : Nat) (s : State) : Reread s (reloadLost i s) :=
  (heard_raise 67 [i] s).reread.trans (reloadLost_after i s)

theorem reloadLost_pend (i : Nat) (s : State) : (reloadLost i s).ev.pend.getLsbD 67 = true :=
  (reloadLost_after i s).pend 67 (raise_pend [i] s (by decide) (by decide))

/-! ## Ways of the cache (R115) -/

/-- A withdrawn way is noted as such; the frames stay. -/
theorem withdrawWay_holds (way : Nat) (bad : Option Nat) (s : State) :
    way ∈ (withdrawWay way bad s).se.wdWays ∧ (withdrawWay way bad s).fp.ing = s.fp.ing := by
  have written (l : List CLineC) (u : State) :
      Reread u (l.foldl (fun s l => if l.dirty && bad ≠ some l.idx then setTable l.idx l.entry s else s) u) := by
    induction l generalizing u with
    | nil => exact .refl u
    | cons x l ih =>
      rw [List.foldl_cons]
      refine Reread.trans ?_ (ih _)
      split
      · exact reread_setTable _ _ u
      · exact .refl u
  unfold withdrawWay
  simp only
  generalize hl : (s.se.cache.map (fun e => e.2.filter (fun l => l.way == way))).flatten = l
  have back := written l s
  generalize l.foldl (fun s l => if l.dirty && bad ≠ some l.idx then setTable l.idx l.entry s else s) s = u at back
  split
  next x _ =>
    obtain ⟨fp, ⟨c, e, se⟩, -⟩ := reread_reloadLost x.idx (onSe (fun e => { e with
      wdWays := e.wdWays ++ [way],
      cache := (e.cache.map (fun (n, ls) => (n, ls.filter (fun l => l.way ≠ way)))).filter (fun (_, ls) => ls ≠ []) }) u)
    exact ⟨by rw [se]; simp, by rw [fp]; exact congrArg Fp.ing back.fp⟩
  next => exact ⟨by simp, congrArg Fp.ing back.fp⟩

/-- An error in the last way leaves the ways, counts and is reported. -/
theorem lastWayError_holds (way : Nat) (line : Option CLineC) (s : State) :
    (lastWayError way line s).se.wdWays = s.se.wdWays ∧ smGet 0 (lastWayError way line s).se.corrWays way = smGet 0 s.se.corrWays way + 1 ∧
      (lastWayError way line s).ev.pend.getLsbD 67 = true := by
  have counted {t : State} (h : Reread (onSe (fun x => { x with corrWays := smMod 0 x.corrWays way (· + 1) }) s) t) :
      t.se.wdWays = s.se.wdWays ∧ smGet 0 t.se.corrWays way = smGet 0 s.se.corrWays way + 1 := by
    obtain ⟨c, e, se⟩ := h.se
    rw [se]
    simp
  cases line with
  | none => exact ⟨(counted (heard_raise _ _ _).reread).1, (counted (heard_raise _ _ _).reread).2, raise_pend _ _ (by decide) (by decide)⟩
  | some l =>
    have dropped := reread_onCacheSet (l.idx % 4096) (fun ls => ls.filter (fun x => x.idx ≠ l.idx))
      (onSe (fun x => { x with corrWays := smMod 0 x.corrWays way (· + 1) }) s)
    unfold lastWayError
    simp only
    split
    · have all := counted (dropped.trans (reread_reloadLost l.idx _))
      exact ⟨all.1, all.2, reloadLost_pend _ _⟩
    · have all := counted (dropped.trans (heard_raise 67 [l.idx] _).reread)
      exact ⟨all.1, all.2, raise_pend _ _ (by decide) (by decide)⟩

/-! ## The scrubbers (R374, R375, R404) -/

/-- The scrub of a word that its memory has, on a running device. -/
def scrubbed (m : MemId) (w : Nat) (e : MemErr) (s : State) : State :=
  match m, e with
  | .controlRom, _ => s
  | .vaultRom, _ => s
  | .pumpStore, _ => s
  | _, .clean => s
  | .streamCache, e => cacheError w e s
  | .delivery, .corrected => countCorrected .delivery (deliveryHit .corrected s)
  | m, .corrected => countCorrected m s
  | .delivery, .uncorrectable => deliveryError s
  | .transmit, .uncorrectable => transmitError s
  | .mram, .uncorrectable =>
    uncorrectable .mram (onNv (fun n => { n with torn := if n.torn.contains w then n.torn else n.torn ++ [w] }) s)
  | m, .uncorrectable => uncorrectable m (markFaulty m w s)

theorem scrub_row {m : MemId} {w : Nat} {s d : State} {e : MemErr} (hrun : running s = true) (hw : w < memWords m)
    (hd : scrubbed m w e s = d) : exec (.scrub m w e) s = .next d := by
  rw [← hd]
  show execScrub m w e s = _
  unfold execScrub
  rw [if_neg (by simp [hrun, hw])]
  cases m <;> cases e <;> rfl

section scrubs
variable {m : MemId} {w : Nat} {s : State}

theorem scrubbed_nothing {e : MemErr} (h : m = .controlRom ∨ m = .vaultRom ∨ m = .pumpStore ∨ e = .clean) : scrubbed m w e s = s := by
  rcases h with rfl | rfl | rfl | rfl
  · rfl
  · rfl
  · rfl
  · cases m <;> rfl

theorem scrubbed_corrected (h1 : m ≠ .controlRom) (h2 : m ≠ .vaultRom) (h3 : m ≠ .pumpStore) (h4 : m ≠ .streamCache) (h5 : m ≠ .delivery) :
    scrubbed m w .corrected s = countCorrected m s := by
  cases m with
  | controlRom => exact absurd rfl h1
  | vaultRom => exact absurd rfl h2
  | pumpStore => exact absurd rfl h3
  | streamCache => exact absurd rfl h4
  | delivery => exact absurd rfl h5
  | _ => rfl

theorem scrubbed_uncorrectable (h : m ∈ [.controlRam, .controlBit, .vaultX, .vaultY, .mailbox, .vaultBit, .engineBuffers])
    (hnew : (m, w) ∉ s.me.faulty) : scrubbed m w .uncorrectable s = raise (if memWell m then 140 else 96) []
      (onMe (fun x => { x with faulty := x.faulty ++ [(m, w)] }) s) := by
  have marked : markFaulty m w s = onMe (fun x => { x with faulty := x.faulty ++ [(m, w)] }) s := by simp [markFaulty, onMe, hnew]
  rw [← marked]
  cases m with
  | controlRam | controlBit | vaultX | vaultY | mailbox | vaultBit | engineBuffers => rfl
  | _ => simp at h

theorem scrubbed_mram (hnew : w ∉ s.nv.torn) :
    scrubbed .mram w .uncorrectable s = raise 138 [] (onNv (fun n => { n with torn := n.torn ++ [w] }) s) := by
  simp [scrubbed, uncorrectable, onNv, hnew]

theorem scrubbed_transmit : scrubbed .transmit w .uncorrectable s =
    raise 66 [] (onFp (fun f => { f with wdTransmit := min 32768 (f.wdTransmit + 1) }) s) := rfl

theorem scrubbed_delivery_uncorrectable : scrubbed .delivery w .uncorrectable s = deliveryError s := rfl

end scrubs

/-! ## Delivery memory (R65, R68) -/

/-- One free value is drawn. -/
def drawn (s : State) : State := { s with free := s.free + 1 }

/-- Cells the records of the queues hold. -/
def heldCells (s : State) : Nat := ((rxRecs s).map (·.cells)).sum

/-- A cell that no record holds is hit in a frame, and without a frame in none. -/
theorem deliveryHit_missed {e : MemErr} {s : State} (hing : s.fp.ing = []) (h : ¬ (draw 15 s).1 < heldCells s) :
    deliveryHit e s = drawn s := by
  have same : { s.fp with ing := hitFrames e ((draw 15 s).1 - heldCells s) s.fp.ing } = s.fp := by
    rw [hing, hitFrames, ← hing]
  have hit : deliveryHit e s = onFp (fun f => { f with
      rxq := if (draw 15 s).1 < heldCells s then hitQueues e (draw 15 s).1 f.rxq else f.rxq
      ing := if (draw 15 s).1 < heldCells s then f.ing else hitFrames e ((draw 15 s).1 - heldCells s) f.ing }) (drawn s) := rfl
  rw [hit]
  simp only [if_neg h]
  exact congrArg (fun f => { drawn s with fp := f }) same

theorem deliveryHit_held {e : MemErr} {s : State} (h : (draw 15 s).1 < heldCells s) :
    deliveryHit e s = onFp (fun f => { f with rxq := hitQueues e (draw 15 s).1 f.rxq }) (drawn s) := by
  have hit : deliveryHit e s = onFp (fun f => { f with
      rxq := if (draw 15 s).1 < heldCells s then hitQueues e (draw 15 s).1 f.rxq else f.rxq
      ing := if (draw 15 s).1 < heldCells s then f.ing else hitFrames e ((draw 15 s).1 - heldCells s) f.ing }) (drawn s) := rfl
  rw [hit]
  simp only [if_pos h]

theorem scrubbed_delivery_empty {w : Nat} {s : State} (hrecs : rxRecs s = []) (hing : s.fp.ing = []) :
    scrubbed .delivery w .corrected s = countCorrected .delivery (drawn s) := by
  have none_ : heldCells s = 0 := by simp [heldCells, hrecs]
  show countCorrected .delivery (deliveryHit .corrected s) = _
  rw [deliveryHit_missed hing (by omega)]

/-- With one record held, the cell lies in it or in none. -/
theorem scrubbed_delivery_one {w : Nat} {s : State} {q : Nat} {x : RxQ} {r : Rec} (hq : s.fp.rxq = [(q, x)]) (hrecs : x.recs = [r])
    (hing : s.fp.ing = []) : scrubbed .delivery w .corrected s = countCorrected .delivery (drawn s) ∨
      scrubbed .delivery w .corrected s = countCorrected .delivery (onFp (fun f => { f with rxq := [(q, { x with
        recs := [{ r with verdict := { r.verdict with corr := decide (r.verdict.ver = 2) } }], corrected := wrap1 x.corrected })] })
        (drawn s)) := by
  have one : heldCells s = r.cells := by simp [heldCells, rxRecs, hq, hrecs]
  show countCorrected .delivery (deliveryHit .corrected s) = _ ∨ countCorrected .delivery (deliveryHit .corrected s) = _
  by_cases inside : (draw 15 s).1 < heldCells s
  · right
    have cells : (draw 15 s).1 < r.cells := one ▸ inside
    have queue : hitQueues .corrected (draw 15 s).1 s.fp.rxq = [(q, { x with
        recs := [{ r with verdict := { r.verdict with corr := decide (r.verdict.ver = 2) } }], corrected := wrap1 x.corrected })] := by
      simp [hq, hitQueues, hrecs, hitRecs, cells, hitRec]
    rw [deliveryHit_held inside]
    exact congrArg (fun l => countCorrected .delivery (onFp (fun f => { f with rxq := l }) (drawn s))) queue
  · left
    rw [deliveryHit_missed hing inside]

theorem deliveryError_holds (s : State) : (deliveryError s).fp.wdDelivery = min 32768 (s.fp.wdDelivery + 1) ∧
    (deliveryError s).ev.pend.getLsbD 66 = true ∧ (deliveryError s).se = s.se ∧ (deliveryError s).free = s.free + 1 := by
  have free (u : State) : (lowCells u).free = u.free := (lowCells_spilt u).apart State.free (fun _ _ => rfl)
  refine ⟨?_, ?_, ?_, ?_⟩
  · simp [deliveryError, deliveryHit, draw]
  · simpa [deliveryError] using raise_pend [] _ (by decide : 66 < 256) (by decide)
  · simp [deliveryError, deliveryHit, draw]
  · simp [deliveryError, free, deliveryHit, draw]

/-! ## The stream cache (R115) -/

theorem scrubbed_cache_corrected {w : Nat} {s : State} (h : smGet 0 s.se.corrWays (w % 256 / 16) + 1 < 64) :
    scrubbed .streamCache w .corrected s = onSe (fun x => { x with
      corrWays := smSet 0 x.corrWays (w % 256 / 16) (smGet 0 x.corrWays (w % 256 / 16) + 1) }) (countCorrected .streamCache s) := by
  show cacheError w .corrected s = _
  simp only [cacheError, if_neg (Nat.not_le.mpr h)]
  rfl

theorem scrubbed_cache_lost {w : Nat} {s : State} (hin : w % 256 / 16 ∉ s.se.wdWays) (hroom : s.se.wdWays.length < 15) :
    ∃ bad, scrubbed .streamCache w .uncorrectable s = withdrawWay (w % 256 / 16) bad s := by
  refine ⟨(lineAt w s).map (·.idx), ?_⟩
  show cacheError w .uncorrectable s = _
  have room : ¬ 15 ≤ s.se.wdWays.length := Nat.not_le.mpr hroom
  simp [cacheError, loseWay, hin, room]

theorem scrubbed_cache_last {w : Nat} {s : State} (hin : w % 256 / 16 ∉ s.se.wdWays) (hfull : 15 ≤ s.se.wdWays.length) :
    scrubbed .streamCache w .uncorrectable s = lastWayError (w % 256 / 16) (lineAt w s) s := by
  show cacheError w .uncorrectable s = _
  simp [cacheError, hin, hfull]

/-! ## The obligation -/

/-- The scrubbers and the march tests. -/
theorem memoryTests : MemoryTests := by
  refine ⟨?_, ?_⟩
  · intro m w s hrun hw
    refine ⟨fun e h => scrub_row hrun hw (scrubbed_nothing h), fun h1 h2 h3 h4 h5 => scrub_row hrun hw (scrubbed_corrected h1 h2 h3 h4 h5),
      fun h hnew => scrub_row hrun hw (scrubbed_uncorrectable h hnew), ?_, ?_, ?_, ?_, ?_⟩
    · rintro rfl hnew
      exact scrub_row hrun hw (scrubbed_mram hnew)
    · rintro rfl
      exact scrub_row hrun hw scrubbed_transmit
    · rintro rfl
      exact ⟨fun hrecs hing => scrub_row hrun hw (scrubbed_delivery_empty hrecs hing),
        fun q x r hq hrecs hing => (scrubbed_delivery_one hq hrecs hing).imp (scrub_row hrun hw) (scrub_row hrun hw)⟩
    · rintro rfl
      exact ⟨_, scrub_row hrun hw scrubbed_delivery_uncorrectable, deliveryError_holds s⟩
    · rintro rfl
      refine ⟨fun h => scrub_row hrun hw (scrubbed_cache_corrected h), fun hin hroom => ?_, fun hin hfull => ?_⟩
      · obtain ⟨bad, lost⟩ := scrubbed_cache_lost hin hroom
        exact ⟨_, scrub_row hrun hw lost, withdrawWay_holds _ bad s⟩
      · exact ⟨_, scrub_row hrun hw (scrubbed_cache_last hin hfull), lastWayError_holds _ _ s⟩
  · intro dt m b s a last stamp tested calm
    have run : running a = true := calm.1
    refine ⟨fun howed h f => marchBlock_row run (settle_march_untested calm howed h f), fun ht hb late hcache => ⟨?_, ?_, ?_⟩⟩
    · exact fun howed => marchBlock_row run (settle_march_clean calm ht hb late hcache howed)
    · exact fun howed f hf hin => ⟨_, marchBlock_row run (settle_march_failing calm ht hb late hcache howed hf hin),
        marchFail_stamped hcache _ a⟩
    · exact fun c n first howed => ⟨fun hnext => marchBlock_row run (settle_march_on calm ht hb late hcache howed hnext),
        fun hend hd htr => marchBlock_row run (settle_march_end calm ht hb late hcache howed hend ⟨hd, htr⟩)⟩

/-- Settles O58: a scrub and a march test by the memory and the finding; a swap by the one part whose instant has come, since a
calm device has nothing else to catch up with. -/
theorem memoryTestsAndFirmwareEvents : Obligations.MemoryTestsAndFirmwareEvents := ⟨memoryTests, firmwareEvents⟩

end Sys2Proof.Claim
end

section
/-! Stream entries as the control path changes them: what a control change, a chain count and a freed position leave of the
others, and a staged change in its transaction (R102, R110, R113, R135, R136). -/
namespace Sys2Proof.Claim
open Sys2Proof.Machine

/-! ## Lines of the cache (R113) -/

/-- A change of a set's lines that keeps their indices is seen at every index of that set. -/
theorem cacheLine_onCacheSet_map (n : Nat) {g : CLineC → CLineC} (hg : ∀ l, (g l).idx = l.idx) (j : Nat) (s : State) :
    cacheLine j (onCacheSet n (fun ls => ls.map g) s) = if j % 4096 = n then (cacheLine j s).map g else cacheLine j s := by
  have index : (fun l => l.idx == j) ∘ g = (fun l => l.idx == j) := by
    funext l
    simp only [Function.comp_apply, hg]
  unfold cacheLine
  simp only [onCacheSet, onSe_se, smGet_smMod]
  split
  next hset => rw [List.find?_map, index, hset]
  next => rfl

/-- The line of index i takes an entry; the other lines stay. -/
def lineGiven (i : Nat) (e : CLineC → Entry) (d : Bool) (l : CLineC) : CLineC :=
  if l.idx = i then { l with entry := e l, dirty := d } else l

theorem lineGiven_idx (i : Nat) (e : CLineC → Entry) (d : Bool) (l : CLineC) : (lineGiven i e d l).idx = l.idx := by
  unfold lineGiven
  split <;> rfl

theorem cacheLine_idx {i : Nat} {l : CLineC} {s : State} (h : cacheLine i s = some l) : l.idx = i := by
  simpa using List.find?_some h

/-- What the lines read at an index once the line of i has taken an entry. -/
theorem cacheLine_lineGiven (i j : Nat) (e : CLineC → Entry) (d : Bool) (s : State) :
    cacheLine j (onCacheSet (i % 4096) (fun ls => ls.map (lineGiven i e d)) s) =
      if j = i then (cacheLine j s).map (fun l => { l with entry := e l, dirty := d }) else cacheLine j s := by
  rw [cacheLine_onCacheSet_map _ (lineGiven_idx i e d)]
  cases hl : cacheLine j s with
  | none => simp
  | some l =>
    have hidx := cacheLine_idx hl
    by_cases hij : j = i
    · simp [hij, lineGiven, hidx]
    · have other : ¬ l.idx = i := by omega
      simp [hij, lineGiven, other]

theorem cacheLine_setTable (i j : Nat) (e : Entry) (s : State) : cacheLine j (setTable i e s) = cacheLine j s := rfl

theorem entryOfTable_setTable (i j : Nat) (e : Entry) (s : State) :
    entryOfTable j (setTable i e s) = if j = i then e else entryOfTable j s := by
  simp only [entryOfTable, setTable, onSe_se, smGet_smSet]

theorem entryOfTable_onCacheSet (n j : Nat) (f : List CLineC → List CLineC) (s : State) :
    entryOfTable j (onCacheSet n f s) = entryOfTable j s := rfl

/-- A control change is what the engine then reads at its index, and no other entry moves. -/
theorem curEntry_ctlEntry (i j : Nat) (f : Entry → Entry) (s : State) :
    curEntry j (ctlEntry i f s) = if j = i then f (curEntry i s) else curEntry j s := by
  have parts : ctlEntry i f s = setTable i (f (curEntry i s))
      (onCacheSet (i % 4096) (fun ls => ls.map (lineGiven i (fun _ => f (curEntry i s)) false)) s) := rfl
  rw [parts]
  unfold curEntry
  rw [cacheLine_setTable, cacheLine_lineGiven, entryOfTable_setTable, entryOfTable_onCacheSet]
  by_cases hij : j = i
  · subst hij
    cases cacheLine j s <;> simp
  · simp [hij]

/-- A data-path change leaves the other entries. -/
theorem curEntry_dataEntry_other {i j : Nat} (h : j ≠ i) (f : Entry → Entry) (s : State) :
    curEntry j (dataEntry i f s) = curEntry j s := by
  unfold dataEntry
  split
  next =>
    have line := cacheLine_lineGiven i j (fun l => f l.entry) true s
    rw [if_neg h] at line
    unfold curEntry
    exact congrArg (fun o : Option CLineC => match o with | some l => l.entry | none => entryOfTable j s) line
  next =>
    unfold curEntry
    rw [cacheLine_setTable, entryOfTable_setTable, if_neg h]

/-! ## What entries are changed by (R102, R113) -/

/-- Entries have changed: of the device only the table and the cache differ. -/
def EntriesMoved (s u : State) : Prop := ∃ c t, u = onSe (fun e => { e with cache := c, table := t }) s

theorem EntriesMoved.refl (s : State) : EntriesMoved s s := ⟨_, _, rfl⟩

theorem EntriesMoved.trans {s u v : State} (h : EntriesMoved s u) (k : EntriesMoved u v) : EntriesMoved s v := by
  obtain ⟨_, _, rfl⟩ := h
  obtain ⟨_, _, rfl⟩ := k
  exact ⟨_, _, rfl⟩

/-- What neither the table nor the cache shows is as it was. -/
theorem EntriesMoved.apart {s u : State} (h : EntriesMoved s u) {α : Type} (g : State → α)
    (hg : ∀ c t v, g (onSe (fun e => { e with cache := c, table := t }) v) = g v) : g u = g s := by
  obtain ⟨c, t, rfl⟩ := h
  exact hg c t s

theorem EntriesMoved.txnOf {s u : State} (h : EntriesMoved s u) (k : Nat) : txnOf k u = txnOf k s := h.apart (Machine.txnOf k) (fun _ _ _ => rfl)
theorem EntriesMoved.nv {s u : State} (h : EntriesMoved s u) : u.nv = s.nv := h.apart State.nv (fun _ _ _ => rfl)
theorem EntriesMoved.fp {s u : State} (h : EntriesMoved s u) : u.fp = s.fp := h.apart State.fp (fun _ _ _ => rfl)
theorem EntriesMoved.cmd {s u : State} (h : EntriesMoved s u) : u.cmd = s.cmd := h.apart State.cmd (fun _ _ _ => rfl)
theorem EntriesMoved.co {s u : State} (h : EntriesMoved s u) : u.co = s.co := h.apart State.co (fun _ _ _ => rfl)

theorem entriesMoved_ctlEntry (i : Nat) (f : Entry → Entry) (s : State) : EntriesMoved s (ctlEntry i f s) := ⟨_, _, rfl⟩

theorem entriesMoved_dataEntry (i : Nat) (f : Entry → Entry) (s : State) : EntriesMoved s (dataEntry i f s) := dataEntry_parts i f s

/-- One step of a chain count. -/
def chainStep (up : Bool) (s : State) (i : Nat) : State :=
  if (curEntry i s).chain = 255 then s
  else dataEntry i (fun e => { e with chain := if up then min 255 (e.chain + 1) else e.chain - 1 }) s

theorem chainAdd_eq (k : MatchKey) (rank : Nat) (up : Bool) (s : State) :
    chainAdd k rank up s = ((candidates k s).take rank).foldl (chainStep up) s := rfl

theorem entriesMoved_chainStep (up : Bool) (s : State) (i : Nat) : EntriesMoved s (chainStep up s i) := by
  unfold chainStep
  split
  · exact .refl s
  · exact entriesMoved_dataEntry i _ s

theorem curEntry_chainStep (up : Bool) (s : State) (i j : Nat) : ∃ n, curEntry j (chainStep up s i) = { curEntry j s with chain := n } := by
  unfold chainStep
  split
  · exact ⟨_, rfl⟩
  · by_cases hij : j = i
    · rw [hij, curEntry_dataEntry]
      exact ⟨_, rfl⟩
    · rw [curEntry_dataEntry_other hij]
      exact ⟨_, rfl⟩

theorem entriesMoved_chainAdd (k : MatchKey) (rank : Nat) (up : Bool) (s : State) : EntriesMoved s (chainAdd k rank up s) := by
  rw [chainAdd_eq]
  generalize (candidates k s).take rank = l
  induction l generalizing s with
  | nil => exact .refl s
  | cons i l ih => exact (entriesMoved_chainStep up s i).trans (ih _)

/-- A chain count leaves all of an entry but its CHAIN (R102). -/
theorem curEntry_chainAdd (k : MatchKey) (rank : Nat) (up : Bool) (j : Nat) (s : State) :
    ∃ n, curEntry j (chainAdd k rank up s) = { curEntry j s with chain := n } := by
  rw [chainAdd_eq]
  generalize (candidates k s).take rank = l
  induction l generalizing s with
  | nil => exact ⟨_, rfl⟩
  | cons i l ih =>
    obtain ⟨n, hn⟩ := ih (chainStep up s i)
    obtain ⟨m, hm⟩ := curEntry_chainStep up s i j
    exact ⟨n, by rw [List.foldl_cons, hn, hm]⟩

/-! ## Transactions (R134, R136) -/

theorem txnOf_onTxn (k j : Nat) (f : Txn → Txn) (s : State) : txnOf j (onTxn k f s) = if j = k then f (txnOf k s) else txnOf j s := by
  simp only [txnOf, onTxn, onSe_se, smGet_smMod]

@[simp] theorem txnOf_onTxn_same (k : Nat) (f : Txn → Txn) (s : State) : txnOf k (onTxn k f s) = f (txnOf k s) := by simp [txnOf_onTxn]

@[simp] theorem curEntry_onTxn (i k : Nat) (f : Txn → Txn) (s : State) : curEntry i (onTxn k f s) = curEntry i s := rfl

@[simp] theorem txnOf_cdcPass (k q n : Nat) (s : State) : txnOf k (cdcPass q n s) = txnOf k s := by simp [txnOf]

@[simp] theorem curEntry_cdcPass (i q n : Nat) (s : State) : curEntry i (cdcPass q n s) = curEntry i s := by
  simp [curEntry, cacheLine, entryOfTable]

theorem cdcPass_cmd (q n : Nat) (s : State) : (cdcPass q n s).cmd = s.cmd := by rw [cdcPass_parts]

/-- A change that replaces none goes to the end of its transaction. -/
theorem placeChange_of_new (c : Change) {drop : Change → Bool} {l : List Change} (h : ∀ x ∈ l, drop x = false) :
    placeChange c drop l = l ++ [c] := by
  induction l with
  | nil => rfl
  | cons x l ih =>
    simp only [placeChange, h x (List.mem_cons_self ..), Bool.false_eq_true, if_false, List.cons_append]
    rw [ih (fun y hy => h y (List.mem_cons_of_mem _ hy))]

/-- One more change of a transaction, over the dual-clock queue of staging (R29, R136). -/
def oneStaged (k : Nat) (c : Change) (s : State) : State :=
  onTxn k (fun t => { t with staged := t.staged ++ [c] }) (cdcPass cdcStaging 1 s)

theorem stage_of_new (k : Nat) (c : Change) {drop : Change → Bool} {s : State} (hnew : ∀ x ∈ (txnOf k s).staged, drop x = false)
    (hroom : (txnOf k s).staged.length < 65536) : stage k c drop s = some (oneStaged k c s) := by
  have room : ¬ 65536 < ((txnOf k s).staged ++ [c]).length := by simp; omega
  have own : smGet {} (cdcPass cdcStaging 1 s).se.txns k = txnOf k s := by simp [txnOf]
  simp only [stage, placeChange_of_new c hnew, room, if_false, oneStaged, onTxn, onSe, smMod, own]

@[simp] theorem oneStaged_staged (k : Nat) (c : Change) (s : State) :
    (txnOf k (oneStaged k c s)).staged = (txnOf k s).staged ++ [c] := by simp [oneStaged]

@[simp] theorem curEntry_oneStaged (i k : Nat) (c : Change) (s : State) : curEntry i (oneStaged k c s) = curEntry i s := by
  simp [oneStaged]

theorem oneStaged_nv (k : Nat) (c : Change) (s : State) : (oneStaged k c s).nv = s.nv := by simp [oneStaged, onTxn]
theorem oneStaged_fp (k : Nat) (c : Change) (s : State) : (oneStaged k c s).fp = s.fp := by simp [oneStaged, onTxn]
theorem oneStaged_cmd (k : Nat) (c : Change) (s : State) : (oneStaged k c s).cmd = s.cmd := by
  simp [oneStaged, onTxn, cdcPass_cmd]

theorem oneStaged_taken (k : Nat) (x : Change) (opc : Nat) (c : Call) (s : State) :
    oneStaged k x (taken opc c s) = taken opc c (oneStaged k x s) := by
  unfold oneStaged taken
  rw [cdcPass_onCmd]
  rfl

end Sys2Proof.Claim
end

section
/-! Streams by command (R100, R105, R108 to R110, R128, R135, R136). -/
namespace Sys2Proof.Claim
open Sys2Proof.Machine

/-! ## What a command sees does not depend on the commands -/

section unseen
variable (opc : Nat) (c : Call) (s : State)

theorem findIn_taken (key : MatchKey) (l : List Nat) : findIn key (taken opc c s) l = findIn key s l := by
  induction l with
  | nil => rfl
  | cons i l ih =>
    have entry : curEntry i (taken opc c s) = curEntry i s := rfl
    have mapped : mappedOut i (taken opc c s) = mappedOut i s := rfl
    simp only [findIn, ih, entry, mapped]

theorem findStream_taken (key : MatchKey) : findStream key (taken opc c s) = findStream key s := findIn_taken opc c s key _

end unseen

section streams
variable {c : Call} {s u : State} {k i : Nat}

/-! ## Staging by a stream command (R135) -/

/-- A stream command that names an OPEN transaction replies over what its staging leaves. -/
theorem staged_of_open {f : Nat → State → Except Refuse (List Tlv × State)} (hk : argN c tyTxn = some k) (hopen : (txnOf k u).st = .open_)
    (hfailed : (txnOf k u).failed = false) {tlvs : List Tlv} {t : State} (hf : f k u = .ok (tlvs, t)) :
    staged c f u = reply c stOk tlvs t := by
  have own : resolveTxn c u = .ok (k, false, u) := by simp [resolveTxn, hk, hopen, hfailed]
  simp [staged, own, hf, replyOk]

/-- STREAM_GET shows the entry. -/
theorem streamGet_replies (h : Ready 0x0304 c s) (hi : argN c 1 = some i) :
    RepliesOk 0x0304 c [r32 1 i, rtlv 2 (entryBytes (curEntry i s))] s (exec (.streamGet c) s) := by
  have body : run 0x0304 c (taken 0x0304 c s) = streamGetBody c (taken 0x0304 c s) := rfl
  refine congrArg Host.Outcome.next (serve_replies h ?_)
  rw [body]
  simp only [streamGetBody, hi]
  rfl

/-! ## STREAM_ADD (R100, R105, R136) -/

/-- The control bank that an addition of a subscribe stream asks for. -/
def bankAsked (c : Call) : Bank := {
  kpair := argD c 9 0, prof := argD c 8 0, kepoch := argD c 10 0, rxq := argD c 11 0, pfv := argD c 12 0, tbnd := argD c 13 0 }

/-- The entry an addition of a subscribe stream stages. -/
def entryAdded (c : Call) (key : MatchKey) (rank k : Nat) : Entry := {
  daddr := key.daddr, idHash := key.idHash, appid := key.appid, vid := key.vid, fclass := key.fclass, publish := key.publish,
  used := true, rank := rank, wrapLine := argD c 7 0, sta := .pending, txa := k, bankA := bankAsked c }

theorem streamAdd_of_free {key : MatchKey} (hkey : argKey c 1 2 3 4 5 6 u = key) (hx : c.pkt.expert = false) (hsub : key.publish = false)
    (hclass : key.fclass ≠ 0) (hwrap : argD c 7 0 = 0 ∨ 256 ≤ argD c 7 0) (htbnd : tbndOk (bankAsked c).tbnd key.fclass = true)
    (hprof : (bankAsked c).prof ≠ 3) (hpfv : (bankAsked c).pfv = 0) (hstored : findStream key u = none) (hwaiting : waitingAdd key u = none)
    (hplace : (candidates key u).find? (fun j => freePos j u) = some i) (hdel : ∀ j f, Change.delete j f ∉ (txnOf k u).staged)
    (hroom : (txnOf k u).staged.length < 65536) : ∃ rank, streamAdd c k u =
      .ok ([r32 1 i], writeAdd i (entryAdded c key rank k) (oneStaged k (.add i) u)) := by
  have nowrap : (decide (0 < argD c 7 0) && decide (argD c 7 0 < 256)) = false := by
    rcases hwrap with h | h <;> simp [h]
  have granted : bankRefuse c (bankAsked c) key.fclass 8 12 13 u = none := by simp [bankRefuse, htbnd, hprof, hpfv]
  have newKey : sameKeyRefuse c k key u = none := by simp [sameKeyRefuse, hstored, hwaiting]
  have undeleted {p : Change → Bool} (hp : ∀ x, p x = true → ∃ j f, x = .delete j f) : (txnOf k u).staged.any p = false := by
    rw [List.any_eq_false]
    intro x hmem hx
    obtain ⟨j, f, rfl⟩ := hp x hx
    exact hdel j f hmem
  have room : ¬ 65536 < (txnOf k u).staged.length + 0 + 1 := by omega
  refine ⟨((candidates key u).idxOf? i).getD 0, ?_⟩
  unfold bankAsked at granted
  simp only [streamAdd, hkey, hsub, hclass, nowrap, hx, granted, newKey, hplace, room, Bool.false_eq_true, if_false, Bool.not_false,
    Bool.true_and, Bool.false_and, List.headD_cons, List.drop_succ_cons, List.drop_nil, List.zip_nil_right, List.reverse_nil,
    List.length_nil, List.map_nil, if_true]
  rw [undeleted (fun x hx => by cases x <;> simp at hx ⊢)]
  simp only [entryAdded, hsub, Bool.false_eq_true, if_false]
  rfl

/-- An addition at a position stands there with its own fields; the chain counts it moves are others' (R102, R136). -/
theorem writeAdd_spec (i : Nat) (e : Entry) (s : State) : EntriesMoved s (writeAdd i e s) ∧
    ∃ n q, curEntry i (writeAdd i e s) = { e with chain := n, quar := q } := by
  obtain ⟨x, n, q, parts⟩ : ∃ x n q, writeAdd i e s =
      chainAdd (entryKey x) x.rank true (ctlEntry i (fun _ => { e with chain := n, quar := q }) s) := ⟨_, _, _, rfl⟩
  obtain ⟨m, hm⟩ := curEntry_chainAdd (entryKey x) x.rank true i (ctlEntry i (fun _ => { e with chain := n, quar := q }) s)
  rw [parts]
  exact ⟨(entriesMoved_ctlEntry i _ s).trans (entriesMoved_chainAdd _ _ _ _), m, q, by rw [hm, curEntry_ctlEntry, if_pos rfl]⟩

/-! ## The first change of a transaction (R105, R110, R128, R136) -/

theorem stage_of_empty (hempty : (txnOf k u).staged = []) (x : Change) (drop : Change → Bool) : stage k x drop u = some (oneStaged k x u) :=
  stage_of_new k x (by simp [hempty]) (by simp [hempty])

theorem argD_of_missing {ty : Nat} (h : argN c ty = none) (d : Nat) : argD c ty d = d := by simp [argD, h]

section first
variable (hx : c.pkt.expert = false) (hi : argN c 1 = some i) (hallowed : changeRefuse c k i u = none) (hempty : (txnOf k u).staged = [])
include hi hallowed hempty

theorem streamMod_of_first (hsub : (curEntry i u).publish = false) {q : Nat} (hq : argN c 5 = some q) (hprof : argN c 2 = none)
    (hpair : argN c 3 = none) (hepoch : argN c 4 = none) (hpfv : argN c 6 = none) (htbnd : argN c 7 = none)
    (hgranted : bankRefuse c (baseBank (curEntry i u)) (curEntry i u).fclass 2 6 7 u = none) : streamMod c k u =
      .ok ([], ctlEntry i (putBank k .pending { baseBank (curEntry i u) with rxq := q }) (oneStaged k (.control i) u)) := by
  generalize hbase : baseBank (curEntry i u) = o at *
  have granted : bankRefuse c { o with rxq := q } (curEntry i u).fclass 2 6 7 u = none := hgranted
  simp only [streamMod, argD_of_argN hi, argD_of_argN hq, argD_of_missing, hallowed, hsub, hprof, hpair, hepoch, hpfv, htbnd, hbase, granted,
    hempty, stage_of_empty hempty, Bool.false_and, Bool.false_eq_true, if_false, List.contains_nil]

include hx

theorem streamDel_of_first : streamDel c k u =
    .ok ([], ctlEntry i (putBank k .pendingDel (baseBank (curEntry i u))) (oneStaged k (.delete i false) u)) := by
  simp only [streamDel, argD_of_argN hi, hallowed, hempty, hx, stage_of_empty hempty, List.any_nil, Bool.false_and, Bool.false_eq_true,
    if_false]

theorem streamMove_of_first (hact : activeBank (curEntry i u) = true) {j : Nat}
    (hplace : (candidates (entryKey (curEntry i u)) u).find? (fun j => decide (j ≠ i) && freePos j u) = some j) :
    streamMove c k u = .ok ([r32 1 j], oneStaged k (.move i j) u) := by
  simp only [streamMove, argD_of_argN hi, hallowed, hempty, hx, hplace, hact, stage_of_empty hempty, List.any_nil, Bool.not_true,
    Bool.or_self, Bool.false_eq_true, if_false]

end first

section changes
variable {opc : Nat} (h : Ready opc c s) (hk : argN c tyTxn = some k) (hopen : (txnOf k s).st = .open_) (hfailed : (txnOf k s).failed = false)
include h hk hopen hfailed

/-- A stream command that only stages ends with its reply over what it staged. -/
theorem serve_staged {f : Nat → State → Except Refuse (List Tlv × State)} (hrun : run opc c (taken opc c s) = staged c f (taken opc c s))
    {tlvs : List Tlv} {t : State} (hf : f k (taken opc c s) = .ok (tlvs, t)) (hcmd : t.cmd = (taken opc c s).cmd) :
    serve opc c s = answered opc c stOk tlvs (onCmd (fun _ => s.cmd) t) := by
  refine serve_body h ?_ hcmd
  rw [hrun]
  exact staged_of_open (u := taken opc c s) hk hopen hfailed hf

/-- A command that stages the first change of its transaction and writes a bank of an entry. -/
theorem change_replies (hempty : (txnOf k s).staged = []) {f : Nat → State → Except Refuse (List Tlv × State)}
    (hrun : run opc c (taken opc c s) = staged c f (taken opc c s)) {tlvs : List Tlv} {x : Change} {g : Entry → Entry}
    (hf : f k (taken opc c s) = .ok (tlvs, ctlEntry i g (oneStaged k x (taken opc c s)))) :
    ∃ d, serve opc c s = answered opc c stOk tlvs d ∧ (txnOf k d).staged = [x] ∧ curEntry i d = g (curEntry i s) ∧ d.nv = s.nv := by
  have moved := entriesMoved_ctlEntry i g (oneStaged k x (taken opc c s))
  refine ⟨_, serve_staged h hk hopen hfailed hrun hf (moved.cmd.trans (oneStaged_cmd _ _ _)), ?_, ?_, moved.nv.trans (oneStaged_nv _ _ _)⟩
  · show (txnOf k (ctlEntry i g (oneStaged k x (taken opc c s)))).staged = [x]
    rw [moved.txnOf, oneStaged_staged]
    exact congrArg (· ++ [x]) hempty
  · show curEntry i (ctlEntry i g (oneStaged k x (taken opc c s))) = _
    rw [curEntry_ctlEntry, if_pos rfl, curEntry_oneStaged]
    rfl

end changes

section named
variable (hk : argN c tyTxn = some k) (hopen : (txnOf k s).st = .open_) (hfailed : (txnOf k s).failed = false) (hx : c.pkt.expert = false)
include hk hopen hfailed hx

theorem streamAdd_replies (h : Ready 0x0301 c s) {key : MatchKey} (hkey : argKey c 1 2 3 4 5 6 s = key)
    (hroom : (txnOf k s).staged.length < 65536) (hsub : key.publish = false) (hclass : key.fclass ≠ 0)
    (hwrap : argD c 7 0 = 0 ∨ 256 ≤ argD c 7 0) (htbnd : tbndOk (bankAsked c).tbnd key.fclass = true) (hprof : (bankAsked c).prof ≠ 3)
    (hpfv : (bankAsked c).pfv = 0) (hstored : findStream key s = none) (hwaiting : waitingAdd key s = none)
    (hplace : (candidates key s).find? (fun j => freePos j s) = some i) (hdel : ∀ j f, Change.delete j f ∉ (txnOf k s).staged) :
    ∃ d, exec (.streamAdd c) s = .next (answered 0x0301 c stOk [r32 1 i] d) ∧ entryKey (curEntry i d) = key ∧
      (curEntry i d).used = true ∧ (curEntry i d).sta = .pending ∧ (curEntry i d).txa = k ∧ (curEntry i d).bankA = bankAsked c ∧
      (curEntry i d).stb = .idle ∧ (curEntry i d).wrapLine = argD c 7 0 ∧ (curEntry i d).version = 0 ∧
      (txnOf k d).staged = (txnOf k s).staged ++ [.add i] ∧ d.nv = s.nv ∧ d.fp = s.fp := by
  obtain ⟨rank, hadd⟩ := streamAdd_of_free (u := taken 0x0301 c s) hkey hx hsub hclass hwrap htbnd hprof hpfv
    ((findStream_taken 0x0301 c s key).trans hstored) hwaiting hplace hdel hroom
  obtain ⟨moved, n, q, hentry⟩ := writeAdd_spec i (entryAdded c key rank k) (oneStaged k (.add i) (taken 0x0301 c s))
  have row := serve_staged (f := streamAdd c) h hk hopen hfailed rfl hadd (moved.cmd.trans (oneStaged_cmd _ _ _))
  refine ⟨_, congrArg Host.Outcome.next row, ?_⟩
  generalize writeAdd i (entryAdded c key rank k) (oneStaged k (.add i) (taken 0x0301 c s)) = t at moved hentry
  have entry : curEntry i (onCmd (fun _ => s.cmd) t) = { entryAdded c key rank k with chain := n, quar := q } := hentry
  have staging : (txnOf k (onCmd (fun _ => s.cmd) t)).staged = (txnOf k s).staged ++ [.add i] := by
    show (txnOf k t).staged = _
    rw [moved.txnOf, oneStaged_staged]
    rfl
  rw [entry]
  exact ⟨rfl, rfl, rfl, rfl, rfl, rfl, rfl, rfl, staging, moved.nv.trans (oneStaged_nv _ _ _), moved.fp.trans (oneStaged_fp _ _ _)⟩

/-! ## STREAM_DEL, STREAM_MOD and STREAM_MOVE (R105, R110, R128, R136) -/

section touched
variable (hi : argN c 1 = some i) (hallowed : changeRefuse c k i s = none) (hempty : (txnOf k s).staged = [])
include hi hallowed hempty

theorem streamDel_replies (h : Ready 0x0302 c s) (hact : (curEntry i s).sta = .active) :
    ∃ d, exec (.streamDel c) s = .next (answered 0x0302 c stOk [] d) ∧ (txnOf k d).staged = [.delete i false] ∧
      curEntry i d = { curEntry i s with stb := .pendingDel, txb := k, bankB := (curEntry i s).bankA } ∧ d.nv = s.nv := by
  have del := streamDel_of_first (u := taken 0x0302 c s) hx hi hallowed hempty
  obtain ⟨d, row, hstaged, hentry, hnv⟩ := change_replies h hk hopen hfailed hempty (f := streamDel c) rfl del
  have base : baseBank (curEntry i (taken 0x0302 c s)) = (curEntry i s).bankA := if_pos (beq_iff_eq.mpr hact)
  exact ⟨d, congrArg Host.Outcome.next row, hstaged, hentry.trans (by simp [putBank, base, hact]), hnv⟩

theorem streamMove_replies (h : Ready 0x0305 c s) (hact : activeBank (curEntry i s) = true) {j : Nat}
    (hplace : (candidates (entryKey (curEntry i s)) s).find? (fun j => decide (j ≠ i) && freePos j s) = some j) :
    RepliesOk 0x0305 c [r32 1 j] (onTxn k (fun t => { t with staged := [.move i j] }) (cdcPass cdcStaging 1 s)) (exec (.streamMove c) s) := by
  have move := streamMove_of_first (u := taken 0x0305 c s) hx hi hallowed hempty hact hplace
  have one : onTxn k (fun t => { t with staged := [.move i j] }) (cdcPass cdcStaging 1 s) = oneStaged k (.move i j) s := by
    have own : smGet {} (cdcPass cdcStaging 1 s).se.txns k = txnOf k s := by simp [txnOf]
    simp only [oneStaged, onTxn, onSe, smMod, own, hempty, List.nil_append]
  rw [one]
  refine congrArg Host.Outcome.next (serve_over h ?_ (oneStaged_cmd _ _ _))
  rw [← oneStaged_taken]
  exact staged_of_open (u := taken 0x0305 c s) hk hopen hfailed move

omit hx in
theorem streamMod_replies (h : Ready 0x0303 c s) (hact : (curEntry i s).sta = .active) (hsub : (curEntry i s).publish = false) {q : Nat}
    (hq : argN c 5 = some q) (hprof : argN c 2 = none) (hpair : argN c 3 = none) (hepoch : argN c 4 = none) (hpfv : argN c 6 = none)
    (htbnd : argN c 7 = none) (hgranted : bankRefuse c (curEntry i s).bankA (curEntry i s).fclass 2 6 7 s = none) :
    ∃ d, exec (.streamMod c) s = .next (answered 0x0303 c stOk [] d) ∧ (txnOf k d).staged = [.control i] ∧
      curEntry i d = { curEntry i s with stb := .pending, txb := k, bankB := { (curEntry i s).bankA with rxq := q } } ∧ d.nv = s.nv := by
  have base : baseBank (curEntry i (taken 0x0303 c s)) = (curEntry i s).bankA := if_pos (beq_iff_eq.mpr hact)
  have mod := streamMod_of_first (u := taken 0x0303 c s) hi hallowed hempty hsub hq hprof hpair hepoch hpfv htbnd (by rw [base]; exact hgranted)
  obtain ⟨d, row, hstaged, hentry, hnv⟩ := change_replies h hk hopen hfailed hempty (f := streamMod c) rfl mod
  exact ⟨d, congrArg Host.Outcome.next row, hstaged, hentry.trans (by simp [putBank, base, hact]), hnv⟩

end touched

end named

/-- The stream commands in an OPEN transaction. -/
theorem streamChanges : StreamCommands := by
  refine ⟨fun c s h i hi => streamGet_replies h hi, fun c s k hk hopen hfailed hroom hx => ?_⟩
  extract_lets key b
  refine ⟨?add, ?del, ?mod, ?move⟩
  case add =>
    intro h hsub hclass hwrap htbnd hprof hpfv hstored hwaiting i hplace _ hdel
    exact streamAdd_replies hk hopen hfailed hx h rfl hroom hsub hclass hwrap htbnd hprof hpfv hstored hwaiting hplace hdel
  case del =>
    intro h i hi hallowed hempty hact
    exact streamDel_replies hk hopen hfailed hx hi hallowed hempty h hact
  case mod =>
    intro h i q hi hallowed hempty hact hsub hq hprof hpair hepoch hpfv htbnd hgranted
    exact streamMod_replies hk hopen hfailed hi hallowed hempty h hact hsub hq hprof hpair hepoch hpfv htbnd hgranted
  case move =>
    intro h i j hi hallowed hempty hact hplace
    exact streamMove_replies hk hopen hfailed hx hi hallowed hempty h hact hplace

end streams
end Sys2Proof.Claim
end

section
/-! Transactions by command (R130, R135 to R139, R141), and O28. -/
namespace Sys2Proof.Claim
open Sys2Proof.Machine

section transactions
variable {c : Call} {s : State} {k : Nat}

/-! ## TXN_OPEN (R135) -/

theorem txnOpen_replies (h : Ready 0x0501 c s) (hx : c.pkt.expert = false) (hfree : freeTxn s = some k) :
    RepliesOk 0x0501 c [r8 tyTxn k] (onTxn k (fun _ => { st := .open_ }) s) (exec (.txnOpen c) s) := by
  refine congrArg Host.Outcome.next (serve_over h ?_ rfl)
  have free : freeTxn (taken 0x0501 c s) = some k := hfree
  show txnOpenBody c (taken 0x0501 c s) = _
  simp only [txnOpenBody, hx, free, Bool.false_eq_true, if_false]
  rfl

theorem txnOpen_refuses (h : Ready 0x0501 c s) (hx : c.pkt.expert = false) (hnone : ∀ k, k < 8 → (txnOf k s).st ≠ .free) :
    Refuses 0x0501 c stBusy [] s (exec (.txnOpen c) s) := by
  have none_ : freeTxn (taken 0x0501 c s) = none := by
    refine List.find?_eq_none.mpr (fun j hj => ?_)
    have small : j < 8 := by
      simp only [txnNos, List.mem_cons, List.not_mem_nil, or_false] at hj
      omega
    exact fun hj => hnone j small (beq_iff_eq.mp hj)
  refine congrArg Host.Outcome.next (serve_replies h ?_)
  show txnOpenBody c (taken 0x0501 c s) = _
  simp only [txnOpenBody, hx, none_, Bool.false_eq_true, if_false]
  rfl

/-! ## Commands of an OPEN transaction (R137) -/

/-- The transaction commits, its epoch aside (R138). -/
def committed (k instant : Nat) (s : State) : State :=
  onTxn k (fun t => { t with st := .committed, instant := instant, wallAt := s.clk.now }) s

/-- The epoch advances from an instant on (R130). -/
def epochMoved (instant : Nat) (s : State) : State :=
  onSe (fun x => { x with epochPrev := x.epoch, epoch := s.se.epoch + 1, epochAt := instant }) s

theorem commitTxn_of_noEpoch {instant : Nat} (hno : Change.epoch ∉ (txnOf k s).staged) : commitTxn k instant s = committed k instant s := by
  simp only [commitTxn, List.contains_iff_mem, hno, if_false]
  rfl

theorem commitTxn_of_epoch {instant : Nat} (hepoch : Change.epoch ∈ (txnOf k s).staged) : commitTxn k instant s =
    askVault (.epoch (s.se.epoch + 1)) (epochMoved instant (committed k instant s)) := by
  simp only [commitTxn, List.contains_iff_mem, hepoch, if_true]
  rfl

theorem askVault_of_reached {q : KeyReq} (hup : vaultReached s = true) (hnone : s.ev.waitKey = []) : askVault q s = keyRequest q s := by
  simp [askVault, hup, hnone]

/-- The vault core takes note of an epoch in counter 4, and of nothing else that is read (R130). -/
theorem keyRequest_epoch_spec (e : Nat) (s : State) : (keyRequest (.epoch e) s).se = s.se ∧ monoRead 4 (keyRequest (.epoch e) s) = some e ∧
    (keyRequest (.epoch e) s).cmd = s.cmd := by
  obtain ⟨r, d, -, h⟩ := sendRiser_parts true .key .epochNotices (natLE 4 e) s
  simp only [keyRequest, h]
  exact ⟨rfl, by rw [monoRead_monoWrite, if_pos rfl], rfl⟩

theorem vaultReached_of_ready {opc : Nat} (h : Ready opc c s) : vaultReached s = true := by
  obtain ⟨-, -, -, -, -, hvault, hup, -⟩ := h
  simp [vaultReached, riserUp, hvault, hup]

theorem waitKey_of_ready {opc : Nat} (h : Ready opc c s) : s.ev.waitKey = [] := by
  obtain ⟨hcalm, -⟩ := h
  obtain ⟨-, -, -, hkey⟩ := nothingDue_of_calm hcalm
  exact hkey

section named
variable (hk : argN c tyTxn = some k) (hfailed : (txnOf k s).failed = false) (hopen : (txnOf k s).st = .open_)
include hk hfailed hopen

/-- A command of an OPEN transaction that serves such ones acts on it. -/
theorem withTxn_of_open {ok : TxnSt → Bool} (hok : ok .open_ = true) (f : Nat → State → State) : withTxn c ok f s = f k s := by
  simp [withTxn, argD_of_argN hk, hfailed, hopen, hok]

theorem txnCommit_replies (h : Ready 0x0502 c s) (hnow : argOf c 1 = none) (hno : Change.epoch ∉ (txnOf k s).staged) :
    RepliesOk 0x0502 c [rtime 1 (ptp16 s)] (committed k (ptp16 s) s) (exec (.txnCommit c) s) := by
  refine congrArg Host.Outcome.next (serve_over h ?_ rfl)
  show txnCommitBody c (taken 0x0502 c s) = _
  rw [txnCommitBody, withTxn_of_open (s := taken 0x0502 c s) hk hfailed hopen rfl]
  simp only [hnow, Option.map_none, commitTxn_of_noEpoch (s := taken 0x0502 c s) hno]
  rfl

theorem txnCommit_epoch_replies (h : Ready 0x0502 c s) (hnow : argOf c 1 = none) (hepoch : Change.epoch ∈ (txnOf k s).staged) :
    ∃ d, exec (.txnCommit c) s = .next (answered 0x0502 c stOk [rtime 1 (ptp16 s)] d) ∧ d.se.epoch = s.se.epoch + 1 ∧
      d.se.epochPrev = s.se.epoch ∧ monoRead 4 d = some (s.se.epoch + 1) ∧ (txnOf k d).st = .committed := by
  let a := epochMoved (ptp16 s) (committed k (ptp16 s) (taken 0x0502 c s))
  have asked : askVault (.epoch (s.se.epoch + 1)) a = keyRequest (.epoch (s.se.epoch + 1)) a :=
    askVault_of_reached (show vaultReached s = true from vaultReached_of_ready h) (show s.ev.waitKey = [] from waitKey_of_ready h)
  have hrun : run 0x0502 c (taken 0x0502 c s) = reply c stOk [rtime 1 (ptp16 s)] (keyRequest (.epoch (s.se.epoch + 1)) a) := by
    show txnCommitBody c (taken 0x0502 c s) = _
    rw [txnCommitBody, withTxn_of_open (s := taken 0x0502 c s) hk hfailed hopen rfl]
    simp only [hnow, Option.map_none, commitTxn_of_epoch (s := taken 0x0502 c s) hepoch]
    exact congrArg (reply c stOk [rtime 1 (ptp16 s)]) asked
  obtain ⟨hse, hmono, hcmd⟩ := keyRequest_epoch_spec (s.se.epoch + 1) a
  refine ⟨_, congrArg Host.Outcome.next (serve_body h hrun hcmd), ?_, ?_, hmono, ?_⟩
  · exact congrArg Se.epoch hse
  · exact congrArg Se.epochPrev hse
  · show (smGet {} (keyRequest (.epoch (s.se.epoch + 1)) a).se.txns k).st = .committed
    rw [hse]
    simp [a, epochMoved, committed, onTxn]

theorem txnCommit_arms (h : Ready 0x0502 c s) {b : Bytes} (hb : argOf c 1 = some b) (hgood : badTime c 1 = false)
    (hlow : ptp16 s + 10000 * 65536 ≤ bytesTime b) (hhigh : bytesTime b ≤ ptp16 s + 86400 * 1000000000 * 65536) :
    RepliesOk 0x0502 c [rtime 1 (bytesTime b)] (onTxn k (fun t => { t with st := .armed, instant := bytesTime b }) s)
      (exec (.txnCommit c) s) := by
  have later : ¬ bytesTime b < ptp16 (taken 0x0502 c s) + t10us := Nat.not_lt.mpr hlow
  have within : ¬ ptp16 (taken 0x0502 c s) + tDay < bytesTime b := Nat.not_lt.mpr hhigh
  refine congrArg Host.Outcome.next (serve_over h ?_ rfl)
  show txnCommitBody c (taken 0x0502 c s) = _
  rw [txnCommitBody, withTxn_of_open (s := taken 0x0502 c s) hk hfailed hopen rfl]
  simp only [hb, Option.map_some, hgood, later, within, Bool.false_eq_true, if_false]
  rfl

theorem txnCommit_refuses (h : Ready 0x0502 c s) {b : Bytes} (hb : argOf c 1 = some b) (hbad : badTime c 1 = true) :
    Refuses 0x0502 c stBadParam (refuseTlvs (stBadParam, tlvOffset c.pkt 1 0, rsRange, 1)) s (exec (.txnCommit c) s) := by
  refine congrArg Host.Outcome.next (serve_replies h ?_)
  show txnCommitBody c (taken 0x0502 c s) = _
  rw [txnCommitBody, withTxn_of_open (s := taken 0x0502 c s) hk hfailed hopen rfl]
  simp only [hb, Option.map_some, hbad, if_true]
  rfl

theorem txnAbort_replies (h : Ready 0x0503 c s) :
    RepliesOk 0x0503 c [] (onTxn k (fun t => { t with st := .aborting, settled := 0 }) s) (exec (.txnAbort c) s) := by
  have unarmed : ((txnOf k (taken 0x0503 c s)).st == .armed) = false := by
    have same : (txnOf k (taken 0x0503 c s)).st = .open_ := hopen
    rw [same]
    rfl
  refine congrArg Host.Outcome.next (serve_over h ?_ rfl)
  show txnAbortBody c (taken 0x0503 c s) = _
  rw [txnAbortBody, withTxn_of_open (s := taken 0x0503 c s) hk hfailed hopen rfl]
  simp only [unarmed, Bool.false_and, Bool.false_eq_true, if_false]
  rfl

theorem txnStatus_replies (h : Ready 0x0504 c s) (hx : c.pkt.expert = false) :
    RepliesOk 0x0504 c [r8 1 (txnStNo .open_), r32 2 (txnOf k s).staged.length, rtime 3 (txnOf k s).instant, r32 4 (txnOf k s).settled] s
      (exec (.txnStatus c) s) := by
  have same : txnOf k (taken 0x0504 c s) = txnOf k s := rfl
  refine congrArg Host.Outcome.next (serve_replies h ?_)
  show txnStatusBody c (taken 0x0504 c s) = _
  simp [txnStatusBody, argD_of_argN hk, same, hfailed, hopen, hx, replyOk]

theorem epochAdvance_replies (h : Ready 0x0505 c s) (hok : s.se.epochOk = true) (hlow : s.se.epoch < 0xFFFFFFFF)
    (hroom : (txnOf k s).staged.length < 65536) (hothers : ∀ j, j ≠ k → Change.epoch ∉ (txnOf j s).staged)
    (hnew : Change.epoch ∉ (txnOf k s).staged) :
    RepliesOk 0x0505 c [r32 1 (s.se.epoch + 1)] (oneStaged k .epoch s) (exec (.epochAdvance c) s) := by
  have alone : (txnNos.any (fun j => decide (j ≠ k) && decide ((txnOf j (taken 0x0505 c s)).st ≠ .free) &&
      (txnOf j (taken 0x0505 c s)).staged.contains .epoch)) = false := by
    rw [List.any_eq_false]
    intro j _ hj
    simp only [Bool.and_eq_true, decide_eq_true_eq, List.contains_iff_mem] at hj
    obtain ⟨⟨hjk, -⟩, hmem⟩ := hj
    exact hothers j hjk hmem
  have one : stage k .epoch (fun x => x == .epoch) (taken 0x0505 c s) = some (oneStaged k .epoch (taken 0x0505 c s)) := by
    refine stage_of_new k .epoch (fun x hx => ?_) hroom
    rw [beq_eq_false_iff_ne]
    rintro rfl
    exact hnew hx
  have count : (taken 0x0505 c s).se = s.se := rfl
  refine congrArg Host.Outcome.next (serve_over h ?_ (oneStaged_cmd _ _ _))
  show epochAdvanceBody c (taken 0x0505 c s) = _
  rw [epochAdvanceBody, withTxn_of_open (s := taken 0x0505 c s) hk hfailed hopen rfl]
  simp only [count, hok, hlow.ne, alone, one, Bool.not_true, Bool.false_eq_true, if_false]
  have epoch : (oneStaged k .epoch (taken 0x0505 c s)).se.epoch = s.se.epoch := by simp [oneStaged, onTxn, count]
  rw [epoch, oneStaged_taken]
  rfl

end named

/-- The transaction commands. -/
theorem transactionCommands : TransactionCommands := by
  intro c s
  refine ⟨?open_, ?busy, ?named⟩
  case open_ => exact fun h hx k hfree => txnOpen_replies h hx hfree
  case busy => exact fun h hx hnone => txnOpen_refuses h hx hnone
  case named =>
    intro k hk hfailed hopen
    refine ⟨?now, ?epoch, ?armed, ?abort, ?status, ?advance, ?badTime⟩
    case now => exact fun h hnow hno => txnCommit_replies hk hfailed hopen h hnow hno
    case epoch => exact fun h hnow hepoch => txnCommit_epoch_replies hk hfailed hopen h hnow hepoch
    case armed => exact fun h b hb hgood hlow hhigh => txnCommit_arms hk hfailed hopen h hb hgood hlow hhigh
    case abort => exact fun h => txnAbort_replies hk hfailed hopen h
    case status => exact fun h hx => txnStatus_replies hk hfailed hopen h hx
    case advance => exact fun h hok hlow hroom hothers hnew => epochAdvance_replies hk hfailed hopen h hok hlow hroom hothers hnew
    case badTime => exact fun b h hb hbad => txnCommit_refuses hk hfailed hopen h hb hbad

end transactions

/-- Settles O28: each stream command through what it stages, each transaction command through what it does to its transaction. -/
theorem streamCommands : Obligations.StreamCommands := ⟨streamChanges, transactionCommands⟩

end Sys2Proof.Claim
end

section
/-! What pump keys need beside their slots: keys out of the keeper's slots, masks of the DRBG, and a slot that drains
(R133, R163, R248, R262, R279, R280). -/
namespace Sys2Proof.Claim
open Sys2Proof.Machine

/-! ## The cipher engine's cache (R248, R262) -/

/-- Keys have been read from the keeper's slots: of the device the cipher engine's cache and its mask generator differ. -/
def KeysRead (s t : State) : Prop := ∃ l v, t = onEng (fun e => { e with vcCache := l, vcGen := v }) s

theorem KeysRead.trans {s t u : State} (h : KeysRead s t) (k : KeysRead t u) : KeysRead s u := by
  obtain ⟨_, _, rfl⟩ := h
  obtain ⟨_, _, rfl⟩ := k
  exact ⟨_, _, rfl⟩

/-- One step of the mask generator, its output behind those before. -/
def maskStep (x : Bytes × State) : Bytes × State :=
  (x.1 ++ bytes256 ((Config.maskOut x.2.eng.vcGen).setWidth 256), onEng (fun e => { e with vcGen := Config.maskNext e.vcGen }) x.2)

theorem vcMask_eq (n : Nat) (s : State) : vcMask n s =
    ((((List.range ((n + 31) / 32)).foldl (fun x _ => maskStep x) ([], s)).1.take n),
      ((List.range ((n + 31) / 32)).foldl (fun x _ => maskStep x) ([], s)).2) := rfl

theorem maskSteps_spec (g : Cmd → Cmd) (l : List Nat) (x : Bytes × State) : KeysRead x.2 (l.foldl (fun x _ => maskStep x) x).2 ∧
    l.foldl (fun x _ => maskStep x) (x.1, onCmd g x.2) =
      ((l.foldl (fun x _ => maskStep x) x).1, onCmd g (l.foldl (fun x _ => maskStep x) x).2) := by
  induction l generalizing x with
  | nil => exact ⟨⟨_, _, rfl⟩, rfl⟩
  | cons i l ih =>
    obtain ⟨read, aside⟩ := ih (maskStep x)
    exact ⟨KeysRead.trans ⟨_, _, rfl⟩ read, aside⟩

theorem cacheKey_spec (g : Cmd → Cmd) (i : Nat) (k : Bytes) (s : State) :
    KeysRead s (cacheKey i k s) ∧ cacheKey i k (onCmd g s) = onCmd g (cacheKey i k s) := by
  obtain ⟨read, aside⟩ := maskSteps_spec g (List.range ((k.length + 31) / 32)) ([], s)
  refine ⟨read.trans ⟨_, _, rfl⟩, ?_⟩
  unfold cacheKey
  rw [vcMask_eq, vcMask_eq, aside]
  rfl

/-- A slot's key that is there is read into the cache, whatever the commands' state. -/
theorem slotKey_spec (g : Cmd → Cmd) {i : Nat} {s : State} {k : Bytes} (h : (slotKey i s).1 = some k) :
    KeysRead s (slotKey i s).2 ∧ slotKey i (onCmd g s) = (some k, onCmd g (slotKey i s).2) := by
  have cache : (onCmd g s).eng.vcCache = s.eng.vcCache := rfl
  have kek : (onCmd g s).nv.bbram.kek = s.nv.bbram.kek := rfl
  have slot : vslot i (onCmd g s) = vslot i s := rfl
  unfold slotKey at h ⊢
  rw [cache, kek, slot]
  split at h
  next l hl =>
    simp only [Option.some.injEq] at h ⊢
    obtain ⟨read, aside⟩ := cacheKey_spec g i (xorBytes l.share0 l.share1) s
    exact ⟨read, by rw [aside, h]⟩
  next hl =>
    split at h
    next x hx =>
      simp only [Option.some.injEq] at h ⊢
      obtain ⟨read, aside⟩ := cacheKey_spec g i x s
      exact ⟨read, by rw [aside, h]⟩
    next hx => exact absurd h (by simp)

theorem KeysRead.refl (s : State) : KeysRead s s := ⟨_, _, rfl⟩

/-- The static keys a package needs, where they are there. -/
theorem staticKeys_spec (g : Cmd → Cmd) {b : Bytes} {s : State} {x : Bytes × Bytes} (h : (staticKeys b s).1 = some x) :
    KeysRead s (staticKeys b s).2 ∧ staticKeys b (onCmd g s) = (some x, onCmd g (staticKeys b s).2) := by
  unfold staticKeys at h ⊢
  cases hx : slotKey slotX25519 s with
  | mk key t =>
    cases key with
    | none => simp [hx] at h
    | some key =>
      obtain ⟨readX, asideX⟩ := slotKey_spec g (congrArg Prod.fst hx)
      rw [hx] at readX asideX h
      rw [asideX]
      simp only at h readX ⊢
      split at h
      next hkem =>
        simp only [if_pos hkem]
        cases hk : slotKey slotMlKem t with
        | mk kem v =>
          cases kem with
          | none => simp [hk] at h
          | some kem =>
            obtain ⟨readK, asideK⟩ := slotKey_spec g (congrArg Prod.fst hk)
            rw [hk] at readK asideK h
            rw [asideK]
            simp only at h readK ⊢
            exact ⟨readX.trans readK, by rw [h]⟩
      next hkem =>
        simp only [if_neg hkem]
        exact ⟨readX, congrArg (·, onCmd g t) h⟩

/-- A package that opens does so under a command too (R358). -/
theorem openPackage_taken {c : Call} {o : AuthObj} {s : State} {p : KeyPkg} (h : (openPackage c o s).1 = .ok p) (opc : Nat) :
    KeysRead s (openPackage c o s).2 ∧ openPackage c o (taken opc c s) = (.ok p, taken opc c (openPackage c o s).2) := by
  have refusal : packageRefuse c o (taken opc c s) = packageRefuse c o s := by
    simp only [packageRefuse, agreed_taken]
    rfl
  unfold openPackage at h ⊢
  rw [refusal]
  split at h
  next => exact absurd h (by simp)
  next hallowed =>
    cases hs : staticKeys o.body s with
    | mk keys t =>
      cases keys with
      | none => simp [hs] at h
      | some keys =>
        obtain ⟨read, aside⟩ := staticKeys_spec (fun x => { x with
          turn := (turnNo c.via + 1) % turnCount, owed := [{ call := c, opcode := opc, wait := .held }] }) (congrArg Prod.fst hs)
        rw [hs] at read aside h
        have asked : staticKeys o.body (taken opc c s) = (some keys, taken opc c t) := aside
        rw [asked]
        exact ⟨read, by rw [← h]⟩

/-! ## Masks of the DRBG (R279, R280) -/

/-- The DRBG has served, behind a reseed that was due: the noise well, the free values and the clocks differ. -/
def Served (s t : State) : Prop := ∃ n f c v, t = { s with nw := n, free := f, clk := c, tu := { s.tu with time := v } }

theorem Served.refl (s : State) : Served s s := ⟨_, _, _, _, rfl⟩

theorem Served.trans {s t u : State} (h : Served s t) (k : Served t u) : Served s u := by
  obtain ⟨_, _, _, _, rfl⟩ := h
  obtain ⟨_, _, _, _, rfl⟩ := k
  exact ⟨_, _, _, _, rfl⟩

theorem served_onNw (f : Nw → Nw) (s : State) : Served s (onNw f s) := ⟨_, _, _, _, rfl⟩

theorem served_poolTurn (rank : Nat) (s : State) : Served s (poolTurn rank s) := ⟨_, _, _, _, inTurn_parts _ _ _ s⟩

theorem served_takePool (s : State) : Served s (takePool s).2 := by
  unfold takePool
  split
  · exact ⟨_, _, _, _, rfl⟩
  · exact ⟨_, _, _, _, rfl⟩

theorem served_takeEntries (n : Nat) (s : State) : Served s (takeEntries n s).2 := by
  induction n generalizing s with
  | zero => exact .refl s
  | succ n ih => exact (served_takePool s).trans (ih _)

theorem served_drbgReseed (s : State) : Served s (drbgReseed s) := by
  unfold drbgReseed
  split
  · exact .refl s
  · exact ((served_poolTurn 7 s).trans (served_takeEntries 2 _)).trans (served_onNw _ _)

theorem served_drbgGenerate (n : Nat) (s : State) : Served s (drbgGenerate n s).2 := by
  have due : Served s (match s.nw.drbg with
      | some d => if 2 ^ 20 ≤ d.served || d.reseedAt + msTicks 100 ≤ s.clk.now then drbgReseed s else s
      | none => s) := by
    split
    · split
      · exact served_drbgReseed s
      · exact .refl s
    · exact .refl s
  unfold drbgGenerate
  extract_lets t
  split
  · exact due
  · exact due.trans ⟨_, _, _, _, rfl⟩

/-! ## A slot that drains (R133) -/

theorem kslot_onKslot (i j : Nat) (f : KSlot → KSlot) (s : State) : kslot j (onKslot i f s) = if j = i then f (kslot i s) else kslot j s := by
  simp only [kslot, onKslot, onSe_se, smGet_smMod]

/-- What notices of drained slots change beside the entries: which slots they name, and the riser's books. -/
theorem drainNotice_names (i : Nat) (s : State) : ∃ l r d, r.st = s.ri.st ∧
    drainNotice i s = { s with pu := { s.pu with drained := l }, ri := r, cdc := d } ∧
    ((kslot i s).state = 2 → (kslot i s).ref = 0 → i ∈ l) := by
  unfold drainNotice
  simp only
  split
  next =>
    obtain ⟨r, d, hr, h⟩ := sendRiser_parts true .key .keyReleases (natLE 2 i) (onPu (fun p => { p with drained := p.drained ++ [i] }) s)
    exact ⟨_, r, d, hr, h, fun _ _ => by simp⟩
  next hno =>
    refine ⟨_, _, _, rfl, rfl, fun hst href => ?_⟩
    by_contra hmem
    exact hno (by simp [hst, href, hmem])

theorem drainNotice_onCmd (g : Cmd → Cmd) (i : Nat) (s : State) : drainNotice i (onCmd g s) = onCmd g (drainNotice i s) := by
  have slot : kslot i (onCmd g s) = kslot i s := rfl
  have drained : (onCmd g s).pu = s.pu := rfl
  have aside (f : Pu → Pu) : onPu f (onCmd g s) = onCmd g (onPu f s) := rfl
  simp only [drainNotice, slot, drained, aside, sendRiser_onCmd]
  split <;> rfl

theorem drainSlot_onCmd (g : Cmd → Cmd) (i : Nat) (s : State) : drainSlot i (onCmd g s) = onCmd g (drainSlot i s) := by
  have slot : kslot i (onCmd g s) = kslot i s := rfl
  have aside (f : KSlot → KSlot) : onKslot i f (onCmd g s) = onCmd g (onKslot i f s) := rfl
  simp only [drainSlot, slot, aside, onCmd_clk, drainNotice_onCmd]
  split <;> rfl

theorem drainSlot_of_other {i : Nat} {s : State} (h : (kslot i s).state ≠ 1) : drainSlot i s = s := by simp [drainSlot, h]

/-- An ACTIVE slot is DRAINING, and named in a notice if nothing refers to it (R133). -/
theorem drainSlot_of_active {i : Nat} {s : State} (h : (kslot i s).state = 1) : ∃ l r d, r.st = s.ri.st ∧
    drainSlot i s = { onKslot i (fun k => { k with state := 2, drainAt := some s.clk.now }) s with
      pu := { s.pu with drained := l }, ri := r, cdc := d } ∧
    ((kslot i s).ref = 0 → i ∈ l) := by
  obtain ⟨l, r, d, hr, hparts, hmem⟩ := drainNotice_names i (onKslot i (fun k => { k with state := 2, drainAt := some s.clk.now }) s)
  refine ⟨l, r, d, hr, ?_, fun href => hmem ?_ ?_⟩
  · rw [drainSlot, if_pos h, hparts]
    rfl
  · simp [kslot_onKslot]
  · simpa [kslot_onKslot] using href

end Sys2Proof.Claim
end

section
/-! Pump keys and associations by command (R133, R156, R163, R168, R169, R534), and O29. -/
namespace Sys2Proof.Claim
open Sys2Proof.Machine

/-! ## A command that comes to wait (R231) -/

/-- A Ready command whose operation leaves it waiting ends so. -/
theorem serve_awaits {opc : Nat} {c : Call} {s : State} (h : Ready opc c s) {w : Wait} {d : State}
    (hrun : run opc c (taken opc c s) = waits opc c w d) (hcmd : d.cmd = s.cmd) : serve opc c s = waits opc c w d :=
  serve_waits h hrun ((quiet_of_ready h).of_cmd hcmd)

section keys
variable {c : Call} {s : State}

/-! ## KEY_LOAD (R163, R168, R169) -/

/-- A slot and the other one of its pair. -/
def PairSlots (n slot other : Nat) : Prop := slot = 2 * n ∧ other = 2 * n + 1 ∨ slot = 2 * n + 1 ∧ other = 2 * n

theorem PairSlots.half {n slot other : Nat} (h : PairSlots n slot other) : slot / 2 = n := by
  unfold PairSlots at h
  omega

theorem PairSlots.otherSlot {n slot other : Nat} (h : PairSlots n slot other) : otherSlot slot = other := by
  unfold PairSlots at h
  unfold Machine.otherSlot
  split <;> omega

theorem PairSlots.ne {n slot other : Nat} (h : PairSlots n slot other) : other ≠ slot := by
  unfold PairSlots at h
  omega

theorem loadSlot_of_empty {n slot other : Nat} (hpair : PairSlots n slot other) (hempty : (kslot slot s).state = 0)
    (hother : slot = 2 * n ∨ (kslot other s).state ≠ 0) : loadSlot n s = slot := by
  obtain ⟨rfl, rfl⟩ | ⟨rfl, rfl⟩ := hpair
  · simp [loadSlot, hempty]
  · have first : (kslot (2 * n) s).state ≠ 0 := hother.resolve_left (by omega)
    simp [loadSlot, hempty, first]

theorem loadSlot_of_older {n slot other : Nat} (hpair : PairSlots n slot other) (hslot : (kslot slot s).state ≠ 0)
    (hother : (kslot other s).state ≠ 0) (holder : (kslot slot s).epoch < (kslot other s).epoch) : loadSlot n s = slot := by
  obtain ⟨rfl, rfl⟩ | ⟨rfl, rfl⟩ := hpair
  · have le : (kslot (2 * n) s).epoch ≤ (kslot (2 * n + 1) s).epoch := by omega
    simp [loadSlot, hslot, hother, le]
  · have gt : ¬ (kslot (2 * n) s).epoch ≤ (kslot (2 * n + 1) s).epoch := by omega
    simp [loadSlot, hslot, hother, gt]

/-- The load message of a key under a mask (R163). -/
def maskedLoad (slot : Nat) (p : KeyPkg) (mask : BitVec 256) : KeyMsg := {
  slot := slot, ktype := p.ktype, keyId := p.keyId, epoch := p.epoch, notAfter := p.notAfter
  share0 := BitVec.ofNat 256 (beNat p.key) ^^^ mask, share1 := mask }

/-- The message is sent to an EMPTY slot, or waits until the slot has drained (R163). -/
def loadAsked (m : KeyMsg) (s : State) : State :=
  if (kslot m.slot s).state = 0 then onPu (fun x => { x with keyChan := x.keyChan ++ [m] }) s
  else onPu (fun x => { x with queued := x.queued ++ [m] }) (drainSlot m.slot s)

theorem loadAsked_onCmd (g : Cmd → Cmd) (m : KeyMsg) (s : State) : loadAsked m (onCmd g s) = onCmd g (loadAsked m s) := by
  have slot : kslot m.slot (onCmd g s) = kslot m.slot s := rfl
  simp only [loadAsked, slot, drainSlot_onCmd]
  split <;> rfl

theorem drainSlot_cmd (i : Nat) (s : State) : (drainSlot i s).cmd = s.cmd := by
  unfold drainSlot
  split
  · obtain ⟨_, _, _, _, h⟩ := drainNotice_parts i (onKslot i (fun k => { k with state := 2, drainAt := some s.clk.now }) s)
    rw [h]
    rfl
  · rfl

theorem loadAsked_cmd (m : KeyMsg) (s : State) : (loadAsked m s).cmd = s.cmd := by
  unfold loadAsked
  split
  · rfl
  · exact drainSlot_cmd m.slot s

/-- The DRBG serves a command beside the commands' state. -/
theorem Served.of_taken {opc : Nat} {s t : State} (h : Served (taken opc c s) t) : ∃ d, t = taken opc c d ∧ Served s d := by
  obtain ⟨n, f, k, v, rfl⟩ := h
  exact ⟨_, rfl, n, f, k, v, rfl⟩

/-- What KEY_LOAD has done before its message goes: the package's keys read, and a mask drawn. -/
theorem keyLoad_masks {n : Nat} {o : AuthObj} {p : KeyPkg} (h : Ready 0x0401 c s) (hn : argN c 1 = some n)
    (ho : authArg c 2 [0x13] s = some o) (hp : (openPackage c o s).1 = .ok p) (htype : p.ktype ≤ 2) (hno3 : argN c 3 = none)
    (hno4 : argN c 4 = none) {slot other : Nat} (hpair : PairSlots n slot other) (hgood : (kslot slot s).drainBad = false)
    (hnew : ¬ ((kslot other s).state = 1 ∧ (kslot other s).keyId = p.keyId)) (hslot : loadSlot n s = slot) :
    ∃ l v t mask, Served (onEng (fun e => { e with vcCache := l, vcGen := v }) s) t ∧
      serve 0x0401 c s = waits 0x0401 c (.keyLoaded slot) (loadAsked (maskedLoad slot p mask) t) := by
  obtain ⟨⟨l, v, hread⟩, opened⟩ := openPackage_taken hp 0x0401
  generalize (openPackage c o s).2 = a at hread opened
  subst hread
  generalize hd : onEng (fun e => { e with vcCache := l, vcGen := v }) s = d at opened
  obtain ⟨t, drawn, served⟩ := (served_drbgGenerate 32 (taken 0x0401 c d)).of_taken
  generalize hmask : of256 ((drbgGenerate 32 (taken 0x0401 c d)).1.getD []) = mask
  have msg : keyMsg slot p p.notAfter (taken 0x0401 c d) = (maskedLoad slot p mask, taken 0x0401 c t) := by rw [← hmask, ← drawn]; rfl
  have held (i : Nat) : kslot i (taken 0x0401 c d) = kslot i s := by rw [← hd]; rfl
  have picked : loadSlot n (taken 0x0401 c s) = slot := hslot
  have accepts : authArg c 2 [0x13] (taken 0x0401 c s) = some o := ho
  have fits : ¬ 2 < p.ktype := by omega
  have unlike : (decide ((kslot other s).state = 1) && decide ((kslot other s).keyId = p.keyId)) = false := by simpa using hnew
  have cmd : (loadAsked (maskedLoad slot p mask) t).cmd = s.cmd := by
    obtain ⟨_, _, _, _, rfl⟩ := served
    rw [loadAsked_cmd, ← hd]
    rfl
  refine ⟨l, v, t, mask, hd ▸ served, serve_awaits h ?_ cmd⟩
  show keyLoadBody c (taken 0x0401 c s) = _
  simp only [keyLoadBody, argD_of_argN hn, accepts, hno3, hno4, ite_self, Option.getD_none, picked, hpair.half, hpair.otherSlot, opened, fits,
    held, hgood, unlike, Option.any_none, msg, await_taken, Bool.false_and, Bool.false_eq_true, if_false, ne_eq, not_true_eq_false]
  exact loadAsked_onCmd _ (maskedLoad slot p mask) t

theorem loadAsked_of_empty {m : KeyMsg} (h : (kslot m.slot s).state = 0) :
    loadAsked m s = onPu (fun x => { x with keyChan := x.keyChan ++ [m] }) s := if_pos h

/-- A load for an ACTIVE slot waits while the slot drains (R133, R163). -/
theorem loadAsked_of_active {m : KeyMsg} (h : (kslot m.slot s).state = 1) : ∃ l r d,
    loadAsked m s = { onKslot m.slot (fun k => { k with state := 2, drainAt := some s.clk.now }) s with
      pu := { s.pu with drained := l, queued := s.pu.queued ++ [m] }, ri := r, cdc := d } := by
  obtain ⟨l, r, d, -, drains, -⟩ := drainSlot_of_active h
  have full : (kslot m.slot s).state ≠ 0 := by omega
  refine ⟨l, r, d, ?_⟩
  rw [loadAsked, if_neg full, drains]
  rfl

theorem kslot_of_served {f : Eng → Eng} {t : State} (h : Served (onEng f s) t) (i : Nat) : kslot i t = kslot i s := by
  obtain ⟨_, _, _, _, rfl⟩ := h
  rfl

theorem parts_of_served {f : Eng → Eng} {t : State} (h : Served (onEng f s) t) : t.pu = s.pu ∧ t.fp = s.fp ∧ t.nv = s.nv := by
  obtain ⟨_, _, _, _, rfl⟩ := h
  exact ⟨rfl, rfl, rfl⟩

/-- To an EMPTY slot the message goes at once. -/
theorem keyLoad_sends {n : Nat} {o : AuthObj} {p : KeyPkg} (h : Ready 0x0401 c s) (hn : argN c 1 = some n)
    (ho : authArg c 2 [0x13] s = some o) (hp : (openPackage c o s).1 = .ok p) (htype : p.ktype ≤ 2) (hno3 : argN c 3 = none)
    (hno4 : argN c 4 = none) {slot other : Nat} (hpair : PairSlots n slot other) (hgood : (kslot slot s).drainBad = false)
    (hnew : ¬ ((kslot other s).state = 1 ∧ (kslot other s).keyId = p.keyId)) (hempty : (kslot slot s).state = 0)
    (hother : slot = 2 * n ∨ (kslot other s).state ≠ 0) :
    ∃ d mask, exec (.keyLoad c) s = .next (waits 0x0401 c (.keyLoaded slot) d) ∧ d = { s with
      nw := d.nw, free := d.free, clk := d.clk, tu := { s.tu with time := d.tu.time }
      eng := { s.eng with vcCache := d.eng.vcCache, vcGen := d.eng.vcGen }
      pu := { s.pu with keyChan := s.pu.keyChan ++ [maskedLoad slot p mask] } } := by
  obtain ⟨l, v, t, mask, served, row⟩ := keyLoad_masks h hn ho hp htype hno3 hno4 hpair hgood hnew (loadSlot_of_empty hpair hempty hother)
  have empty : (kslot (maskedLoad slot p mask).slot t).state = 0 := by rw [kslot_of_served served]; exact hempty
  rw [loadAsked_of_empty empty] at row
  refine ⟨_, mask, congrArg Host.Outcome.next row, ?_⟩
  obtain ⟨_, _, _, _, rfl⟩ := served
  rfl

/-- Of two slots in use the one of the lower EPOCH drains, and the message waits for it. -/
theorem keyLoad_queues {n : Nat} {o : AuthObj} {p : KeyPkg} (h : Ready 0x0401 c s) (hn : argN c 1 = some n)
    (ho : authArg c 2 [0x13] s = some o) (hp : (openPackage c o s).1 = .ok p) (htype : p.ktype ≤ 2) (hno3 : argN c 3 = none)
    (hno4 : argN c 4 = none) {slot other : Nat} (hpair : PairSlots n slot other) (hgood : (kslot slot s).drainBad = false)
    (hnew : ¬ ((kslot other s).state = 1 ∧ (kslot other s).keyId = p.keyId)) (hactive : (kslot slot s).state = 1)
    (hother : (kslot other s).state ≠ 0) (holder : (kslot slot s).epoch < (kslot other s).epoch) :
    ∃ d mask, exec (.keyLoad c) s = .next (waits 0x0401 c (.keyLoaded slot) d) ∧ (kslot slot d).state = 2 ∧
      (kslot other d) = kslot other s ∧ d.pu.queued = s.pu.queued ++ [maskedLoad slot p mask] ∧ d.pu.keyChan = s.pu.keyChan ∧
      (∀ i, i ≠ slot → kslot i d = kslot i s) ∧ d.fp = s.fp ∧ d.nv = s.nv := by
  have full : (kslot slot s).state ≠ 0 := by omega
  obtain ⟨l, v, t, mask, served, row⟩ := keyLoad_masks h hn ho hp htype hno3 hno4 hpair hgood hnew (loadSlot_of_older hpair full hother holder)
  have held := kslot_of_served served
  obtain ⟨pu, fp, nv⟩ := parts_of_served served
  have chan : t.pu.keyChan = s.pu.keyChan := congrArg Pu.keyChan pu
  have active : (kslot (maskedLoad slot p mask).slot t).state = 1 := by rw [held]; exact hactive
  obtain ⟨drained, r, cdc, queued⟩ := loadAsked_of_active active
  generalize hd : loadAsked (maskedLoad slot p mask) t = d at row queued
  have slots (i : Nat) : kslot i d = if i = slot then { kslot slot s with state := 2, drainAt := some t.clk.now } else kslot i s := by
    have moved := kslot_onKslot slot i (fun k => { k with state := 2, drainAt := some t.clk.now }) t
    rw [held, held] at moved
    rw [← moved, queued]
    rfl
  refine ⟨d, mask, congrArg Host.Outcome.next row, ?_, ?_, ?_, ?_, fun i hi => ?_, ?_, ?_⟩
  · rw [slots, if_pos rfl]
  · rw [slots, if_neg hpair.ne]
  · rw [queued]
    exact congrArg (fun x : Pu => x.queued ++ [maskedLoad slot p mask]) pu
  · rw [queued]
    exact chan
  · rw [slots, if_neg hi]
  · rw [queued]
    exact fp
  · rw [queued]
    exact nv

/-! ## KEY_RELEASE (R168) -/

/-- A command that waits over a device with no other command replies as it would have at once. -/
theorem reply_waits {opc st : Nat} {tlvs : List Tlv} {w : Wait} {d : State} (h : d.cmd.owed = []) :
    reply c st tlvs (waits opc c w d) = reply c st tlvs (taken opc c d) := by
  rw [reply_taken opc c st tlvs d h, reply_awaited (s := waits opc c w d) rfl]
  show handBack _ _ _ _ = handBack _ _ _ _
  rw [show onCmd (fun x => { x with owed := [] }) (waits opc c w d) =
      onCmd (fun x => { x with turn := (turnNo c.via + 1) % turnCount }) d by simp [waits, onCmd, h]]

theorem checkReleases_waits {opc i : Nat} {d : State} : checkReleases (waits opc c (.slotEmpty [i]) d) =
    if (kslot i d).state = 0 then replyOk c [] (waits opc c (.slotEmpty [i]) d) else waits opc c (.slotEmpty [i]) d := by
  have slot : kslot i (waits opc c (.slotEmpty [i]) d) = kslot i d := rfl
  have owed : (waits opc c (.slotEmpty [i]) d).cmd.owed = [{ call := c, opcode := opc, wait := .slotEmpty [i] }] := rfl
  simp [checkReleases, owed, slot]

theorem keyRelease_run {i : Nat} (hi : argN c 1 = some i) :
    run 0x0402 c (taken 0x0402 c s) = checkReleases (waits 0x0402 c (.slotEmpty [i]) (drainSlot i s)) := by
  have drains : drainSlot i (taken 0x0402 c s) = taken 0x0402 c (drainSlot i s) := drainSlot_onCmd _ i s
  show keyReleaseBody c (taken 0x0402 c s) = _
  simp only [keyReleaseBody, hi, List.foldl_cons, List.foldl_nil, drains, await_taken, List.cons_ne_nil, if_false]

theorem keyRelease_replies {i : Nat} (h : Ready 0x0402 c s) (hi : argN c 1 = some i) (hempty : (kslot i s).state = 0) :
    RepliesOk 0x0402 c [] s (exec (.keyRelease c) s) := by
  have idle : drainSlot i s = s := drainSlot_of_other (by omega)
  refine congrArg Host.Outcome.next (serve_replies h ?_)
  rw [keyRelease_run hi, idle, checkReleases_waits, if_pos hempty]
  exact reply_waits (owed_nil_of_ready h)

theorem keyRelease_drains {i : Nat} (h : Ready 0x0402 c s) (hi : argN c 1 = some i) (hactive : (kslot i s).state = 1) :
    ∃ d, exec (.keyRelease c) s = .next (waits 0x0402 c (.slotEmpty [i]) d) ∧
      kslot i d = { kslot i s with state := 2, drainAt := some s.clk.now } ∧ (∀ j, j ≠ i → kslot j d = kslot j s) ∧
      ((kslot i s).ref = 0 → i ∈ d.pu.drained) ∧
      d = { s with se := d.se, pu := { s.pu with drained := d.pu.drained }, ri := d.ri, cdc := d.cdc } := by
  obtain ⟨l, r, cdc, -, drains, named⟩ := drainSlot_of_active hactive
  generalize hd : drainSlot i s = d at drains
  have slots (j : Nat) : kslot j d = if j = i then { kslot i s with state := 2, drainAt := some s.clk.now } else kslot j s := by
    rw [drains]
    exact kslot_onKslot i j _ s
  have draining : (kslot i d).state ≠ 0 := by simp [slots]
  have run : run 0x0402 c (taken 0x0402 c s) = waits 0x0402 c (.slotEmpty [i]) d := by
    rw [keyRelease_run hi, hd, checkReleases_waits, if_neg draining]
  refine ⟨d, congrArg Host.Outcome.next (serve_awaits h run (hd ▸ drainSlot_cmd i s)), ?_, fun j hj => ?_, fun href => ?_, ?_⟩
  · rw [slots, if_pos rfl]
  · rw [slots, if_neg hj]
  · rw [drains]
    exact named href
  · rw [drains]
    rfl

/-! ## KEY_INFO and ASSOC_LOAD (R156, R168, R534) -/

theorem keyInfo_reads {i : Nat} (h : Ready 0x0403 c s) (hi : argN c 1 = some i) :
    RepliesOk 0x0403 c ([r32 1 (kslot i s).keyId, r32 2 (kslot i s).epoch, r64 3 (kslot i s).notAfter, r8 4 (kslot i s).state,
      r8 5 (kslot i s).ktype] ++ (if c.pkt.expert then [r16 6 (kslot i s).ref, r32 7 (kslot i s).corrected,
      r16 8 ((kslot i s).spare.getD 65535)] else [])) s (exec (.keyInfo c) s) := by
  refine congrArg Host.Outcome.next (serve_replies h ?_)
  show keyInfoBody c (taken 0x0403 c s) = _
  rw [keyInfoBody, argD_of_argN hi]
  rfl

theorem hasArg_of_authArg {ty : Nat} {kinds : List Nat} {o : AuthObj} (h : authArg c ty kinds s = some o) : hasArg c ty = true := by
  cases harg : argOf c ty with
  | none => simp [authArg, harg] at h
  | some b => simp [hasArg, harg]

theorem assocLoad_stores {o : AuthObj} (h : Ready 0x0404 c s) (hno : argN c 2 = none) (ho : authArg c 1 [0x12] s = some o)
    (hlen : o.body.length = 32) (hself : leNat (slice o.body 0 8) = Config.serial % 2 ^ 64)
    (hpeer : leNat (slice o.body 8 8) ≠ Config.serial % 2 ^ 64) (hpair : leNat (slice o.body 16 2) < 16384)
    (hzero : ∀ b ∈ o.body.drop 18, b = 0) :
    RepliesOk 0x0404 c [r16 1 (leNat (slice o.body 16 2))] (onNv (fun n => { n with
      assocs := smSet {} n.assocs (leNat (slice o.body 16 2)) { peer := leNat (slice o.body 8 8), held := true } }) s)
      (exec (.assocLoad c) s) := by
  have accepts : authArg c 1 [0x12] (taken 0x0404 c s) = some o := ho
  have given := hasArg_of_authArg ho
  have fits : ¬ 16384 ≤ leNat (slice o.body 16 2) := by omega
  have clear : (o.body.drop 18).any (· ≠ 0) = false := by simpa using hzero
  refine congrArg Host.Outcome.next (serve_over (d := onNv (fun n => { n with
      assocs := smSet {} n.assocs (leNat (slice o.body 16 2)) { peer := leNat (slice o.body 8 8), held := true } }) s) h ?_ rfl)
  show assocLoadBody c (taken 0x0404 c s) = _
  simp only [assocLoadBody, hno, ite_self, given, accepts, hlen, fits, clear, hself, hpeer, ne_eq, not_true_eq_false, decide_false,
    Bool.or_false, Bool.not_true, Bool.false_eq_true, if_false]
  rfl

theorem assocLoad_removes {p : Nat} (h : Ready 0x0404 c s) (hexp : c.pkt.expert = true) (hp : argN c 2 = some p)
    (hunused : assocUsed p s = false) :
    RepliesOk 0x0404 c [r16 1 p] (onNv (fun n => { n with assocs := smSet {} n.assocs p {} }) s) (exec (.assocLoad c) s) := by
  have unused : assocUsed p (taken 0x0404 c s) = false := hunused
  refine congrArg Host.Outcome.next (serve_over (d := onNv (fun n => { n with assocs := smSet {} n.assocs p {} }) s) h ?_ rfl)
  show assocLoadBody c (taken 0x0404 c s) = _
  simp only [assocLoadBody, hexp, if_true, hp, unused, Bool.false_eq_true, if_false]
  rfl

end keys

/-- Settles O29: each command's body run on a Ready packet; a load's and a release's slot drains by the rule of R133. -/
theorem keyCommands : Obligations.KeyCommands := by
  intro c s
  refine ⟨fun h n o p hn ho hp htype hno3 hno4 slot other hpair hgood hnew => ⟨fun hempty hother => ?_, fun hactive hother holder => ?_⟩,
    fun h i hi => ⟨fun hempty => ?_, fun hactive => ?_⟩, fun h i hi => ?_,
    fun h hno o ho hlen hself hpeer hpair hzero => ?_, fun h hexp p hp hunused => ?_⟩
  · exact keyLoad_sends h hn ho hp htype hno3 hno4 hpair hgood hnew hempty hother
  · exact keyLoad_queues h hn ho hp htype hno3 hno4 hpair hgood hnew hactive hother holder
  · exact keyRelease_replies h hi hempty
  · exact keyRelease_drains h hi hactive
  · exact keyInfo_reads h hi
  · exact assocLoad_stores h hno ho hlen hself hpeer hpair hzero
  · exact assocLoad_removes h hexp hp hunused

end Sys2Proof.Claim
end

section
/-! Transactions at their instants: the armed commit, settling and cleanup (R130, R138, R141), and O46. -/
namespace Sys2Proof.Claim
open Sys2Proof.Machine

/-! ## The armed instant (R138) -/

theorem foldl_of_fixed {α β : Type} {f : β → α → β} {l : List α} {s : β} (h : ∀ x ∈ l, f s x = s) : l.foldl f s = s := by
  induction l with
  | nil => rfl
  | cons x l ih => rw [List.foldl_cons, h x (List.mem_cons_self ..), ih (fun y hy => h y (List.mem_cons_of_mem _ hy))]

/-- Where one element of a list alone changes anything, before and behind its turn, the fold is its step. -/
theorem foldl_of_single {α β : Type} {f : β → α → β} {l : List α} {s : β} {x : α} (hx : x ∈ l) (hnodup : l.Nodup)
    (hbefore : ∀ y ∈ l, y ≠ x → f s y = s) (hbehind : ∀ y ∈ l, y ≠ x → f (f s x) y = f s x) : l.foldl f s = f s x := by
  induction l with
  | nil => cases hx
  | cons y l ih =>
    obtain ⟨hfresh, hnodup⟩ := List.nodup_cons.mp hnodup
    rw [List.foldl_cons]
    by_cases hy : y = x
    · subst hy
      exact foldl_of_fixed (fun z hz => hbehind z (List.mem_cons_of_mem _ hz) (fun h => hfresh (h ▸ hz)))
    · rw [hbefore y (List.mem_cons_self ..) hy]
      exact ih ((List.mem_cons.mp hx).resolve_left (Ne.symm hy)) hnodup (fun z hz => hbefore z (List.mem_cons_of_mem _ hz))
        (fun z hz => hbehind z (List.mem_cons_of_mem _ hz))

/-- The one transaction whose turn brings a change commits. -/
def commitTurn (s : State) (k : Nat) : State :=
  if (txnOf k s).st == .armed && (txnOf k s).instant ≤ ptp16 s then commitTxn k (txnOf k s).instant s else s

theorem commitDue_eq (s : State) : commitDue s = txnNos.foldl commitTurn s := rfl

theorem commitTurn_of_unarmed {k : Nat} {s : State} (h : (txnOf k s).st ≠ .armed) : commitTurn s k = s := by
  simp [commitTurn, h]

theorem commitTurn_of_armed {k : Nat} {s : State} (h : (txnOf k s).st = .armed) (hdue : (txnOf k s).instant ≤ ptp16 s) :
    commitTurn s k = commitTxn k (txnOf k s).instant s := by
  simp [commitTurn, h, hdue]

theorem mem_txnNos (k : Fin 8) : k.val ∈ txnNos := by
  have small := k.isLt
  simp only [txnNos, List.mem_cons, List.not_mem_nil, or_false]
  omega

theorem framesDue_of_noFrames {s : State} (hing : s.fp.ing = []) (hegr : s.fp.egr = []) : framesDue s = s := by
  have jobs : jobsDue s = s := by simp [jobsDue, hegr, sortBy_nil]
  have releases : releasesDue s = s := by simp [releasesDue, hegr, sortBy_nil]
  have verdicts : verdictsDue s = s := by simp [verdictsDue, hing, sortBy_nil]
  rw [framesDue, jobs, releases, verdicts]

/-- Asking the vault core for an epoch touches neither the stream engine nor the frame path. -/
theorem askVault_epoch_apart (e : Nat) (s : State) : (askVault (.epoch e) s).se = s.se ∧ (askVault (.epoch e) s).fp = s.fp := by
  unfold askVault
  split
  · obtain ⟨r, d, -, h⟩ := sendRiser_parts true .key .epochNotices (natLE 4 e) s
    simp only [keyRequest, h]
    exact ⟨rfl, rfl⟩
  · exact ⟨rfl, rfl⟩

section commit
variable {k instant : Nat} {s : State}

/-- What a commit makes of the transactions: the one it commits, and no other (R138). -/
theorem txnOf_commitTxn (j : Nat) : txnOf j (commitTxn k instant s) =
    if j = k then { txnOf k s with st := .committed, instant := instant, wallAt := s.clk.now } else txnOf j s := by
  have plain := txnOf_onTxn k j (fun t => { t with st := .committed, instant := instant, wallAt := s.clk.now }) s
  by_cases hepoch : Change.epoch ∈ (txnOf k s).staged
  · rw [commitTxn_of_epoch hepoch, txnOf, (askVault_epoch_apart _ _).1]
    exact plain
  · rw [commitTxn_of_noEpoch hepoch]
    exact plain

theorem commitTxn_fp : (commitTxn k instant s).fp = s.fp := by
  by_cases hepoch : Change.epoch ∈ (txnOf k s).staged
  · rw [commitTxn_of_epoch hepoch, (askVault_epoch_apart _ _).2]
    rfl
  · rw [commitTxn_of_noEpoch hepoch]
    rfl

/-- An epoch that is staged advances with the commit, and the vault core takes note as soon as it is reached (R130). -/
theorem commitTxn_epoch_spec (hepoch : Change.epoch ∈ (txnOf k s).staged) :
    (commitTxn k instant s).se.epoch = s.se.epoch + 1 ∧ (commitTxn k instant s).se.epochPrev = s.se.epoch ∧
      (commitTxn k instant s).se.epochAt = instant ∧
      (vaultReached s = false → (commitTxn k instant s).ev.waitKey = s.ev.waitKey ++ [.epoch (s.se.epoch + 1)]) ∧
      (vaultReached s = true → s.ev.waitKey = [] → monoRead 4 (commitTxn k instant s) = some (s.se.epoch + 1)) := by
  rw [commitTxn_of_epoch hepoch]
  generalize ha : epochMoved instant (committed k instant s) = a
  have ev : a.ev = s.ev := by rw [← ha]; rfl
  have reached : vaultReached a = vaultReached s := by rw [← ha]; rfl
  have se := (askVault_epoch_apart (s.se.epoch + 1) a).1
  refine ⟨?_, ?_, ?_, fun hdown => ?_, fun hup hnone => ?_⟩
  · rw [se, ← ha]
    rfl
  · rw [se, ← ha]
    rfl
  · rw [se, ← ha]
    rfl
  · simp [askVault, reached, hdown, ev]
  · rw [askVault_of_reached (reached.trans hup) (by rw [ev, hnone])]
    exact (keyRequest_epoch_spec _ a).2.1

/-- When the one transaction that is armed is due, it alone commits (R138). -/
theorem commitDue_of_armed (k : Fin 8) (h : (txnOf k s).st = .armed) (hdue : (txnOf k s).instant ≤ ptp16 s)
    (hothers : ∀ j ∈ txnNos, j ≠ k.val → (txnOf j s).st ≠ .armed) : commitDue s = commitTxn k (txnOf k s).instant s := by
  have own := commitTurn_of_armed h hdue
  rw [commitDue_eq, ← own]
  refine foldl_of_single (mem_txnNos k) (by decide) (fun j hj hne => commitTurn_of_unarmed (hothers j hj hne)) (fun j hj hne => ?_)
  refine commitTurn_of_unarmed ?_
  rw [own, txnOf_commitTxn, if_neg hne]
  exact hothers j hj hne

end commit

theorem pass_of_nothingDue {dt : Nat} {s : State} (h : NothingDue (advance dt s)) : pass dt s = advance dt s := by
  show framesDue (commitDue (advance dt s)) = advance dt s
  rw [commitDue_of_nothingDue h, framesDue_of_nothingDue h]

section rows
variable {dt : Nat} {s : State}

/-- The row of an armed instant that has come finds the transaction committed already: time lets it come about first. -/
theorem txnArmedInstant_commits (k : Fin 8) (h : (txnOf k (advance dt s)).st = .armed)
    (hdue : (txnOf k (advance dt s)).instant ≤ ptp16 (advance dt s)) (hing : (advance dt s).fp.ing = []) (hegr : (advance dt s).fp.egr = [])
    (hothers : ∀ j ∈ txnNos, j ≠ k.val → (txnOf j (advance dt s)).st ≠ .armed) :
    exec (.txnArmedInstant dt k) s = .next (commitTxn k (txnOf k (advance dt s)).instant (advance dt s)) := by
  generalize hd : commitTxn k (txnOf k (advance dt s)).instant (advance dt s) = d
  have fp : d.fp = (advance dt s).fp := by rw [← hd, commitTxn_fp]
  have st : (txnOf k d).st = .committed := by rw [← hd, txnOf_commitTxn, if_pos rfl]
  have passed : pass dt s = d := by
    show framesDue (commitDue (advance dt s)) = d
    rw [commitDue_of_armed k h hdue hothers, hd]
    exact framesDue_of_noFrames (by rw [fp, hing]) (by rw [fp, hegr])
  show execTxnArmedInstant dt k s = _
  simp [execTxnArmedInstant, passed, st]
  rfl

theorem txnArmedInstant_waits (k : Fin 8) (h : (txnOf k (advance dt s)).st = .armed) (hnone : NothingDue (advance dt s)) :
    exec (.txnArmedInstant dt k) s = .next (advance dt s) := by
  have early : ¬ (txnOf k (advance dt s)).instant ≤ ptp16 (advance dt s) := by
    obtain ⟨hcommits, -⟩ := hnone
    exact fun hdue => hcommits k (mem_txnNos k) ⟨h, hdue⟩
  show execTxnArmedInstant dt k s = _
  simp [execTxnArmedInstant, pass_of_nothingDue hnone, early]
  rfl

/-- The row of settling, 2 ms behind the commit. -/
theorem settlingStart_of_due (k : Fin 8) (hrun : running (advance dt s) = true) (hnone : NothingDue (advance dt s))
    (hst : (txnOf k (advance dt s)).st = .committed) (hnew : (txnOf k (advance dt s)).settling = false)
    (hdue : (txnOf k (advance dt s)).wallAt + 500000 ≤ (advance dt s).clk.now) : exec (.settlingStart dt k) s =
      .next (if toSettle (txnOf k (advance dt s)) then onTxn k (fun t => { t with settling := true }) (advance dt s)
        else onTxn k (fun t => { ({} : Txn) with failed := t.failed }) (advance dt s)) := by
  have due : (txnOf k (advance dt s)).wallAt + msTicks 2 ≤ (advance dt s).clk.now := hdue
  show execSettlingStart dt k s = _
  simp only [execSettlingStart, pass_of_nothingDue hnone, hrun, hst, hnew, due, Bool.not_true, Bool.false_eq_true, if_false,
    Bool.not_false, beq_self_eq_true, decide_true, Bool.and_self, if_true]
  rfl

end rows

/-! ## A step of settling or of cleanup (R141) -/

theorem cisternServe_parts (c n : Nat) (s : State) : ∃ k t w d, cisternServe c n s = { s with
    clk := k, tu := { s.tu with time := t }, se := { s.se with cwait := w }, cdc := d } := by
  unfold cisternServe
  rw [cdcPass_parts, cdcPass_parts, inTurn_parts]
  exact ⟨_, _, _, _, rfl⟩

/-- What the turn at the cistern controller leaves: entries, transactions, lines and frames. -/
theorem cisternServe_apart (c n : Nat) (s : State) {α : Type} (g : State → α)
    (hg : ∀ k t w d, g { s with clk := k, tu := { s.tu with time := t }, se := { s.se with cwait := w }, cdc := d } = g s) :
    g (cisternServe c n s) = g s := by
  obtain ⟨k, t, w, d, h⟩ := cisternServe_parts c n s
  rw [h]
  exact hg k t w d

/-- A step carries out the change it stands at, and frees the slot behind the last one. -/
theorem stepTxn_spec {k : Nat} {f : Nat → Change → State → State} {s : State} {ch : Change}
    (hch : (txnOf k s).staged[(txnOf k s).settled]? = some ch) (hsame : txnOf k (f k ch s) = txnOf k s) :
    ∃ x, stepTxn k f s = onSe (fun e => { e with txns := x }) (f k ch s) ∧
      (txnOf k (stepTxn k f s)).st = if (txnOf k s).settled + 1 < (txnOf k s).staged.length then (txnOf k s).st else .free := by
  have own := txnOf_onTxn_same k (fun t => { t with settled := t.settled + 1 }) (f k ch s)
  rw [hsame] at own
  simp only [stepTxn, hch, own]
  by_cases hlast : (txnOf k s).staged.length ≤ (txnOf k s).settled + 1
  · have last : ¬ (txnOf k s).settled + 1 < (txnOf k s).staged.length := by omega
    simp only [hlast, last, if_true, if_false]
    exact ⟨_, rfl, by rw [txnOf_onTxn_same]⟩
  · have more : (txnOf k s).settled + 1 < (txnOf k s).staged.length := by omega
    simp only [hlast, more, if_true, if_false]
    exact ⟨_, rfl, by rw [own]⟩

section steps
variable {k i : Nat} {s : State}

/-- A line that follows its entry's bank is all that changes (log 108). -/
theorem lineFollows_parts (i : Nat) (s : State) : ∃ l, lineFollows i s = onNv (fun n => { n with lines := l }) s := by
  unfold lineFollows
  simp only
  split
  · exact ⟨_, rfl⟩
  · exact ⟨_, rfl⟩

theorem lineFollows_of_subscribe (h : (curEntry i s).publish = false) : lineFollows i s = s := by simp [lineFollows, h]

/-- The line of a publish entry then stands on the pair of its bank (log 108). -/
theorem lineFollows_pair (h : (curEntry i s).publish = true) :
    (ctrLine (curEntry i s).wrapLine (lineFollows i s)).pair = (baseBank (curEntry i s)).kpair := by
  simp only [lineFollows]
  generalize curEntry i s = e at h ⊢
  by_cases hpair : (ctrLine e.wrapLine s).pair = (baseBank e).kpair
  · simp [h, hpair]
  · rw [if_pos (by simp [h, hpair])]
    simp [ctrLine, onLine]

theorem activateBank_of_pendingB {e : Entry} (hb : e.stb = .pending) (htx : e.txb = k) (ha : e.sta = .active) :
    activateBank k e = { e with stb := .active, sta := .idle, version := e.version + 1 } := by
  simp [activateBank, hb, htx, ha]

/-- A settling control change or addition: bank B active, its publish line behind it. -/
theorem settleChange_activates {ch : Change} (hch : ch = .control i ∨ ch = .add i) (hb : (curEntry i s).stb = .pending)
    (htx : (curEntry i s).txb = k) (ha : (curEntry i s).sta = .active) : ∃ l,
    settleChange k ch s = onNv (fun n => { n with lines := l }) (ctlEntry i (activateBank k) s) ∧
    ((curEntry i s).publish = false → l = s.nv.lines) ∧
    ((curEntry i s).publish = true → ch = .control i →
      (ctrLine (curEntry i s).wrapLine (settleChange k ch s)).pair = (curEntry i s).bankB.kpair) := by
  have entry : curEntry i (ctlEntry i (activateBank k) s) =
      { curEntry i s with stb := .active, sta := .idle, version := (curEntry i s).version + 1 } := by
    rw [curEntry_ctlEntry, if_pos rfl, activateBank_of_pendingB hb htx ha]
  obtain rfl | rfl := hch
  · obtain ⟨l, hl⟩ := lineFollows_parts i (ctlEntry i (activateBank k) s)
    refine ⟨l, hl, fun hpub => ?_, fun hpub _ => ?_⟩
    · have still : lineFollows i (ctlEntry i (activateBank k) s) = ctlEntry i (activateBank k) s :=
        lineFollows_of_subscribe (by rw [entry]; exact hpub)
      exact (congrArg (fun x : State => x.nv.lines) (hl.symm.trans still)).trans rfl
    · have follows := lineFollows_pair (i := i) (s := ctlEntry i (activateBank k) s) (by rw [entry]; exact hpub)
      rw [entry] at follows
      exact follows
  · exact ⟨s.nv.lines, rfl, fun _ => rfl, fun _ h => by cases h⟩

theorem smGet_map {α : Type} {d : α} {f : α → α} (hd : f d = d) (m : SMap α) (n : Nat) :
    smGet d (m.map (fun x => (x.1, f x.2))) n = f (smGet d m n) := by
  unfold smGet
  induction m with
  | nil => exact hd.symm
  | cons x m ih =>
    simp only [List.map_cons, smFind]
    split
    · rfl
    · exact ih

/-- No group's operand on a deleted stream is live any more (R201). -/
theorem forgetStream_dead (g : Nat) {o : Operand} (ho : o ∈ (groupOf g (forgetStream i s)).ops) (hidx : o.idx = i) : o.live = false := by
  have ops : (groupOf g (forgetStream i s)).ops = (groupOf g s).ops.map (fun o => if o.idx = i then { o with live := false } else o) :=
    congrArg Group.ops (smGet_map (d := ({} : Group))
      (f := fun g => { g with ops := g.ops.map (fun o => if o.idx = i then { o with live := false } else o) }) rfl s.co.groups g)
  rw [ops] at ho
  obtain ⟨p, -, rfl⟩ := List.mem_map.mp ho
  by_cases hp : p.idx = i
  · simp [hp]
  · simp [hp] at hidx

/-- A deleted subscribe stream leaves its position blank but for the CHAIN, and no live operand. -/
theorem removeStream_of_subscribe {free : Bool} (hpub : (curEntry i s).publish = false) : ∃ n,
    curEntry i (removeStream i free s) = freeEntry { curEntry i s with chain := n } ∧ EntriesMoved (forgetStream i s) (removeStream i free s) := by
  have entry : curEntry i (forgetStream i s) = curEntry i s := rfl
  generalize hc : chainAdd (entryKey (curEntry i s)) (curEntry i s).rank false (forgetStream i s) = c
  obtain ⟨n, hn⟩ := curEntry_chainAdd (entryKey (curEntry i s)) (curEntry i s).rank false i (forgetStream i s)
  rw [hc, entry] at hn
  have removed : removeStream i free s = ctlEntry i freeEntry c := by
    simp only [removeStream, entry, hpub, hc, Bool.false_eq_true, if_false]
  refine ⟨n, ?_, ?_⟩
  · rw [removed, curEntry_ctlEntry, if_pos rfl, hn]
  · rw [removed, ← hc]
    exact (entriesMoved_chainAdd _ _ _ _).trans (entriesMoved_ctlEntry _ _ _)

/-- The cleanup of a control change or of a deletion whose bank B is pending puts that bank back to IDLE. -/
theorem cleanupChange_idles {ch : Change} (hch : ch = .control i ∨ ch = .delete i false) (hb : bankPend (curEntry i s).stb = true)
    (htx : (curEntry i s).txb = k) (ha : bankPend (curEntry i s).sta = false) :
    curEntry i (cleanupChange k ch s) = { curEntry i s with stb := .idle } ∧ EntriesMoved s (cleanupChange k ch s) := by
  have both : cleanupChange k ch s = cleanupChange k (.control i) s := by obtain rfl | rfl := hch <;> rfl
  rw [both]
  refine ⟨?_, ⟨_, _, rfl⟩⟩
  simp [cleanupChange, curEntry_ctlEntry, hb, htx, ha]

end steps

/-! ## The rows of a step -/

section rows
variable {k : Fin 8} {i : Nat} {s : State} (hrun : running s = true)
include hrun

theorem settleEntry_of_settling (hst : (txnOf k s).st = .committed) (hset : (txnOf k s).settling = true) :
    exec (.settleEntry k) s = .next (stepTxn k settleChange (cisternServe reqWriteBack 4 s)) := by
  show execSettleEntry k s = _
  simp [execSettleEntry, hrun, hst, hset]
  rfl

theorem cleanupEntry_of_aborting (hst : (txnOf k s).st = .aborting) :
    exec (.cleanupEntry k) s = .next (stepTxn k cleanupChange (cisternServe reqWriteBack 4 s)) := by
  show execCleanupEntry k s = _
  simp [execCleanupEntry, hrun, hst]
  rfl

/-- A settling step on a control change or an addition makes bank B active (R141). -/
theorem settleEntry_activates (hst : (txnOf k s).st = .committed) (hset : (txnOf k s).settling = true) {ch : Change}
    (hch : ch = .control i ∨ ch = .add i) (hat : (txnOf k s).staged[(txnOf k s).settled]? = some ch) (hb : (curEntry i s).stb = .pending)
    (htx : (curEntry i s).txb = k) (ha : (curEntry i s).sta = .active) :
    ∃ d, exec (.settleEntry k) s = .next d ∧
      curEntry i d = { curEntry i s with stb := .active, sta := .idle, version := (curEntry i s).version + 1 } ∧
      (txnOf k d).st = (if (txnOf k s).settled + 1 < (txnOf k s).staged.length then .committed else .free) ∧
      ((curEntry i s).publish = false → d.nv = s.nv) ∧
      ((curEntry i s).publish = true → ch = .control i → (ctrLine (curEntry i s).wrapLine d).pair = (curEntry i s).bankB.kpair) := by
  have entry := cisternServe_apart reqWriteBack 4 s (curEntry i) (fun _ _ _ _ => rfl)
  have txn := cisternServe_apart reqWriteBack 4 s (txnOf k) (fun _ _ _ _ => rfl)
  have nv := cisternServe_apart reqWriteBack 4 s State.nv (fun _ _ _ _ => rfl)
  have row := settleEntry_of_settling hrun hst hset
  generalize cisternServe reqWriteBack 4 s = b at entry txn nv row
  obtain ⟨l, hl, still, follows⟩ := settleChange_activates (k := k) (s := b) hch (by rw [entry, hb]) (by rw [entry, htx]) (by rw [entry, ha])
  obtain ⟨x, step, st⟩ := stepTxn_spec (k := k) (f := settleChange) (s := b) (by rw [txn]; exact hat) (by rw [hl]; rfl)
  refine ⟨_, row, ?_, ?_, fun hpub => ?_, fun hpub hctl => ?_⟩
  · have active : curEntry i (ctlEntry i (activateBank k) b) = activateBank k (curEntry i s) := by
      rw [curEntry_ctlEntry, if_pos rfl, entry]
    rw [activateBank_of_pendingB hb htx ha] at active
    rw [step, hl]
    exact active
  · rw [st, txn, hst]
  · rw [step, hl, still (by rw [entry]; exact hpub)]
    exact nv
  · rw [step, ← entry]
    exact follows (by rw [entry]; exact hpub) hctl

/-- A settling step on the deletion of a subscribe stream frees its entry (R141, R201). -/
theorem settleEntry_deletes (hst : (txnOf k s).st = .committed) (hset : (txnOf k s).settling = true)
    (hat : (txnOf k s).staged[(txnOf k s).settled]? = some (.delete i false)) (hpub : (curEntry i s).publish = false) :
    ∃ d, exec (.settleEntry k) s = .next d ∧ (curEntry i d).used = false ∧ (curEntry i d).sta = .idle ∧ (curEntry i d).stb = .idle ∧
      (∀ g o, o ∈ (groupOf g d).ops → o.idx = i → o.live = false) ∧ d.nv = s.nv := by
  have entry := cisternServe_apart reqWriteBack 4 s (curEntry i) (fun _ _ _ _ => rfl)
  have txn := cisternServe_apart reqWriteBack 4 s (txnOf k) (fun _ _ _ _ => rfl)
  have nv := cisternServe_apart reqWriteBack 4 s State.nv (fun _ _ _ _ => rfl)
  have row := settleEntry_of_settling hrun hst hset
  generalize cisternServe reqWriteBack 4 s = b at entry txn nv row
  obtain ⟨n, freed, moved⟩ := removeStream_of_subscribe (s := b) (i := i) (free := false) (by rw [entry]; exact hpub)
  have same : txnOf k (settleChange k (.delete i false) b) = txnOf k b := moved.txnOf k
  obtain ⟨x, step, -⟩ := stepTxn_spec (f := settleChange) (by rw [txn]; exact hat) same
  have at_ : curEntry i (stepTxn k settleChange b) = freeEntry { curEntry i b with chain := n } := by
    rw [step]
    exact freed
  refine ⟨_, row, ?_, ?_, ?_, fun g o ho hidx => ?_, ?_⟩
  · rw [at_]
    rfl
  · rw [at_]
    rfl
  · rw [at_]
    rfl
  · have groups : groupOf g (stepTxn k settleChange b) = groupOf g (forgetStream i b) := by
      rw [step]
      exact congrArg (fun x : Co => smGet {} x.groups g) moved.co
    exact forgetStream_dead g (groups ▸ ho) hidx
  · rw [step]
    exact moved.nv.trans nv

/-- A cleanup step on a control change or a deletion (R141). -/
theorem cleanupEntry_idles (hst : (txnOf k s).st = .aborting) {ch : Change} (hch : ch = .control i ∨ ch = .delete i false)
    (hat : (txnOf k s).staged[(txnOf k s).settled]? = some ch) (hb : bankPend (curEntry i s).stb = true)
    (htx : (curEntry i s).txb = k) (ha : bankPend (curEntry i s).sta = false) :
    ∃ d, exec (.cleanupEntry k) s = .next d ∧ curEntry i d = { curEntry i s with stb := .idle } ∧
      (txnOf k d).st = (if (txnOf k s).settled + 1 < (txnOf k s).staged.length then .aborting else .free) ∧ d.nv = s.nv := by
  have entry := cisternServe_apart reqWriteBack 4 s (curEntry i) (fun _ _ _ _ => rfl)
  have txn := cisternServe_apart reqWriteBack 4 s (txnOf k) (fun _ _ _ _ => rfl)
  have nv := cisternServe_apart reqWriteBack 4 s State.nv (fun _ _ _ _ => rfl)
  have row := cleanupEntry_of_aborting hrun hst
  generalize cisternServe reqWriteBack 4 s = b at entry txn nv row
  rw [← entry] at hb htx ha
  obtain ⟨idle, moved⟩ := cleanupChange_idles hch hb htx ha
  obtain ⟨x, step, st⟩ := stepTxn_spec (k := k) (f := cleanupChange) (s := b) (by rw [txn]; exact hat) (moved.txnOf k)
  refine ⟨_, row, ?_, ?_, ?_⟩
  · rw [step, ← entry]
    exact idle
  · rw [st, txn, hst]
  · rw [step]
    exact moved.nv.trans nv

/-- The last cleanup step frees the slot. -/
theorem cleanupEntry_frees (hst : (txnOf k s).st = .aborting) (hdone : (txnOf k s).staged.length ≤ (txnOf k s).settled) :
    ∃ d, exec (.cleanupEntry k) s = .next d ∧ (txnOf k d).st = .free ∧ d.nv = s.nv ∧ d.fp = s.fp := by
  have txn := cisternServe_apart reqWriteBack 4 s (txnOf k) (fun _ _ _ _ => rfl)
  have nv := cisternServe_apart reqWriteBack 4 s State.nv (fun _ _ _ _ => rfl)
  have fp := cisternServe_apart reqWriteBack 4 s State.fp (fun _ _ _ _ => rfl)
  have row := cleanupEntry_of_aborting hrun hst
  generalize cisternServe reqWriteBack 4 s = b at txn nv fp row
  have none_ : (txnOf k b).staged[(txnOf k b).settled]? = none := by
    rw [txn]
    exact List.getElem?_eq_none hdone
  have step : stepTxn k cleanupChange b = onTxn k (fun t => { ({} : Txn) with failed := t.failed }) b := by
    have behind : (txnOf k b).staged.length ≤ (txnOf k b).settled := by rw [txn]; exact hdone
    simp only [stepTxn, none_, behind, if_true]
  refine ⟨_, row, ?_, ?_, ?_⟩
  · rw [step, txnOf_onTxn_same]
  · rw [step]
    exact nv
  · rw [step]
    exact fp

end rows

/-- Settles O46: the row of an armed instant finds the commit made by the passing of time; a step is its change's effect
between the turn at the cistern controller and the books of the slot. -/
theorem transactionEvents : Obligations.TransactionEvents := by
  constructor
  · intro dt k s a hrun
    refine ⟨fun hst hdue hing hegr hothers => ?_, txnArmedInstant_waits k, fun hnone hst hnew hdue => ⟨fun hmore => ?_, fun hno => ?_⟩⟩
    · refine ⟨_, txnArmedInstant_commits k hst hdue hing hegr hothers, ?_, ?_, ?_, fun hepoch => ?_, commitTxn_epoch_spec⟩
      · rw [txnOf_commitTxn, if_pos rfl]
      · rw [txnOf_commitTxn, if_pos rfl]
      · rw [txnOf_commitTxn, if_pos rfl]
      · rw [commitTxn_of_noEpoch hepoch]
        exact ⟨rfl, rfl⟩
    · rw [settlingStart_of_due k hrun hnone hst hnew hdue, if_pos hmore]
    · rw [settlingStart_of_due k hrun hnone hst hnew hdue, hno]
      exact ⟨_, rfl, congrArg Txn.st (txnOf_onTxn_same k _ a), rfl, rfl⟩
  · intro k i s hrun t e
    refine ⟨fun hst hset => ⟨fun hat hb htx ha => ?_, settleEntry_deletes hrun hst hset⟩,
      fun hst => ⟨fun hat hb htx ha => ?_, cleanupEntry_frees hrun hst⟩⟩
    · obtain ⟨ch, hch, at_⟩ : ∃ ch, (ch = .control i ∨ ch = .add i) ∧ t.staged[t.settled]? = some ch :=
        hat.elim (fun h => ⟨_, .inl rfl, h⟩) (fun h => ⟨_, .inr rfl, h⟩)
      obtain ⟨d, row, entry, st, nv, pair⟩ := settleEntry_activates hrun hst hset hch at_ hb htx ha
      exact ⟨d, row, entry, st, nv, fun hpub hctl => pair hpub (Option.some.inj (at_.symm.trans hctl))⟩
    · obtain ⟨ch, hch, at_⟩ : ∃ ch, (ch = .control i ∨ ch = .delete i false) ∧ t.staged[t.settled]? = some ch :=
        hat.elim (fun h => ⟨_, .inl rfl, h⟩) (fun h => ⟨_, .inr rfl, h⟩)
      exact cleanupEntry_idles hrun hst hch at_ hb htx ha

end Sys2Proof.Claim
end

section
/-! The pumps at their instants: known-answer rounds, the rotation, the re-mask sweep and the reseeds (R146, R162, R165, R166,
R171, R175, R176). -/
namespace Sys2Proof.Claim
open Sys2Proof.Machine

/-! ## What work on frames leaves of the pumps (R147, R164, R176) -/

/-- What a pump's self-tests have settled of it, and when the next is due. -/
def katBooks (x : Pump) : Bool × Nat × Nat × Nat × Bool := (x.failed, x.katFails, x.katPasses, x.katAt, x.katNow)

/-- No pump's books of self-tests change. -/
def BooksKept (s u : State) : Prop := ∀ q, katBooks (pump q u) = katBooks (pump q s)

theorem BooksKept.refl (s : State) : BooksKept s s := fun _ => rfl

theorem BooksKept.trans {s u v : State} (h : BooksKept s u) (k : BooksKept u v) : BooksKept s v := fun q => (k q).trans (h q)

theorem BooksKept.foldl {α : Type} {f : State → α → State} (h : ∀ s x, BooksKept s (f s x)) (l : List α) (s : State) :
    BooksKept s (l.foldl f s) := by
  induction l generalizing s with
  | nil => exact .refl s
  | cons x l ih => exact (h s x).trans (ih _)

theorem BooksKept.of_pumps {s u : State} (h : u.pu.pumps = s.pu.pumps) : BooksKept s u :=
  fun q => congrArg (fun m : SMap Pump => katBooks (smGet {} m q)) h

theorem BooksKept.of_pu {s u : State} (h : u.pu = s.pu) : BooksKept s u := .of_pumps (congrArg Pu.pumps h)

/-- A change of one pump beside those books. -/
theorem booksKept_onPump (p : Nat) {f : Pump → Pump} (hf : ∀ x, katBooks (f x) = katBooks x) (s : State) : BooksKept s (onPump p f s) := by
  intro q
  rw [pump_onPump]
  split
  next hq => rw [hf, hq]
  next => rfl

theorem booksKept_drainNotice (i : Nat) (s : State) : BooksKept s (drainNotice i s) := by
  obtain ⟨l, r, d, -, h, -⟩ := drainNotice_names i s
  rw [h]
  exact .of_pumps rfl

theorem booksKept_drainSlot (i : Nat) (s : State) : BooksKept s (drainSlot i s) := by
  unfold drainSlot
  split
  · exact booksKept_drainNotice i _
  · exact .refl s

theorem booksKept_takeSpare (i : Nat) (s : State) : BooksKept s (takeSpare i s) := by
  unfold takeSpare
  split
  · exact .of_pumps rfl
  · exact .refl s

/-- The books of a row found bad, and its event (R166). -/
def badRowNoted (i : Nat) (s : State) : State :=
  let a := onKslot i (fun k => { k with drainBad := true }) s
  raise 72 [i] (onPu (fun x => { x with badRows := if x.badRows.contains (rowNo i a) then x.badRows else x.badRows ++ [rowNo i a] }) a)

theorem badRowFound_eq (i : Nat) (s : State) : badRowFound i s =
    if (kslot i (badRowNoted i s)).state = 0 && (kslot i (badRowNoted i s)).ref = 0 then takeSpare i (badRowNoted i s)
    else drainSlot i (badRowNoted i s) := rfl

theorem kslot_badRowNoted (i : Nat) (s : State) : kslot i (badRowNoted i s) = { kslot i s with drainBad := true } := by
  have own := kslot_onKslot i i (fun k => { k with drainBad := true }) s
  rw [if_pos rfl] at own
  rw [badRowNoted, kslot, raise_se]
  exact own

theorem booksKept_badRowFound (i : Nat) (s : State) : BooksKept s (badRowFound i s) := by
  have noted : BooksKept s (badRowNoted i s) := .of_pumps (by rw [badRowNoted, raise_pu]; rfl)
  rw [badRowFound_eq]
  split
  · exact noted.trans (booksKept_takeSpare i _)
  · exact noted.trans (booksKept_drainSlot i _)

/-! Completions and ends of frames. -/

theorem ticketFreed_pu (q d : Nat) (s : State) : (ticketFreed q d s).pu = s.pu := by rw [ticketFreed, returning_pu, onFp_pu]

theorem completionWritten_pu (q : Nat) (c : TxComp) (rest : List (Nat × Option TxComp)) (s : State) :
    (completionWritten q c rest s).pu = s.pu := by simp [completionWritten, onTxq]

theorem txInterrupted_pu (x : TxQ) (s : State) : (txInterrupted x s).pu = s.pu := by
  unfold txInterrupted
  split
  · rfl
  · exact (heard_msix _ s).told.pu

theorem flushTx_pu (q n : Nat) (s : State) : (flushTx q n s).pu = s.pu := by
  induction n generalizing s with
  | zero => rfl
  | succ n ih =>
    unfold flushTx
    simp only
    split
    next d c rest _ =>
      split
      · rfl
      · have completed : (txInterrupted (txqOf q s) (ticketFreed q d (completionWritten q c rest s))).pu = s.pu := by
          rw [txInterrupted_pu, ticketFreed_pu, completionWritten_pu]
        exact (ih _).trans completed
    next => rfl

theorem completeTx_pu (q : Nat) (c : TxComp) (s : State) : (completeTx q c s).pu = s.pu := by
  unfold completeTx
  simp only
  rw [flushTx_pu]
  split
  · rfl
  · exact ticketFreed_pu q c.desc s

theorem booksKept_refDown (i : Nat) (s : State) : BooksKept s (refDown i s) := booksKept_drainNotice i _

theorem booksKept_onEgr (t : Nat) (f : Egr → Egr) (s : State) : BooksKept s (onEgr t f s) := .of_pu rfl

theorem booksKept_refuseEgr (t : Nat) (st : TxStatus) (s : State) : BooksKept s (refuseEgr t st s) := by
  have entry (i : Nat) (f : Entry → Entry) (u : State) : BooksKept u (dataEntry i f u) := .of_pu (dataEntry_pu ..)
  unfold refuseEgr
  split
  next => exact .refl s
  next x _ =>
    refine (BooksKept.trans ?_ (booksKept_onEgr t _ _)).trans (.of_pu (completeTx_pu _ _ _))
    cases x.entry <;> cases x.slot
    · exact .refl s
    · exact booksKept_refDown _ s
    · exact entry _ _ s
    · exact (entry _ _ s).trans (booksKept_refDown _ _)

theorem applyTimeCheck_pu (t : Nat) (s : State) : (applyTimeCheck t s).pu = s.pu := by
  unfold applyTimeCheck
  split
  next => rfl
  next =>
    split
    · simp only
      split
      next => rfl
      next =>
        split
        · rfl
        · rfl
        · rfl
        · exact dataEntry_pu ..
        · exact dataEntry_pu ..
    · rfl

theorem booksKept_onIng (t : Nat) (f : Ing → Ing) (s : State) : BooksKept s (onIng t f s) := .of_pu rfl

theorem booksKept_endWith (t : Nat) (c : Code) (s : State) : BooksKept s (endWith t c s) :=
  (booksKept_onIng t _ s).trans (.of_pu (applyTimeCheck_pu t (setDone t c s)))

/-! Jobs. -/

theorem booksKept_startJob (g : List Nat) (w : Nat) (s : State) : BooksKept s (startJob g w s) :=
  .foldl (fun u p => booksKept_onPump p (f := fun x => { x with work := x.work + w, jobs := x.jobs + 1 }) (fun _ => rfl) u) g s

theorem booksKept_latchRow {i : Nat} {g : List Nat} {s u : State} {l : List Latch} (h : latchRow i g s = (l, u)) : BooksKept s u := by
  have lanes (x : List Latch × State) : BooksKept x.2 (g.foldl (laneLatched i) x).2 := by
    clear h
    induction g generalizing x with
    | nil => exact .refl _
    | cons p g ih => exact (booksKept_onPump p (f := fun y => { y with gen := Config.maskNext y.gen }) (fun _ => rfl) x.2).trans (ih _)
  have all := lanes ([], s)
  rw [← latchRow_foldl, h] at all
  exact all

theorem booksKept_dispatchIng (t : Nat) (s : State) : BooksKept s (dispatchIng t s) := by
  have ends := booksKept_endWith t .noKey s
  unfold dispatchIng
  split
  next => exact .refl s
  next =>
    split
    next =>
      split
      next => exact ends
      next =>
        split
        next => exact .refl s
        next =>
          split
          next => exact ends.trans (booksKept_badRowFound _ _)
          next =>
            extract_lets w
            split
            next hl => exact (booksKept_latchRow hl).trans ((booksKept_onIng t _ _).trans (booksKept_startJob _ _ _))
    next => exact .refl s

theorem booksKept_dispatchEgr (t : Nat) (s : State) : BooksKept s (dispatchEgr t s) := by
  have refused := booksKept_refuseEgr t .noKey s
  unfold dispatchEgr
  split
  next => exact .refl s
  next =>
    split
    next =>
      split
      next => exact refused
      next =>
        split
        next => exact booksKept_onEgr t _ s
        next =>
          split
          next => exact refused.trans (booksKept_badRowFound _ _)
          next =>
            extract_lets w
            split
            next hl => exact ((booksKept_latchRow hl).trans (booksKept_startJob _ _ _)).trans (booksKept_onEgr t _ _)
    next => exact .refl s

/-- Jobs are given out beside what the self-tests have settled. -/
theorem booksKept_dispatchWaiting (s : State) : BooksKept s (dispatchWaiting s) :=
  (BooksKept.foldl (fun u _ => booksKept_dispatchIng _ u) _ s).trans (.foldl (fun u _ => booksKept_dispatchEgr _ u) _ _)

theorem dispatchWaiting_pend {n : Nat} {s : State} (h : s.ev.pend.getLsbD n = true) : (dispatchWaiting s).ev.pend.getLsbD n = true := by
  obtain ⟨t, ht⟩ := exists_freshTicket s
  exact (undisturbed_dispatchWaiting (t := t) (fun y hy he => absurd he (ht y hy))).pend n h

/-! ## A known-answer round (R175, R176) -/

section kat
variable {p : Nat} {s : State}

theorem katDiff_of_rom {k : Nat} (h : smFind s.pu.testRows k = none) : katDiff k s = 0 := by simp [katDiff, h]

/-- Over the ROM's test rows a round passes just when no result bears an error. -/
theorem katPass_of_rom (h : ∀ k, smFind s.pu.testRows k = none) (err : BitVec 384) : katPass err s = decide (err = 0) := by
  have results : katPass err s = true ↔ err = 0 := by
    simp only [katPass, katDiff_of_rom (h _), List.all_cons, List.all_nil, Bool.and_true, Bool.and_eq_true, beq_iff_eq]
    constructor
    · rintro ⟨h0, h1, h2⟩
      bv_omega
    · rintro rfl
      simp
  rw [Bool.eq_iff_iff, results, decide_eq_true_iff]

theorem declareFailed_pump (q : Nat) : ∃ b, pump q (declareFailed p s) =
    { pump q s with failed := (pump q s).failed || decide (q = p), standby := b } := by
  unfold declareFailed
  split
  next hfailed =>
    refine ⟨(pump q s).standby, ?_⟩
    by_cases hq : q = p
    · subst hq
      rw [hfailed, Bool.true_or, ← hfailed]
    · simp [hq]
  next =>
    obtain ⟨b, hb⟩ := pump_setStandby q (raise 75 [p] (onPump p (fun x => { x with failed := true }) s))
    have raised : pump q (raise 75 [p] (onPump p (fun x => { x with failed := true }) s)) =
        if q = p then { pump p s with failed := true } else pump q s := by
      rw [pump, raise_pu]
      exact pump_onPump p q _ s
    refine ⟨b, ?_⟩
    rw [hb, raised]
    by_cases hq : q = p
    · subst hq
      simp
    · simp [hq]

/-- The books of a failed round, and its event. -/
def roundFailed (p : Nat) (s : State) : State := raise 74 [p] (onPump p (fun x => { x with katFails := x.katFails + 1, katPasses := 0 }) s)

theorem pump_roundFailed (q : Nat) : pump q (roundFailed p s) =
    if q = p then { pump p s with katFails := (pump p s).katFails + 1, katPasses := 0 } else pump q s := by
  rw [roundFailed, pump, raise_pu]
  exact pump_onPump p q _ s

theorem roundFailed_pend : (roundFailed p s).ev.pend.getLsbD 74 = true := raise_pend [p] _ (by decide) (by decide)

theorem katRound_of_fail : katRound p false s =
    if 2 ≤ (pump p (roundFailed p s)).katFails then declareFailed p (roundFailed p s) else roundFailed p s := by
  unfold katRound
  rw [if_neg Bool.false_ne_true]
  extract_lets a
  have noted : a = roundFailed p s := rfl
  clear_value a
  subst noted
  rfl

/-- A failed round counts, and the second in a row declares the pump failed. -/
theorem katBooks_of_fail (q : Nat) : katBooks (pump q (katRound p false s)) = if q = p then
    ((pump p s).failed || decide (1 ≤ (pump p s).katFails), (pump p s).katFails + 1, 0, (pump p s).katAt, (pump p s).katNow)
    else katBooks (pump q s) := by
  have own := pump_roundFailed (p := p) (s := s) p
  rw [if_pos rfl] at own
  rw [katRound_of_fail]
  by_cases htwo : 2 ≤ (pump p (roundFailed p s)).katFails
  · have again : 1 ≤ (pump p s).katFails := by
      rw [own] at htwo
      exact Nat.le_of_succ_le_succ htwo
    obtain ⟨b, hb⟩ := declareFailed_pump (p := p) (s := roundFailed p s) q
    rw [if_pos htwo, hb, pump_roundFailed]
    by_cases hq : q = p
    · simp [hq, katBooks, again]
    · simp [hq, katBooks]
  · have first : ¬ 1 ≤ (pump p s).katFails := by
      rw [own] at htwo
      exact fun h => htwo (Nat.succ_le_succ h)
    rw [if_neg htwo, pump_roundFailed]
    by_cases hq : q = p
    · simp [hq, katBooks, first]
    · simp [hq]

theorem katBooks_of_pass (q : Nat) : katBooks (pump q (katRound p true s)) = if q = p then
    ((pump p s).failed, 0, (pump p s).katPasses + 1, (pump p s).katAt, (pump p s).katNow) else katBooks (pump q s) := by
  have passed : katRound p true s = onPump p (fun x => { x with katFails := 0, katPasses := x.katPasses + 1 }) s := rfl
  rw [passed, pump_onPump]
  split <;> rfl

theorem katRound_pend : (katRound p false s).ev.pend.getLsbD 74 = true := by
  rw [katRound_of_fail]
  split
  · exact (undisturbed_declareFailed (t := 0) (roundFailed p s) p).pend 74 roundFailed_pend
  · exact roundFailed_pend

end kat

section rows
variable {dt : Nat} {s : State}

/-- The pump's next round is set, and the one asked for begun. -/
def roundBegun (p : Nat) (s : State) : State := onPump p (fun x => { x with katAt := s.clk.now + msTicks 1, katNow := false }) s

theorem pump_roundBegun (p q : Nat) (s : State) : pump q (roundBegun p s) =
    if q = p then { pump p s with katAt := s.clk.now + 250000, katNow := false } else pump q s := pump_onPump p q _ s

/-- The outcome of a round: its pump's books, and no other's. -/
def roundDone (p : Nat) (pass : Bool) (s : State) : State := dispatchWaiting (katRound p pass (roundBegun p s))

theorem katBooks_roundDone_pass (p : Nat) (s : State) : katBooks (pump p (roundDone p true s)) =
    ((pump p s).failed, 0, (pump p s).katPasses + 1, s.clk.now + 250000, false) := by
  rw [roundDone, booksKept_dispatchWaiting, katBooks_of_pass, if_pos rfl, pump_roundBegun, if_pos rfl]

theorem katBooks_roundDone_fail (p : Nat) (s : State) : katBooks (pump p (roundDone p false s)) =
    ((pump p s).failed || decide (1 ≤ (pump p s).katFails), (pump p s).katFails + 1, 0, s.clk.now + 250000, false) := by
  rw [roundDone, booksKept_dispatchWaiting, katBooks_of_fail, if_pos rfl, pump_roundBegun, if_pos rfl]

theorem roundDone_fail_pend (p : Nat) (s : State) : (roundDone p false s).ev.pend.getLsbD 74 = true := by
  rw [roundDone]
  exact dispatchWaiting_pend katRound_pend

theorem katBooks_roundDone_other {p q : Nat} (h : q ≠ p) (pass : Bool) (s : State) :
    katBooks (pump q (roundDone p pass s)) = katBooks (pump q s) := by
  rw [roundDone, booksKept_dispatchWaiting]
  cases pass with
  | true => rw [katBooks_of_pass, if_neg h, pump_roundBegun, if_neg h]
  | false => rw [katBooks_of_fail, if_neg h, pump_roundBegun, if_neg h]

theorem knownAnswerTest_of_due (p : Fin 4) (err : BitVec 384) (hrun : running (pass dt s) = true)
    (hdue : (pump p (pass dt s)).katNow = true ∨ (pump p (pass dt s)).katAt ≤ (pass dt s).clk.now)
    (hrows : ∀ k, smFind (pass dt s).pu.testRows k = none) : exec (.knownAnswerTest dt p err) s =
      .next (roundDone p (decide (err = 0)) (pass dt s)) := by
  show execKnownAnswerTest dt p err s = _
  simp only [execKnownAnswerTest]
  generalize pass dt s = a at hrun hdue hrows ⊢
  have due : (running a && ((pump p a).katNow || decide ((pump p a).katAt ≤ a.clk.now))) = true := by simpa [hrun] using hdue
  have rom : katPass err (roundBegun p a) = decide (err = 0) := katPass_of_rom (s := roundBegun p a) hrows err
  rw [if_pos due, ← rom]
  rfl

theorem knownAnswerTest_spec (p : Fin 4) (err : BitVec 384) (hrun : running (pass dt s) = true)
    (hdue : (pump p (pass dt s)).katNow = true ∨ (pump p (pass dt s)).katAt ≤ (pass dt s).clk.now)
    (hrows : ∀ k, smFind (pass dt s).pu.testRows k = none) : ∃ d, exec (.knownAnswerTest dt p err) s = .next d ∧
      (pump p d).katAt = (pass dt s).clk.now + 250000 ∧ (pump p d).katNow = false ∧
      (∀ j : Fin 4, j ≠ p → (pump j d).failed = (pump j (pass dt s)).failed) ∧
      (err = 0 → (pump p d).katFails = 0 ∧ (pump p d).katPasses = (pump p (pass dt s)).katPasses + 1 ∧
        (pump p d).failed = (pump p (pass dt s)).failed) ∧
      (err ≠ 0 → (pump p d).katFails = (pump p (pass dt s)).katFails + 1 ∧ (pump p d).katPasses = 0 ∧ d.ev.pend.getLsbD 74 = true ∧
        (pump p d).failed = ((pump p (pass dt s)).failed || decide (1 ≤ (pump p (pass dt s)).katFails))) := by
  have row := knownAnswerTest_of_due p err hrun hdue hrows
  generalize pass dt s = a at *
  have others (j : Fin 4) (hj : j ≠ p) : (pump j (roundDone p (decide (err = 0)) a)).failed = (pump j a).failed :=
    congrArg Prod.fst (katBooks_roundDone_other (fun h => hj (Fin.ext h)) _ a)
  by_cases herr : err = 0
  · have books := katBooks_roundDone_pass p a
    subst herr
    rw [decide_eq_true rfl] at row others
    simp only [katBooks, Prod.mk.injEq] at books
    obtain ⟨failed, fails, passes, at_, now⟩ := books
    exact ⟨roundDone p true a, row, at_, now, others, fun _ => ⟨fails, passes, failed⟩, fun h => absurd rfl h⟩
  · have books := katBooks_roundDone_fail p a
    rw [decide_eq_false herr] at row others
    simp only [katBooks, Prod.mk.injEq] at books
    obtain ⟨failed, fails, passes, at_, now⟩ := books
    have raised := roundDone_fail_pend p a
    exact ⟨roundDone p false a, row, at_, now, others, fun h => absurd h herr, fun _ => ⟨fails, passes, raised, failed⟩⟩

theorem knownAnswerTest_waits (p : Fin 4) (err : BitVec 384) (hnew : (pump p (pass dt s)).katNow = false)
    (hearly : (pass dt s).clk.now < (pump p (pass dt s)).katAt) : exec (.knownAnswerTest dt p err) s = .next (pass dt s) := by
  have early : ¬ (pump p (pass dt s)).katAt ≤ (pass dt s).clk.now := by omega
  show execKnownAnswerTest dt p err s = _
  simp [execKnownAnswerTest, hnew, early]
  rfl

/-! ## The rotation (R146) -/

theorem pairingRotation_of_due (hrun : running (pass dt s) = true) (hdue : (pass dt s).pu.rotAt ≤ (pass dt s).clk.now) :
    exec (.pairingRotation dt) s = .next (rotatePairs (onPu (fun p => { p with rotAt := (pass dt s).clk.now + 25000000 }) (pass dt s))) := by
  show execPairingRotation dt s = _
  simp only [execPairingRotation, hrun, hdue, Bool.not_true, Bool.false_eq_true, if_false, if_true]
  rfl

theorem pairingRotation_waits (hearly : (pass dt s).clk.now < (pass dt s).pu.rotAt) : exec (.pairingRotation dt) s = .next (pass dt s) := by
  have early : ¬ (pass dt s).pu.rotAt ≤ (pass dt s).clk.now := by omega
  show execPairingRotation dt s = _
  simp [execPairingRotation, early]
  rfl

theorem rotatePairs_spec (s : State) : ∃ m, rotatePairs s =
    onPu (fun x => { x with rot := if failedPumps s = [] then (x.rot + 1) % 3 else x.rot, mism := m }) s := by
  unfold rotatePairs
  by_cases h : failedPumps s = []
  · exact ⟨[] :: s.pu.mism.take 2, by simp only [h, if_true]; rfl⟩
  · exact ⟨[] :: s.pu.mism.take 2, by simp only [h, if_false]; rfl⟩

theorem pairingRotation_spec (hrun : running (pass dt s) = true) (hdue : (pass dt s).pu.rotAt ≤ (pass dt s).clk.now) :
    ∃ d, exec (.pairingRotation dt) s = .next d ∧ d.pu.rotAt = (pass dt s).clk.now + 25000000 ∧
      d.pu.rot = (if failedPumps (pass dt s) = [] then ((pass dt s).pu.rot + 1) % 3 else (pass dt s).pu.rot) ∧
      d.pu.rows = (pass dt s).pu.rows ∧ d.se = (pass dt s).se := by
  have row := pairingRotation_of_due hrun hdue
  generalize pass dt s = a at *
  obtain ⟨m, rotated⟩ := rotatePairs_spec (onPu (fun p => { p with rotAt := a.clk.now + 25000000 }) a)
  exact ⟨_, row, by rw [rotated]; rfl, by rw [rotated]; rfl, by rw [rotated]; rfl, by rw [rotated]; rfl⟩

/-! ## The re-mask sweep (R162, R165, R166) -/

theorem remaskSweep_of_due (e : MemErr) (hrun : running (pass dt s) = true) (hdue : (pass dt s).pu.sweepAt + 26 ≤ (pass dt s).clk.now) :
    exec (.remaskSweep dt e) s = .next (sweepRow e (onPu (fun p => { p with sweepAt := (pass dt s).clk.now }) (pass dt s))) := by
  have due : (pass dt s).pu.sweepAt + pumpTicks 64 ≤ (pass dt s).clk.now := hdue
  show execRemaskSweep dt e s = _
  simp only [execRemaskSweep, hrun, due, Bool.not_true, Bool.false_eq_true, if_false, if_true]
  rfl

/-- A row takes a fresh mask on both of its shares. -/
def remasked (r : Nat) (m : BitVec 256) (s : State) : State :=
  onPu (fun x => { x with rows := smMod {} x.rows r (fun w => { share0 := w.share0 ^^^ m, share1 := w.share1 ^^^ m }) }) s

/-- In the key the mask cancels (R162). -/
theorem rowKey_remasked (r : Nat) (m : BitVec 256) (j : Nat) (s : State) : rowKey j (remasked r m s) = rowKey j s := by
  have number : rowNo j (remasked r m s) = rowNo j s := rfl
  unfold rowKey rowOf
  rw [number]
  simp only [remasked, onPu_pu, smGet_smMod]
  split
  next h =>
    rw [h]
    generalize smGet {} s.pu.rows r = w
    show (w.share0 ^^^ m) ^^^ (w.share1 ^^^ m) = _
    rw [BitVec.xor_assoc, ← BitVec.xor_assoc m, BitVec.xor_comm m, BitVec.xor_assoc, BitVec.xor_self, BitVec.xor_zero]
  next => rfl

/-- The sweep moves on by one row. -/
def sweptOn (s : State) : State := onPu (fun x => { x with sweep := (x.sweep + 1) % 32836 }) s

theorem slotOfRow_onPu (r : Nat) (f : Pu → Pu) (s : State) : slotOfRow r (onPu f s) = slotOfRow r s := rfl

theorem sweepRow_clean (s : State) : ∃ m, sweepRow .clean s = (if s.pu.sweep < 32832 then remasked s.pu.sweep m (draw 256 (sweptOn s)).2
    else (draw 256 (sweptOn s)).2) := by
  refine ⟨BitVec.ofNat 256 (draw 256 (sweptOn s)).1, ?_⟩
  unfold sweepRow sweptOn
  simp only [slotOfRow_onPu]
  cases slotOfRow s.pu.sweep s <;> rfl

/-- What the row of a slot holds depends on the slots and on the rows. -/
theorem rowKey_of_rows {t : State} (hse : t.se = s.se) (hrows : t.pu.rows = s.pu.rows) (j : Nat) : rowKey j t = rowKey j s := by
  simp only [rowKey, rowOf, rowNo, kslot, hse, hrows]

theorem remasked_sweep (r : Nat) (m : BitVec 256) (s : State) : (remasked r m s).pu.sweep = s.pu.sweep := rfl
theorem remasked_free (r : Nat) (m : BitVec 256) (s : State) : (remasked r m s).free = s.free := rfl
theorem remasked_se (r : Nat) (m : BitVec 256) (s : State) : (remasked r m s).se = s.se := rfl

/-- A clean row is re-masked: no key changes, and the sweep moves on. -/
theorem sweepRow_clean_spec (s : State) : (∀ j, rowKey j (sweepRow .clean s) = rowKey j s) ∧
    (sweepRow .clean s).pu.sweep = (s.pu.sweep + 1) % 32836 ∧ (sweepRow .clean s).free = s.free + 1 ∧ (sweepRow .clean s).se = s.se := by
  obtain ⟨m, swept⟩ := sweepRow_clean s
  rw [swept]
  have key (j : Nat) : rowKey j (draw 256 (sweptOn s)).2 = rowKey j s := rowKey_of_rows rfl (congrArg Pu.rows (draw_pu ..)) j
  have sweep : (draw 256 (sweptOn s)).2.pu.sweep = (s.pu.sweep + 1) % 32836 := congrArg Pu.sweep (draw_pu ..)
  have free : (draw 256 (sweptOn s)).2.free = s.free + 1 := rfl
  have se : (draw 256 (sweptOn s)).2.se = s.se := rfl
  generalize (draw 256 (sweptOn s)).2 = b at *
  split
  · exact ⟨fun j => (rowKey_remasked s.pu.sweep m j b).trans (key j), (remasked_sweep ..).trans sweep, (remasked_free ..).trans free,
      (remasked_se ..).trans se⟩
  · exact ⟨key, sweep, free, se⟩

theorem sweepRow_bad {i : Nat} (hat : s.pu.sweep = i) (h : slotOfRow i s = some i) :
    sweepRow .uncorrectable s = badRowFound i (sweptOn s) := by
  unfold sweepRow sweptOn
  simp only [slotOfRow_onPu, hat, h]

theorem kslot_drainSlot_of_active {i : Nat} (h : (kslot i s).state = 1) :
    kslot i (drainSlot i s) = { kslot i s with state := 2, drainAt := some s.clk.now } := by
  have moved := kslot_onKslot i i (fun k => { k with state := 2, drainAt := some s.clk.now }) s
  rw [if_pos rfl] at moved
  obtain ⟨l, r, d, -, drains, -⟩ := drainSlot_of_active h
  rw [drains]
  exact moved

/-- An ACTIVE slot whose row is found bad drains, and the event stands (R166). -/
theorem badRowFound_of_active {i : Nat} (h : (kslot i s).state = 1) : (kslot i (badRowFound i s)).drainBad = true ∧
    (badRowFound i s).ev.pend.getLsbD 72 = true ∧ (kslot i (badRowFound i s)).state = 2 := by
  have noted := kslot_badRowNoted i s
  have active : (kslot i (badRowNoted i s)).state = 1 := by rw [noted, h]
  have raised : (badRowNoted i s).ev.pend.getLsbD 72 = true := raise_pend [i] _ (by decide) (by decide)
  have found : badRowFound i s = drainSlot i (badRowNoted i s) := by rw [badRowFound_eq, if_neg (by simp [active])]
  rw [found, kslot_drainSlot_of_active active, noted]
  exact ⟨rfl, (undisturbed_drainSlot (t := 0) i _).pend 72 raised, rfl⟩

theorem slotOfRow_of_own {i : Nat} (hlow : i < 32768) (hspare : (kslot i s).spare = none) : slotOfRow i s = some i := by
  simp [slotOfRow, hlow, hspare]

theorem remaskSweep_clean_spec (hrun : running (pass dt s) = true) (hdue : (pass dt s).pu.sweepAt + 26 ≤ (pass dt s).clk.now) :
    ∃ d, exec (.remaskSweep dt .clean) s = .next d ∧ (∀ j, rowKey j d = rowKey j (pass dt s)) ∧
      d.pu.sweep = ((pass dt s).pu.sweep + 1) % 32836 ∧ d.free = (pass dt s).free + 1 ∧ d.se = (pass dt s).se := by
  have row := remaskSweep_of_due .clean hrun hdue
  generalize pass dt s = a at *
  obtain ⟨key, sweep, free, se⟩ := sweepRow_clean_spec (onPu (fun p => { p with sweepAt := a.clk.now }) a)
  exact ⟨_, row, key, sweep, free, se⟩

theorem remaskSweep_bad_spec (hrun : running (pass dt s) = true) (hdue : (pass dt s).pu.sweepAt + 26 ≤ (pass dt s).clk.now)
    (hlow : (pass dt s).pu.sweep < 32768) (hspare : (kslot (pass dt s).pu.sweep (pass dt s)).spare = none)
    (hactive : (kslot (pass dt s).pu.sweep (pass dt s)).state = 1) :
    ∃ d, exec (.remaskSweep dt .uncorrectable) s = .next d ∧ (kslot (pass dt s).pu.sweep d).drainBad = true ∧
      d.ev.pend.getLsbD 72 = true ∧ (kslot (pass dt s).pu.sweep d).state = 2 := by
  have row := remaskSweep_of_due .uncorrectable hrun hdue
  generalize pass dt s = a at *
  have own := (slotOfRow_onPu a.pu.sweep (fun p => { p with sweepAt := a.clk.now }) a).trans (slotOfRow_of_own hlow hspare)
  have bad := sweepRow_bad (s := onPu (fun p => { p with sweepAt := a.clk.now }) a) rfl own
  rw [bad] at row
  exact ⟨_, row, badRowFound_of_active (s := sweptOn (onPu (fun p => { p with sweepAt := a.clk.now }) a)) hactive⟩

/-! ## Reseeds (R171) -/

theorem maskReseed_of_due (p : Fin 4) (hrun : running (advance dt s) = true)
    (hdue : (pump p (advance dt s)).reseedAt + 419431 ≤ (advance dt s).clk.now) (hfed : (advance dt s).nw.lost = false)
    (hup : riserUp (advance dt s) = true) {v : BitVec 256} {r : List (BitVec 256)} (hpool : (advance dt s).nw.pool = v :: r) :
    exec (.maskReseed dt p) s = .next (onPump p (fun x => { x with gen := v, reseedAt := (poolTurn p (advance dt s)).clk.now, overdue := false })
      (onNw (fun n => { n with pool := r }) (poolTurn p (advance dt s)))) := by
  have due : (pump p (advance dt s)).reseedAt + reseedTicks ≤ (advance dt s).clk.now := hdue
  have pool : (poolTurn p (advance dt s)).nw.pool = v :: r := by rw [poolTurn, inTurn_parts]; exact hpool
  show execMaskReseed dt p s = _
  simp only [execMaskReseed, hrun, due, hfed, hup, Bool.not_true, Bool.false_eq_true, if_false, decide_true, Bool.not_false, Bool.and_self,
    if_true, takePool, pool]
  rfl

theorem maskReseedOverdue_of_due (p : Fin 4) (hrun : running (advance dt s) = true)
    (hdue : (pump p (advance dt s)).reseedAt + 419431 + 6710887 ≤ (advance dt s).clk.now) (hnew : (pump p (advance dt s)).overdue = false) :
    exec (.maskReseedOverdue dt p) s = .next (raise 73 [p] (onPump p (fun x => { x with overdue := true }) (advance dt s))) := by
  have due : (pump p (advance dt s)).reseedAt + reseedTicks + overdueTicks ≤ (advance dt s).clk.now := hdue
  show execMaskReseedOverdue dt p s = _
  simp only [execMaskReseedOverdue, hrun, due, hnew, Bool.not_true, Bool.false_eq_true, if_false, decide_true, Bool.not_false, Bool.and_self,
    if_true]
  rfl

theorem maskReseed_spec (p : Fin 4) (hrun : running (advance dt s) = true)
    (hdue : (pump p (advance dt s)).reseedAt + 419431 ≤ (advance dt s).clk.now) (hfed : (advance dt s).nw.lost = false)
    (hup : riserUp (advance dt s) = true) {v : BitVec 256} {r : List (BitVec 256)} (hpool : (advance dt s).nw.pool = v :: r) :
    ∃ d, exec (.maskReseed dt p) s = .next d ∧ pump p d = { pump p (advance dt s) with gen := v, reseedAt := d.clk.now, overdue := false } ∧
      d.nw = { (advance dt s).nw with pool := r } ∧ d.se = (advance dt s).se ∧ d.fp = (advance dt s).fp ∧
      (advance dt s).clk.now ≤ d.clk.now ∧ d.clk.now ≤ (advance dt s).clk.now + 1 := by
  have row := maskReseed_of_due p hrun hdue hfed hup hpool
  generalize advance dt s = a at *
  have passed : (poolTurn p a).clk.now = a.clk.now ∨ (poolTurn p a).clk.now = a.clk.now + 1 := inTurn_now turnPool 0 p a
  have parts : poolTurn p a = { a with clk := (poolTurn p a).clk, tu := { a.tu with time := (poolTurn p a).tu.time } } :=
    inTurn_parts turnPool 0 p a
  generalize poolTurn p a = b at *
  have pumped := pump_onPump p p (fun x => { x with gen := v, reseedAt := b.clk.now, overdue := false }) (onNw (fun n => { n with pool := r }) b)
  rw [if_pos rfl] at pumped
  have own : pump p (onNw (fun n => { n with pool := r }) b) = pump p a := by rw [parts]; rfl
  refine ⟨_, row, ?_, ?_, ?_, ?_, ?_, ?_⟩
  · rw [pumped, own]
    rfl
  · show { b.nw with pool := r } = _
    rw [parts]
  · show b.se = _
    rw [parts]
  · show b.fp = _
    rw [parts]
  · show a.clk.now ≤ b.clk.now
    omega
  · show b.clk.now ≤ a.clk.now + 1
    omega

theorem maskReseedOverdue_spec (p : Fin 4) (hrun : running (advance dt s) = true)
    (hdue : (pump p (advance dt s)).reseedAt + 419431 + 6710887 ≤ (advance dt s).clk.now) (hnew : (pump p (advance dt s)).overdue = false) :
    ∃ d, exec (.maskReseedOverdue dt p) s = .next d ∧ (pump p d).overdue = true ∧ d.ev.pend.getLsbD 73 = true ∧
      (pump p d).gen = (pump p (advance dt s)).gen := by
  have row := maskReseedOverdue_of_due p hrun hdue hnew
  generalize advance dt s = a at *
  have told : pump p (raise 73 [p.val] (onPump p (fun x => { x with overdue := true }) a)) = { pump p a with overdue := true } := by
    rw [pump, raise_pu]
    exact (pump_onPump p p _ a).trans (if_pos rfl)
  exact ⟨_, row, by rw [told], raise_pend [p.val] _ (by decide) (by decide), by rw [told]⟩

end rows

end Sys2Proof.Claim
end

section
/-! The pump key store: a load written, a drained slot emptied (R133, R163, R166, R168), and O44. -/
namespace Sys2Proof.Claim
open Sys2Proof.Machine

/-! ## What an answer to a waiting command leaves (R232, R380) -/

/-- The stream engine, the pumps, the slots' counts of loads and, while no applet waits, the commands stay. -/
structure KeysKept (s t : State) : Prop where
  se : t.se = s.se
  pu : t.pu = s.pu
  slotLoads : t.nv.slotLoads = s.nv.slotLoads
  cmd : NoneWaits s → t.cmd = s.cmd

theorem KeysKept.refl (s : State) : KeysKept s s := ⟨rfl, rfl, rfl, fun _ => rfl⟩

theorem KeysKept.trans {s t u : State} (h : KeysKept s t) (k : KeysKept t u) : KeysKept s u :=
  ⟨k.se.trans h.se, k.pu.trans h.pu, k.slotLoads.trans h.slotLoads, fun idle => by
    have same := h.cmd idle
    exact (k.cmd (by unfold NoneWaits; rw [same]; exact idle)).trans same⟩

theorem KeysKept.of_told {s t : State} (h : Told s t) : KeysKept s t := by
  refine ⟨h.se, h.pu, ?_, h.cmd⟩
  obtain ⟨_, _, _, _, _, _, _, _, _, rfl⟩ := h
  rfl

theorem keysKept_onMe (f : Me → Me) (s : State) : KeysKept s (onMe f s) := ⟨rfl, rfl, rfl, fun _ => rfl⟩

theorem keysKept_mailboxWrite (m : Bool) (a : Nat) (b : Bytes) (s : State) : KeysKept s (mailboxWrite m a b s) := by
  unfold mailboxWrite
  simp only
  split
  · exact keysKept_onMe _ s
  · exact (keysKept_onMe _ s).trans (.of_told (raise_told _ _ _))

theorem keysKept_mailboxPut (out : Bool) (b : Bytes) (s : State) : KeysKept s (mailboxPut out b s) := by
  have slots (l : List Nat) (at_ : Nat → Nat) (x : Nat → Bytes) (t : State) :
      KeysKept t (l.foldl (fun s i => mailboxWrite (!out) (at_ i) (x i) s) t) := by
    induction l generalizing t with
    | nil => exact .refl t
    | cons i l ih => exact (keysKept_mailboxWrite _ _ _ t).trans (ih _)
  exact ((slots _ _ _ s).trans (keysKept_mailboxWrite _ _ _ _)).trans (keysKept_mailboxWrite _ _ _ _)

theorem keysKept_sendRiser (w : Bool) (c : RChan) (q : RQueue) (b : Bytes) (s : State) : KeysKept s (sendRiser w c q b s) :=
  .of_told (sendRiser_told w c q b s)

theorem keysKept_carry (opc : Nat) (c : Call) (r : Reply) (s : State) : KeysKept s (carry opc c r s) := by
  unfold carry
  split
  · exact (((keysKept_sendRiser _ _ _ _ s).trans (keysKept_mailboxPut _ _ _)).trans (keysKept_mailboxPut _ _ _)).trans
      (keysKept_sendRiser _ _ _ _ _)
  · exact .refl s

/-- A reply on its way to the sender: through the mailbox, and over the queues of a host session. -/
def replyCarried (opc : Nat) (c : Call) (r : Reply) (s : State) : State :=
  let host : Bool := match c.via with
    | .ring _ => true
    | .spi => true
    | _ => false
  if host then cdcPass cdcReplies ((replyBytes r).length / 16)
    (cdcPass cdcRequests ((requestBytes opc c).length / 16) (carry opc c r s)) else carry opc c r s

theorem keysKept_replyCarried (opc : Nat) (c : Call) (r : Reply) (s : State) : KeysKept s (replyCarried opc c r s) := by
  have carried := keysKept_carry opc c r s
  have requested := carried.trans (.of_told (cdcPass_told cdcRequests ((requestBytes opc c).length / 16) _))
  have passed := requested.trans (.of_told (cdcPass_told cdcReplies ((replyBytes r).length / 16) _))
  unfold replyCarried
  cases c.via <;> assumption

section ends
variable (opc : Nat) (c : Call) (st : Nat) (tlvs : List Tlv) (d : State)

theorem ends_eq : ends opc c st tlvs d =
    deliver (mkReply c opc st tlvs (replyVersion c d)) (replyCarried opc c (mkReply c opc st tlvs (replyVersion c d)) d) := rfl

theorem ends_se : (ends opc c st tlvs d).se = d.se := by
  rw [ends_eq]
  generalize mkReply c opc st tlvs (replyVersion c d) = r
  obtain ⟨_, _, _, _, _, _, _, parts⟩ := deliver_handed r (replyCarried opc c r d)
  rw [parts]
  exact (keysKept_replyCarried opc c r d).se

theorem ends_pu : (ends opc c st tlvs d).pu = d.pu := by
  rw [ends_eq]
  generalize mkReply c opc st tlvs (replyVersion c d) = r
  obtain ⟨_, _, _, _, _, _, _, parts⟩ := deliver_handed r (replyCarried opc c r d)
  rw [parts]
  exact (keysKept_replyCarried opc c r d).pu

theorem ends_slotLoads : (ends opc c st tlvs d).nv.slotLoads = d.nv.slotLoads := by
  rw [ends_eq]
  generalize mkReply c opc st tlvs (replyVersion c d) = r
  obtain ⟨_, _, _, _, _, _, _, parts⟩ := deliver_handed r (replyCarried opc c r d)
  rw [parts]
  exact (keysKept_replyCarried opc c r d).slotLoads

/-- The one reply at the SPI port is the last of its list (R229). -/
theorem ends_spiReplies (hspi : c.via = .spi) (hidle : NoneWaits d) :
    (ends opc c st tlvs d).cmd.spiReplies = d.cmd.spiReplies ++ [mkReply c opc st tlvs (replyVersion c d)] := by
  rw [ends_eq]
  generalize hr : mkReply c opc st tlvs (replyVersion c d) = r
  have via : r.via = .spi := by rw [← hr]; exact hspi
  have same := (keysKept_replyCarried opc c r d).cmd hidle
  unfold deliver
  simp only [via]
  show (replyCarried opc c r d).cmd.spiReplies ++ [r] = _
  rw [same]

end ends

/-- The answer to the one command that waits ends the row over a calm device. -/
theorem calm_reply_awaited {c : Call} {opc : Nat} {w : Wait} {s : State} (howed : s.cmd.owed = [{ call := c, opcode := opc, wait := w }])
    (hcalm : Calm (onCmd (fun x => { x with owed := [] }) s)) (tlvs : List Tlv) : ∃ d, Calm d ∧ replyOk c tlvs s = d ∧ d.se = s.se ∧ d.pu = s.pu ∧
      d.nv.slotLoads = s.nv.slotLoads ∧ (c.via = .spi →
        ∃ y, d.cmd.spiReplies = s.cmd.spiReplies ++ [y] ∧ y.status = stOk ∧ y.tag = c.pkt.tag ∧ y.tlvs = tlvs) := by
  have idle : NoneWaits (onCmd (fun x => { x with owed := [] }) s) := by
    obtain ⟨-, applets, -⟩ := quiet_of_calm hcalm
    exact applets
  exact ⟨_, hcalm.ends opc c stOk tlvs, reply_awaited howed stOk tlvs, ends_se .., ends_pu .., ends_slotLoads ..,
    fun hspi => ⟨_, ends_spiReplies opc c stOk tlvs _ hspi idle, rfl, rfl, rfl⟩⟩

/-! ## Rows of the key store (R162, R166) -/

section rows
variable {s : State}

theorem takeSpare_of_good {i : Nat} (h : (kslot i s).drainBad = false) : takeSpare i s = s := by simp [takeSpare, h]

/-- Two slots share no row (R166). -/
theorem rowNo_ne {i j : Nat} (hunique : ∀ i j n, (kslot i s).spare = some n → (kslot j s).spare = some n → i = j) (hi : i < 32768)
    (hj : j < 32768) (hne : j ≠ i) : rowNo j s ≠ rowNo i s := by
  unfold rowNo
  cases hsi : (kslot i s).spare with
  | none =>
    cases hsj : (kslot j s).spare with
    | none => exact hne
    | some n => simp only; omega
  | some m =>
    cases hsj : (kslot j s).spare with
    | none => simp only; omega
    | some n =>
      intro heq
      have same : n = m := Nat.add_left_cancel heq
      exact hne (hunique j i n hsj (by rw [hsi, same]))

/-- The load of a slot whose row is good. -/
def keyStored (m : KeyMsg) (s : State) : State :=
  onNv (fun n => { n with loads := n.loads + 1, slotLoads := smSet 0 n.slotLoads m.slot (n.loads + 1) })
    (onKslot m.slot (fun k => { k with state := 1, ktype := m.ktype, keyId := m.keyId, epoch := m.epoch, notAfter := m.notAfter })
      (onPu (fun x => { x with rows := smSet {} x.rows (rowNo m.slot s) { share0 := m.share0, share1 := m.share1 } }) s))

theorem storeKey_of_good {m : KeyMsg} (h : (kslot m.slot s).drainBad = false) : storeKey m s = keyStored m s := by
  simp only [storeKey, takeSpare_of_good h]
  rfl

theorem kslot_keyStored (m : KeyMsg) (j : Nat) (s : State) : kslot j (keyStored m s) = if j = m.slot then
    { kslot m.slot s with state := 1, ktype := m.ktype, keyId := m.keyId, epoch := m.epoch, notAfter := m.notAfter } else kslot j s :=
  kslot_onKslot m.slot j _ (onPu (fun x => { x with rows := smSet {} x.rows (rowNo m.slot s) { share0 := m.share0, share1 := m.share1 } }) s)

theorem rowNo_keyStored (m : KeyMsg) (j : Nat) (s : State) : rowNo j (keyStored m s) = rowNo j s := by
  unfold rowNo
  rw [kslot_keyStored]
  by_cases hj : j = m.slot
  · rw [if_pos hj, hj]
  · rw [if_neg hj]

theorem rowOf_keyStored (m : KeyMsg) (j : Nat) (s : State) : rowOf j (keyStored m s) =
    if rowNo j s = rowNo m.slot s then { share0 := m.share0, share1 := m.share1 } else rowOf j s := by
  unfold rowOf
  rw [rowNo_keyStored]
  exact smGet_smSet ..

theorem rowKey_keyStored (m : KeyMsg) (j : Nat) (s : State) : rowKey j (keyStored m s) =
    if rowNo j s = rowNo m.slot s then m.share0 ^^^ m.share1 else rowKey j s := by
  rw [rowKey, rowOf_keyStored]
  split
  · rfl
  · rfl

theorem slotLoads_keyStored (m : KeyMsg) (s : State) : slotLoads m.slot (keyStored m s) = s.nv.loads + 1 := by
  simp [slotLoads, keyStored, onKslot]

/-- The slot is EMPTY and its row erased. -/
def slotEmptied (i : Nat) (s : State) : State :=
  onKslot i (fun k => { k with state := 0 })
    (onPu (fun x => { x with rows := smDel x.rows (rowNo i s), drained := x.drained.filter (· ≠ i) }) s)

theorem kslot_slotEmptied (i j : Nat) (s : State) : kslot j (slotEmptied i s) = if j = i then { kslot i s with state := 0 } else kslot j s :=
  kslot_onKslot i j _ (onPu (fun x => { x with rows := smDel x.rows (rowNo i s), drained := x.drained.filter (· ≠ i) }) s)

theorem emptySlot_of_good {i : Nat} (h : (kslot i s).drainBad = false) : emptySlot i s = slotEmptied i s := by
  have good : (kslot i (slotEmptied i s)).drainBad = false := by
    rw [kslot_slotEmptied, if_pos rfl]
    exact h
  exact takeSpare_of_good good

theorem rowKey_slotEmptied (i : Nat) (s : State) : rowKey i (slotEmptied i s) = 0 := by
  have number : rowNo i (slotEmptied i s) = rowNo i s := by
    unfold rowNo
    rw [kslot_slotEmptied, if_pos rfl]
  have blank : rowOf i (slotEmptied i s) = {} := by
    unfold rowOf
    rw [number]
    simp [slotEmptied, onKslot, smGet]
  rw [rowKey, blank]
  rfl

theorem kslot_of_se {t : State} (hse : t.se = s.se) (j : Nat) : kslot j t = kslot j s := by
  simp only [kslot, hse]

/-! ## The rows of the KEY channel -/

theorem moves_of_calm {f : State → State} (hrun : running s = true) (hcalm : Calm (f s)) : moves f s = .next (f s) := by
  simp only [moves, hrun, if_true, settle_of_calm hcalm]
  rfl

/-- Of the stream engine only the transactions bear on what falls due. -/
theorem NothingDue.of_txns {t : State} (h : NothingDue s) (htxns : t.se.txns = s.se.txns) (hfp : t.fp = s.fp) (htu : t.tu = s.tu)
    (hclk : t.clk = s.clk) (hkey : t.ev.waitKey = s.ev.waitKey) : NothingDue t := by
  obtain ⟨commits, frames, verdicts, asked⟩ := h
  have same : NothingDue { s with se := t.se } := ⟨by simpa [txnOf, ptp16, htxns] using commits, frames, verdicts, asked⟩
  exact same.of_parts rfl hfp htu hclk hkey

/-- What a row of the KEY channel leaves when it has answered the one command that may have waited for it. -/
theorem owed_answered {opc : Nat} {w : Wait} {tlvs : List Tlv} {u d : State}
    (howed : u.cmd.owed = [] ∨ ∃ c, u.cmd.owed = [{ call := c, opcode := opc, wait := w }])
    (hcalm : Calm (onCmd (fun x => { x with owed := [] }) u)) (hnone : u.cmd.owed = [] → d = u)
    (hone : ∀ c, u.cmd.owed = [{ call := c, opcode := opc, wait := w }] → d = replyOk c tlvs u) :
    Calm d ∧ d.se = u.se ∧ d.pu = u.pu ∧ d.nv.slotLoads = u.nv.slotLoads ∧
      ∀ c, u.cmd.owed = [{ call := c, opcode := opc, wait := w }] → c.via = .spi →
        ∃ y, d.cmd.spiReplies = u.cmd.spiReplies ++ [y] ∧ y.status = stOk ∧ y.tag = c.pkt.tag ∧ y.tlvs = tlvs := by
  obtain hnil | ⟨c, hc⟩ := howed
  · have idle : onCmd (fun x => { x with owed := [] }) u = u := by simp [onCmd, ← hnil]
    rw [hnone hnil]
    exact ⟨idle ▸ hcalm, rfl, rfl, rfl, fun c hc => absurd (hnil.symm.trans hc) (List.cons_ne_nil _ _).symm⟩
  · obtain ⟨e, calm, rfl, se, pu, loads, spi⟩ := calm_reply_awaited hc hcalm tlvs
    rw [hone c hc]
    refine ⟨calm, se, pu, loads, fun b hb hspi => ?_⟩
    obtain rfl : c = b := by
      have same := hc.symm.trans hb
      simp only [List.cons.injEq, Owed.mk.injEq, and_true] at same
      exact same
    exact spi hspi

/-- The head of the KEY channel taken from it, the riser's books aside. -/
def chanTaken (r : List KeyMsg) (ri : Ri) (cdc : SMap CdcBook) (s : State) : State :=
  onPu (fun p => { p with keyChan := r }) { s with ri := ri, cdc := cdc }

theorem kslot_chanTaken (r : List KeyMsg) (ri : Ri) (cdc : SMap CdcBook) (j : Nat) (s : State) : kslot j (chanTaken r ri cdc s) = kslot j s := rfl
theorem rowNo_chanTaken (r : List KeyMsg) (ri : Ri) (cdc : SMap CdcBook) (j : Nat) (s : State) : rowNo j (chanTaken r ri cdc s) = rowNo j s := rfl
theorem rowKey_chanTaken (r : List KeyMsg) (ri : Ri) (cdc : SMap CdcBook) (j : Nat) (s : State) : rowKey j (chanTaken r ri cdc s) = rowKey j s :=
  rowKey_of_rows rfl rfl j

/-- The head of the channel is stored before its KEY_LOAD is answered (R163). -/
theorem storeLoad_eq {m : KeyMsg} {r : List KeyMsg} (hreach : vaultReached s = true) (hchan : s.pu.keyChan = m :: r)
    (hgood : (kslot m.slot s).drainBad = false) : ∃ ri cdc,
      (s.cmd.owed = [] → storeLoad s = keyStored m (chanTaken r ri cdc s)) ∧
      ∀ c opc, s.cmd.owed = [{ call := c, opcode := opc, wait := .keyLoaded m.slot }] →
        storeLoad s = replyOk c [r16 1 m.slot, r32 2 m.keyId, r32 3 m.epoch] (keyStored m (chanTaken r ri cdc s)) := by
  obtain ⟨ri, cdc, -, sent⟩ := sendRiser_parts false .key .keyStore (natLE 2 m.slot ++ natLE 1 m.ktype ++ natLE 4 m.keyId ++ natLE 4 m.epoch ++
    natLE 6 m.notAfter ++ bytes256 m.share0 ++ bytes256 m.share1) s
  have stored : storeKey m (onPu (fun p => { p with keyChan := r }) { s with ri := ri, cdc := cdc }) = keyStored m (chanTaken r ri cdc s) :=
    storeKey_of_good (s := chanTaken r ri cdc s) hgood
  have owed : (keyStored m (chanTaken r ri cdc s)).cmd.owed = s.cmd.owed := rfl
  refine ⟨ri, cdc, fun hnone => ?_, fun c opc hone => ?_⟩
  · simp only [storeLoad, hreach, hchan, sent, stored, owed, hnone, List.find?_nil, Bool.not_true, Bool.false_eq_true, if_false]
  · simp only [storeLoad, hreach, hchan, sent, stored, owed, hone, List.find?_cons, beq_self_eq_true, Bool.not_true, Bool.false_eq_true, if_false]

/-- A drain notice that is taken behind the clock of the change to DRAINING, no load waiting for the slot (R133). -/
theorem slotDrained_eq {i : Nat} (hreach : vaultReached s = true) (hi : i ∈ s.pu.drained) (hgood : (kslot i s).drainBad = false)
    (hat : (kslot i s).drainAt ≠ some s.clk.now) (hqueued : ∀ m ∈ s.pu.queued, m.slot ≠ i) : ∃ ri cdc,
      slotDrained i s = checkReleases (slotEmptied i { s with ri := ri, cdc := cdc }) := by
  obtain ⟨ri, cdc, -, sent⟩ := sendRiser_parts false .key .keyReleases (natLE 2 i) s
  have emptied : emptySlot i { s with ri := ri, cdc := cdc } = slotEmptied i { s with ri := ri, cdc := cdc } :=
    emptySlot_of_good (s := { s with ri := ri, cdc := cdc }) hgood
  have unqueued : (slotEmptied i { s with ri := ri, cdc := cdc }).pu.queued.find? (fun m => m.slot == i) = none :=
    List.find?_eq_none.mpr (fun m hm => by simpa using hqueued m hm)
  have named : s.pu.drained.contains i = true := by simpa using hi
  refine ⟨ri, cdc, ?_⟩
  simp only [slotDrained, named, hreach, hat, sent, emptied, unqueued, Bool.not_true, Bool.or_self, Bool.false_eq_true, if_false]

end rows

/-- Both dies run, with the riser up, nothing falls due and no packet waits to be taken: at most a command waits. -/
def KeyChannelIdle (s : State) : Prop :=
  running s = true ∧ s.ri.st = .up ∧ vaultDown s = false ∧ Calm (onCmd (fun x => { x with owed := [] }) s)

section rows
variable {s : State} (hidle : KeyChannelIdle s)
include hidle

theorem vaultReached_of_keyChannelIdle : vaultReached s = true := by
  obtain ⟨-, hup, hvault, -⟩ := hidle
  simp [vaultReached, riserUp, hup, hvault]

/-- A load writes row and descriptor, and its KEY_LOAD replies (R163, R168). -/
theorem keyStoreLoad_spec (hunique : ∀ i j n, (kslot i s).spare = some n → (kslot j s).spare = some n → i = j) {m : KeyMsg} {r : List KeyMsg}
    (hchan : s.pu.keyChan = m :: r) (hslot : m.slot < 32768) (hgood : (kslot m.slot s).drainBad = false)
    (howed : s.cmd.owed = [] ∨ ∃ c, s.cmd.owed = [{ call := c, opcode := 0x0401, wait := .keyLoaded m.slot }]) :
    ∃ d, exec .keyStoreLoad s = .next d ∧ d.pu.keyChan = r ∧ rowKey m.slot d = m.share0 ^^^ m.share1 ∧
      (∀ j, j < 32768 → j ≠ m.slot → rowKey j d = rowKey j s) ∧
      kslot m.slot d = { kslot m.slot s with state := 1, ktype := m.ktype, keyId := m.keyId, epoch := m.epoch, notAfter := m.notAfter } ∧
      (∀ j, j ≠ m.slot → kslot j d = kslot j s) ∧ slotLoads m.slot d = s.nv.loads + 1 ∧ d.cmd.owed = [] ∧
      (∀ c, s.cmd.owed = [{ call := c, opcode := 0x0401, wait := .keyLoaded m.slot }] → c.via = .spi →
        ∃ y, d.cmd.spiReplies = s.cmd.spiReplies ++ [y] ∧ y.status = stOk ∧ y.tag = c.pkt.tag ∧
          y.tlvs = [r16 1 m.slot, r32 2 m.keyId, r32 3 m.epoch]) := by
  obtain ⟨ri, cdc, unasked, asked⟩ := storeLoad_eq (vaultReached_of_keyChannelIdle hidle) hchan hgood
  obtain ⟨hrun, -, -, hcalm⟩ := hidle
  have cmd : (keyStored m (chanTaken r ri cdc s)).cmd = s.cmd := rfl
  have calm : Calm (onCmd (fun x => { x with owed := [] }) (keyStored m (chanTaken r ri cdc s))) :=
    hcalm.of_parts rfl rfl rfl rfl ((nothingDue_of_calm hcalm).of_txns rfl rfl rfl rfl rfl)
  have slots := kslot_keyStored m (s := chanTaken r ri cdc s)
  have keys := rowKey_keyStored m (s := chanTaken r ri cdc s)
  have loads : slotLoads m.slot (keyStored m (chanTaken r ri cdc s)) = s.nv.loads + 1 := slotLoads_keyStored m (chanTaken r ri cdc s)
  have chan : (keyStored m (chanTaken r ri cdc s)).pu.keyChan = r := rfl
  simp only [kslot_chanTaken, rowNo_chanTaken, rowKey_chanTaken] at slots keys
  generalize keyStored m (chanTaken r ri cdc s) = u at *
  obtain ⟨done, se, pu, slotLoads_, spi⟩ := owed_answered (u := u) (d := storeLoad s) (opc := 0x0401) (w := .keyLoaded m.slot)
    (tlvs := [r16 1 m.slot, r32 2 m.keyId, r32 3 m.epoch]) (by rw [cmd]; exact howed) calm
    (fun h => unasked (by rw [← cmd, h])) (fun c h => asked c _ (by rw [← cmd, h]))
  rw [cmd] at spi
  refine ⟨_, moves_of_calm hrun done, ?_, ?_, fun j hj hne => ?_, ?_, fun j hne => ?_, ?_, owed_nil_of_calm done, spi⟩
  · rw [pu, chan]
  · rw [rowKey_of_rows se (congrArg Pu.rows pu), keys]
    exact if_pos rfl
  · rw [rowKey_of_rows se (congrArg Pu.rows pu), keys]
    exact if_neg (rowNo_ne hunique hslot hj hne)
  · rw [kslot_of_se se, slots, if_pos rfl]
  · rw [kslot_of_se se, slots, if_neg hne]
  · rw [← loads]
    simp only [slotLoads, slotLoads_]

/-- A drained slot is erased and EMPTY, and its KEY_RELEASE replies (R133, R168). -/
theorem slotDrained_spec {i : Nat} (hi : i ∈ s.pu.drained) (hgood : (kslot i s).drainBad = false)
    (hat : (kslot i s).drainAt ≠ some s.clk.now) (hqueued : ∀ m ∈ s.pu.queued, m.slot ≠ i)
    (howed : s.cmd.owed = [] ∨ ∃ c, s.cmd.owed = [{ call := c, opcode := 0x0402, wait := .slotEmpty [i] }]) :
    ∃ d, exec (.slotDrained i) s = .next d ∧ (kslot i d).state = 0 ∧ rowKey i d = 0 ∧ i ∉ d.pu.drained ∧
      (∀ j, j ≠ i → kslot j d = kslot j s) ∧ d.cmd.owed = [] ∧ d.pu.keyChan = s.pu.keyChan := by
  obtain ⟨ri, cdc, row⟩ := slotDrained_eq (vaultReached_of_keyChannelIdle hidle) hi hgood hat hqueued
  obtain ⟨hrun, -, -, hcalm⟩ := hidle
  have cmd : (slotEmptied i { s with ri := ri, cdc := cdc }).cmd = s.cmd := rfl
  have calm : Calm (onCmd (fun x => { x with owed := [] }) (slotEmptied i { s with ri := ri, cdc := cdc })) :=
    hcalm.of_parts rfl rfl rfl rfl ((nothingDue_of_calm hcalm).of_txns rfl rfl rfl rfl rfl)
  have slots (j : Nat) : kslot j (slotEmptied i { s with ri := ri, cdc := cdc }) = if j = i then { kslot i s with state := 0 } else kslot j s :=
    kslot_slotEmptied i j { s with ri := ri, cdc := cdc }
  have key := rowKey_slotEmptied i { s with ri := ri, cdc := cdc }
  have drained : (slotEmptied i { s with ri := ri, cdc := cdc }).pu.drained = s.pu.drained.filter (· ≠ i) := rfl
  have chan : (slotEmptied i { s with ri := ri, cdc := cdc }).pu.keyChan = s.pu.keyChan := rfl
  generalize slotEmptied i { s with ri := ri, cdc := cdc } = u at *
  have empty : (kslot i u).state = 0 := by rw [slots, if_pos rfl]
  obtain ⟨done, se, pu, -, -⟩ := owed_answered (u := u) (d := slotDrained i s) (tlvs := []) (by rw [cmd]; exact howed) calm
    (fun h => by rw [row, checkReleases, h]; rfl) (fun c h => by rw [row, checkReleases, h]; simp [empty])
  refine ⟨_, moves_of_calm hrun done, ?_, ?_, ?_, fun j hne => ?_, owed_nil_of_calm done, ?_⟩
  · rw [kslot_of_se se, empty]
  · rw [rowKey_of_rows se (congrArg Pu.rows pu), key]
  · rw [pu, drained]
    simp
  · rw [kslot_of_se se, slots, if_neg hne]
  · rw [pu, chan]

end rows

/-- Settles O44: a known-answer round's books last through the jobs it lets go on; each other row is its own change; a load
and a drain act on a device that is calm but for the command they answer. -/
theorem pumpsAndKeyStore : Obligations.PumpsAndKeyStore := by
  unfold Obligations.PumpsAndKeyStore
  constructor
  · intro dt p err s a x hrun
    subst x a
    constructor
    · exact knownAnswerTest_spec p err hrun
    constructor
    · exact knownAnswerTest_waits p err
    constructor
    · exact pairingRotation_spec hrun
    constructor
    · exact pairingRotation_waits
    · intro hdue
      exact ⟨remaskSweep_clean_spec hrun hdue, remaskSweep_bad_spec hrun hdue⟩
  constructor
  · intro dt p s a x hrun
    subst x a
    constructor
    · exact fun hdue hfed hup v r hpool => maskReseed_spec p hrun hdue hfed hup hpool
    · exact maskReseedOverdue_spec p hrun
  · intro s hrun hup hvault hswap hctl hvlt hquiet hdue hunique
    have idle : KeyChannelIdle s := ⟨hrun, hup, hvault, hrun, rfl, hswap, hctl, hvlt, hquiet, hdue⟩
    constructor
    · exact fun m r hchan hslot hgood howed => keyStoreLoad_spec idle hunique hchan hslot hgood howed
    · exact fun i hi hgood hat hqueued howed => slotDrained_spec idle hi hgood hat hqueued howed

end Sys2Proof.Claim
end

section
/-! A step on a queue and on an empty one, and O22 (R180). -/
namespace Sys2Proof.Claim
open Sys2Proof.Machine

theorem step_of_front (i : Instr) (rest : List Instr) (s : State) :
    step { s with pending := i :: rest } = exec i { s with pending := rest } := rfl

theorem step_of_empty {s : State} (h : s.pending = []) : step s = .next (Machine.idle s) := by
  unfold step
  rw [h]

theorem nextInstant_of_none {s : State} (hswap : s.plat.swap = none) (hctl : s.cpuC.restarting = none)
    (hvlt : s.cpuV.restarting = none) : nextInstant s = none := by
  simp only [nextInstant, hswap, hctl, hvlt]

/-- When no swap and no core restart runs, one tick passes. -/
theorem idle_of_none {s : State} (hswap : s.plat.swap = none) (hctl : s.cpuC.restarting = none) (hvlt : s.cpuV.restarting = none) :
    Machine.idle s = if running (advance 1 s) then settle (advance 1 s) else advance 1 s := by
  simp only [Machine.idle, nextInstant_of_none hswap hctl hvlt]

/-- A calm device on which nothing falls due in a tick is calm behind it. -/
theorem Calm.advance_one {s : State} (h : Calm s) (hdue : NothingDue (advance 1 s)) : Calm (advance 1 s) := by
  obtain ⟨hrun, howed, hswap, hctl, hvlt, hquiet, -⟩ := h
  have parts := advance_parts 1 s
  generalize advance 1 s = t at *
  rw [parts] at hdue ⊢
  exact ⟨hrun, howed, hswap, hctl, hvlt, hquiet, hdue⟩

/-- Settles O22: the queue's front, and a tick on an empty queue behind which a calm device has nothing to catch up with. -/
theorem stepTakesFront : Obligations.StepTakesFront := by
  unfold Obligations.StepTakesFront
  refine ⟨step_of_front, fun s hempty => ⟨fun hcalm hdue => ?_, fun hstop hswap hctl hvlt => ?_⟩⟩
  · have calm : Calm (advance 1 s) := hcalm.advance_one hdue
    obtain ⟨-, -, hswap, hctl, hvlt, -, -⟩ := hcalm
    rw [step_of_empty hempty, idle_of_none hswap hctl hvlt, if_pos (running_of_calm calm), settle_of_calm calm]
  · have stopped : running (advance 1 s) = false := by
      rw [advance_parts]
      exact hstop
    rw [step_of_empty hempty, idle_of_none hswap hctl hvlt, stopped]
    rfl

end Sys2Proof.Claim
end

section
/-! The time unit's operations: a turn among its writers, a change of STATE, a step of the time and the writes of its registers
(R179 to R189, R195). -/
namespace Sys2Proof.Claim
open Sys2Proof.Machine

/-! ## Ticks and turns -/

/-- Ticks pass: the clocks and the time move on, and nothing else does. -/
def Waited (s t : State) : Prop := ∃ c x, t = { s with clk := c, tu := { s.tu with time := x } }

theorem waited_advance (n : Nat) (s : State) : Waited s (advance n s) := ⟨_, _, advance_parts n s⟩
theorem waited_inTurn (kind id rank : Nat) (s : State) : Waited s (inTurn kind id rank s) := ⟨_, _, inTurn_parts kind id rank s⟩

theorem Waited.trans {s t u : State} (h : Waited s t) (k : Waited t u) : Waited s u := by
  obtain ⟨_, _, rfl⟩ := h
  obtain ⟨c, x, rfl⟩ := k
  exact ⟨c, x, rfl⟩

/-- What does not hang on the clocks and the time stands. -/
theorem Waited.apart {s t : State} (h : Waited s t) {α : Type} (g : State → α)
    (hg : ∀ c x, g { s with clk := c, tu := { s.tu with time := x } } = g s) : g t = g s := by
  obtain ⟨c, x, rfl⟩ := h
  exact hg c x

/-- Where no contender has been served in this tick, the turn at the time unit is now. -/
theorem inTurn_time_of_free {s : State} (rank : Nat) (h : smFind s.clk.turns (turnTime * 2 ^ 32) = none) :
    (inTurn turnTime 0 rank s).tu = s.tu := by
  rw [inTurn_of_free (id := 0) rank (by simpa using h)]
  rfl

/-! ## Events without a sump record (R515) -/

theorem msix_nv (v : Nat) (s : State) : (msix v s).nv = s.nv := by
  unfold msix
  split
  · rfl
  · split <;> rfl

theorem evPumpViews_nv (n : Nat) (s : State) : (evPumpViews n s).nv = s.nv := by
  simp [evPumpViews, evChange, apply_ite State.nv, msix_nv]

/-- A Pumphouse source that leaves no record leaves the nonvolatile state. -/
theorem raise_nv {n : Nat} (hs : evSticky n = false) (hp : evWell n = false) (d : List Nat) (s : State) : (raise n d s).nv = s.nv := by
  unfold raise evRaise
  simp only [hs, hp, Bool.false_eq_true, if_false]
  split
  · rw [show (evVaultView n (sendRiser true .evt .events (natLE 2 n) _)).nv = _ from sendRiser_nv .., evPumpViews_nv, cdcPass_nv]
    rfl
  · rw [onEv_nv, evPumpViews_nv, cdcPass_nv]
    rfl

/-- Raising leaves the commands of a device on which no applet waits. -/
theorem raise_cmd (n : Nat) (d : List Nat) {s : State} (h : NoneWaits s) : (raise n d s).cmd = s.cmd :=
  (undisturbed_raise (t := 0) n d s).cmd h

/-! ## Values that judge frames (R187, R195, R197) -/

/-- A change of such values keeps what stood before it. -/
theorem tuChange_spec (f : Tu → Tu) (s : State) : ∃ h, tuChange f s = onTu (fun t => f { t with hist := h }) s := ⟨_, rfl⟩

/-- A write of the uncertainty takes its turn and its time. -/
theorem writeUncert_spec (v : Nat) (s : State) : ∃ h, writeUncert v s = onTu (fun t => { t with
    uset := v, tset := ptp16 (inTurn turnTime 0 0 s), tsetAt := (inTurn turnTime 0 0 s).clk.now, hist := h }) (inTurn turnTime 0 0 s) :=
  ⟨_, rfl⟩

/-! ## STATE (R187, R188, R195) -/

theorem setTimeState_of_same {v : Nat} {s : State} (h : v = s.tu.state) : setTimeState v s = s := if_pos h

/-- A new STATE is an event, and what stood before it is kept. -/
theorem setTimeState_of_new {v : Nat} {s : State} (h : v ≠ s.tu.state) :
    ∃ l, setTimeState v s = raise 44 [] (onTu (fun t => { t with state := v, hist := l }) s) := ⟨_, if_neg h⟩

theorem writeTimeState_of_same {v : Nat} {s : State} (h : v = s.tu.state) : writeTimeState v s = s := by
  unfold writeTimeState
  split
  · rfl
  · exact setTimeState_of_same h

/-- A write of STATE is one of three: without effect, or a change. -/
theorem writeTimeState_cases (v : Nat) (s : State) : writeTimeState v s = s ∨
    ∃ l, writeTimeState v s = raise 44 [] (onTu (fun t => { t with state := v, hist := l }) s) := by
  by_cases same : v = s.tu.state
  · exact .inl (writeTimeState_of_same same)
  · unfold writeTimeState
    split
    · exact .inl rfl
    · exact .inr (setTimeState_of_new same)

/-- The hardware leaves a STATE for another. -/
theorem hwTimeState_of_new {v : Nat} {s : State} (h : v ≠ s.tu.state) : ∃ l, hwTimeState v s =
    raise 44 [] (onTu (fun t => { t with hwStateAt := some s.clk.now, state := v, hist := l }) s) :=
  setTimeState_of_new (s := onTu (fun t => { t with hwStateAt := some s.clk.now }) s) h

/-! ## Steps of the time (R140, R186, R189) -/

/-- The modulus of the time, in 2^-48 ns (R179). -/
abbrev timeModulus : Int := 2 ^ 48 * 1000000000 * (tuPerNs : Int)

/-- A step sets the time and raises USET by no less than the step; the servo starts anew and the instants are cleared. -/
theorem stepTo_spec (new : Int) (s : State) : ∃ c t f, stepTo new s = raise 45 [] (clearInstants { s with clk := c, tu := t, fp := f }) ∧
    ∃ a m l h p, t = { s.tu with
      time := (new % timeModulus).toNat, tset := a, uset := min 0xFFFFFFFF (max s.tu.uset m), steps := l, hist := h
      ppsLastEdge := p, haveLast := false, lockCount := 0 } := by
  obtain ⟨c, x, turn⟩ := (waited_advance 1 s).trans (waited_inTurn turnTime 0 1 (advance 1 s))
  unfold stepTo
  rw [turn]
  exact ⟨_, _, _, rfl, _, _, _, _, _, rfl⟩

section step
variable (new : Int) (s : State)

theorem stepTo_tu : ∃ a m l h p, (stepTo new s).tu = { s.tu with
    time := (new % timeModulus).toNat, tset := a, uset := min 0xFFFFFFFF (max s.tu.uset m), steps := l, hist := h
    ppsLastEdge := p, haveLast := false, lockCount := 0 } := by
  obtain ⟨c, t, f, step, ht⟩ := stepTo_spec new s
  rw [step, raise_tu]
  exact ht

theorem stepTo_nv : (stepTo new s).nv = s.nv := by
  obtain ⟨c, t, f, step, -⟩ := stepTo_spec new s
  rw [step, raise_nv (by decide) (by decide)]
  rfl

theorem stepTo_cpuC : (stepTo new s).cpuC = s.cpuC := by
  obtain ⟨c, t, f, step, -⟩ := stepTo_spec new s
  rw [step, raise_cpuC]
  rfl

theorem stepTo_cmd (none : NoneWaits s) : (stepTo new s).cmd = s.cmd := by
  obtain ⟨c, t, f, step, -⟩ := stepTo_spec new s
  rw [step]
  exact raise_cmd 45 [] none

theorem stepTo_pend : (stepTo new s).ev.pend.getLsbD 45 = true := by
  obtain ⟨c, t, f, step, -⟩ := stepTo_spec new s
  rw [step]
  exact raise_pend [] _ (by decide) (by decide)

/-- A COMMITTED transaction loses its instant (R140). -/
theorem txnOf_stepTo (k : Nat) : txnOf k (stepTo new s) =
    if (txnOf k s).st == .committed then { txnOf k s with instant := 0 } else txnOf k s := by
  obtain ⟨c, t, f, step, -⟩ := stepTo_spec new s
  rw [step, txnOf, raise_se]
  exact smGet_map (f := fun t : Txn => if t.st == .committed then { t with instant := 0 } else t) rfl s.se.txns k

end step

theorem stepAbs_eq (ns : Nat) (s : State) : stepAbs ns s = stepTo ((ns : Int) * tuPerNs) s := rfl

/-- An absolute step to a number of nanoseconds, modulo the 2^48 seconds the time has (R179, R189). -/
theorem stepAbs_time (ns : Nat) (s : State) : (stepAbs ns s).tu.time = ns % (2 ^ 48 * 1000000000) * 2 ^ 48 := by
  obtain ⟨a, m, l, h, p, tu⟩ := stepTo_tu ((ns : Int) * tuPerNs) s
  rw [stepAbs_eq, tu]
  simp only [timeModulus, tuPerNs]
  omega

/-! ## Registers (R181, R185, R187) -/

/-- Two changes of the time unit are one. -/
theorem onTu_onTu (f g : Tu → Tu) (s : State) : onTu f (onTu g s) = onTu (fun t => f (g t)) s := rfl

theorem writeRefSel_of_present {on : Bool} {s : State} (h : on = true → s.tu.refPresent = true) :
    writeRefSel on s = onTu (fun t => { t with refSel := on, refOk := on }) s := by
  unfold writeRefSel
  cases on
  · rfl
  · simp [h rfl]

/-- A write of REFSEL takes it, and where the reference has been lost draws whether it is there again (R181). -/
theorem writeRefSel_spec (on : Bool) (s : State) : ∃ ok there n, writeRefSel on s =
    { onTu (fun t => { t with refSel := on, refOk := ok, refPresent := there }) s with free := n } ∧ (ok = true → on = true ∧ there = true) := by
  by_cases lost : on = true ∧ s.tu.refPresent = false
  · obtain ⟨rfl, hlost⟩ := lost
    unfold writeRefSel
    rw [hlost]
    exact ⟨_, _, _, rfl, fun h => ⟨rfl, h⟩⟩
  · have present : on = true → s.tu.refPresent = true := fun h => by simpa [h] using lost
    exact ⟨on, s.tu.refPresent, s.free, writeRefSel_of_present present, fun h => ⟨h, present h⟩⟩

theorem writePpsEn_spec (on : Bool) (s : State) : ∃ e, writePpsEn on s = onTu (fun t => { t with ppsOutEn := on, ppsLastEdge := e }) s := by
  unfold writePpsEn
  simp only
  split <;> exact ⟨_, rfl⟩

/-- The time is taken into the snapshot where the word says so. -/
def snapTaken (v : Word) (s : State) : State := if v.getLsbD 7 then onTu (fun t => { t with snap := ptp16 s }) s else s

/-- The settings that a word of TU_CTL carries beside STATE. -/
def settingsTaken (v : Word) (s : State) : State :=
  onTu (fun t => { t with abs := v.getLsbD 6 }) (writePpsEn (v.getLsbD 4) (writeRefSel (v.getLsbD 2) (snapTaken v s)))

/-- A write of TU_CTL that names the STATE there is takes the settings, then steps if told to. -/
theorem writeTuCtl_of_sameState {v : Word} {s : State} (h : v.toNat % 4 = s.tu.state) : writeTuCtl v s =
    let u := settingsTaken v s
    if v.getLsbD 5 then (if u.tu.abs then stepAbs (stepWord u.tu) u else stepBy (toSigned 8 (stepWord u.tu)) u) else u := by
  have same : writeTimeState (v.toNat % 4) (snapTaken v s) = snapTaken v s := by
    refine writeTimeState_of_same (h.trans ?_)
    unfold snapTaken
    split <;> rfl
  unfold writeTuCtl
  simp only [show (if v.getLsbD 7 then onTu (fun t => { t with snap := ptp16 s }) s else s) = snapTaken v s from rfl, same]
  rfl

theorem settingsTaken_snap {v : Word} {s : State} (hsnap : v.getLsbD 7 = true) (href : v.getLsbD 2 = true → s.tu.refPresent = true) :
    ∃ e, settingsTaken v s = onTu (fun t => { t with
      snap := ptp16 s, refSel := v.getLsbD 2, refOk := v.getLsbD 2, ppsOutEn := v.getLsbD 4, abs := v.getLsbD 6, ppsLastEdge := e }) s := by
  unfold settingsTaken snapTaken
  have snapped (t : Tu) : { t with snap := ptp16 s }.refPresent = t.refPresent := rfl
  rw [if_pos hsnap, writeRefSel_of_present (by rwa [onTu_tu, snapped])]
  obtain ⟨e, pps⟩ := writePpsEn_spec (v.getLsbD 4)
    (onTu (fun t => { t with refSel := v.getLsbD 2, refOk := v.getLsbD 2 }) (onTu (fun t => { t with snap := ptp16 s }) s))
  rw [pps]
  exact ⟨e, by simp only [onTu_onTu]⟩

theorem settingsTaken_spec (v : Word) (s : State) : ∃ n snap ok there e, settingsTaken v s = { onTu (fun t => { t with
    snap := snap, refSel := v.getLsbD 2, refOk := ok, refPresent := there, ppsOutEn := v.getLsbD 4, abs := v.getLsbD 6
    ppsLastEdge := e }) s with free := n } := by
  have taken : ∃ x, snapTaken v s = onTu (fun t => { t with snap := x }) s := by
    unfold snapTaken
    split <;> exact ⟨_, rfl⟩
  obtain ⟨x, snap⟩ := taken
  obtain ⟨ok, there, n, ref, -⟩ := writeRefSel_spec (v.getLsbD 2) (snapTaken v s)
  obtain ⟨e, pps⟩ := writePpsEn_spec (v.getLsbD 4) (writeRefSel (v.getLsbD 2) (snapTaken v s))
  unfold settingsTaken
  rw [pps, ref, snap]
  exact ⟨n, x, ok, there, e, rfl⟩

theorem settingsTaken_keeps (v : Word) (s : State) : (settingsTaken v s).tu.refSel = v.getLsbD 2 ∧ (settingsTaken v s).nv = s.nv ∧
    ∀ k, txnOf k (settingsTaken v s) = txnOf k s := by
  obtain ⟨n, x, ok, there, e, taken⟩ := settingsTaken_spec v s
  rw [taken]
  exact ⟨rfl, rfl, fun _ => rfl⟩

/-- One whose word tells it to step to the time in the step registers does so over the settings. -/
theorem writeTuCtl_of_absStep {v : Word} {s : State} (h : v.toNat % 4 = s.tu.state) (hstep : v.getLsbD 5 = true) (habs : v.getLsbD 6 = true) :
    writeTuCtl v s = stepAbs (stepWord s.tu) (settingsTaken v s) := by
  have abs : (settingsTaken v s).tu.abs = true := habs
  have word : stepWord (settingsTaken v s).tu = stepWord s.tu := by
    obtain ⟨n, x, ok, there, e, taken⟩ := settingsTaken_spec v s
    rw [taken]
    rfl
  rw [writeTuCtl_of_sameState h]
  simp only [hstep, abs, word, if_true]

end Sys2Proof.Claim
end

section
/-! The time unit's registers and events, and O47 (R179, R181, R182, R185 to R189, R194, R195). -/
namespace Sys2Proof.Claim
open Sys2Proof.Machine

/-! ## Rows of the registers (R187) -/

section registers
variable {s : State} (hrun : running s = true)
include hrun

theorem tuCtlSnap_takes {v : Word} (hstep : v.getLsbD 5 = false) (hstate : v.toNat % 4 = s.tu.state)
    (href : v.getLsbD 2 = true → s.tu.refPresent = true) : ∃ e, exec (.tuCtlSnap v) s = .next (onTu (fun t => { t with
      snap := ptp16 s, refSel := v.getLsbD 2, refOk := v.getLsbD 2, ppsOutEn := v.getLsbD 4, abs := v.getLsbD 6, ppsLastEdge := e }) s) := by
  have state : (v ||| 0x80).toNat % 4 = s.tu.state := by
    rw [BitVec.toNat_or, show 4 = 2 ^ 2 from rfl, Nat.or_mod_two_pow]
    simpa using hstate
  have bits : (v ||| 0x80).getLsbD 2 = v.getLsbD 2 ∧ (v ||| 0x80).getLsbD 4 = v.getLsbD 4 ∧ (v ||| 0x80).getLsbD 5 = v.getLsbD 5 ∧
      (v ||| 0x80).getLsbD 6 = v.getLsbD 6 ∧ (v ||| 0x80).getLsbD 7 = true := by simp
  obtain ⟨b2, b4, b5, b6, b7⟩ := bits
  obtain ⟨e, taken⟩ := settingsTaken_snap (v := v ||| 0x80) (s := s) b7 (by rwa [b2])
  refine ⟨e, ?_⟩
  show done (if running s then writeTuCtl (v ||| 0x80) s else s) = _
  rw [if_pos hrun, writeTuCtl_of_sameState state, taken, b2, b4, b5, b6, hstep]
  rfl

theorem tuCtlStep_steps {v : Word} (hstate : v.toNat % 4 = s.tu.state) (habs : v.getLsbD 6 = true) :
    ∃ d, exec (.tuCtlStep v) s = .next d ∧
      d.tu.time = (s.tu.stepLo.toNat + 2 ^ 32 * s.tu.stepHi.toNat) % (2 ^ 48 * 1000000000) * 2 ^ 48 ∧ d.ev.pend.getLsbD 45 = true ∧
      d.tu.refSel = v.getLsbD 2 ∧ d.nv = s.nv ∧ ∀ k, (txnOf k s).st = .committed → (txnOf k d).instant = 0 := by
  have state : (v ||| 0x20).toNat % 4 = s.tu.state := by
    rw [BitVec.toNat_or, show 4 = 2 ^ 2 from rfl, Nat.or_mod_two_pow]
    simpa using hstate
  have bits : (v ||| 0x20).getLsbD 2 = v.getLsbD 2 ∧ (v ||| 0x20).getLsbD 5 = true ∧ (v ||| 0x20).getLsbD 6 = true := by simp [habs]
  obtain ⟨b2, b5, b6⟩ := bits
  have row : exec (.tuCtlStep v) s = .next (stepAbs (stepWord s.tu) (settingsTaken (v ||| 0x20) s)) := by
    show done (if running s then writeTuCtl (v ||| 0x20) s else s) = _
    rw [if_pos hrun, writeTuCtl_of_absStep state b5 b6]
    rfl
  obtain ⟨sel, nv, txns⟩ := settingsTaken_keeps (v ||| 0x20) s
  obtain ⟨_, _, _, _, _, tu⟩ := stepTo_tu ((stepWord s.tu : Int) * tuPerNs) (settingsTaken (v ||| 0x20) s)
  rw [stepAbs_eq] at row
  refine ⟨_, row, ?_, stepTo_pend _ _, ?_, (stepTo_nv _ _).trans nv, fun k hk => ?_⟩
  · exact stepAbs_time (stepWord s.tu) _
  · rw [tu, ← b2, ← sel]
  · rw [txnOf_stepTo, txns, hk]
    rfl

theorem tuUncert_takes (v : Word) : let b := inTurn turnTime 0 0 s
    ∃ h, exec (.tuUncert v) s = .next (onTu (fun t => { t with uset := v.toNat, tset := ptp16 b, tsetAt := b.clk.now, hist := h }) b) := by
  intro b
  obtain ⟨h, write⟩ := writeUncert_spec v.toNat s
  refine ⟨h, ?_⟩
  show done (if running s then writeUncert v.toNat s else s) = _
  rw [if_pos hrun, write]
  rfl

end registers

/-! ## Replicas (R29, R182) -/

/-- A port's replica is anchored over its queue. -/
def anchored (s : State) (p : Nat) : State := anchorReplica p (cdcPass (cdcTime + p) 1 s)

theorem anchored_spec (s : State) (p : Nat) : ∃ x : Int, x.natAbs ≤ 32768 ∧
    (anchored s p).tu = { s.tu with replicas := smSet 0 s.tu.replicas p x } ∧ (anchored s p).nv = s.nv ∧ (anchored s p).fp = s.fp := by
  have fits := draw_lt (cdcPass (cdcTime + p) 1 s) 16
  refine ⟨((draw 16 (cdcPass (cdcTime + p) 1 s)).1 : Int) - 32768, by omega, ?_, ?_, ?_⟩
  all_goals
    unfold anchored
    rw [cdcPass_parts]
    rfl

/-- Each replica that is anchored comes to within 0.5 ns, and one that was there stays there. -/
theorem foldl_anchored_spec (l : List Nat) (s : State) :
    (l.foldl anchored s).tu = { s.tu with replicas := (l.foldl anchored s).tu.replicas } ∧ (l.foldl anchored s).nv = s.nv ∧
      (l.foldl anchored s).fp = s.fp ∧
      ∀ p, p ∈ l ∨ (smGet 0 s.tu.replicas p).natAbs ≤ 32768 → (smGet 0 (l.foldl anchored s).tu.replicas p).natAbs ≤ 32768 := by
  induction l generalizing s with
  | nil => exact ⟨rfl, rfl, rfl, fun p hp => by simpa using hp⟩
  | cons q l ih =>
    obtain ⟨x, near, tu, nv, fp⟩ := anchored_spec s q
    obtain ⟨tus, nvs, fps, nears⟩ := ih (anchored s q)
    rw [List.foldl_cons]
    refine ⟨?_, nvs.trans nv, fps.trans fp, fun p hp => nears p ?_⟩
    · rw [tus, tu]
    · rw [tu, smGet_smSet]
      by_cases here : p = q
      · right
        rwa [if_pos here]
      · rw [if_neg here]
        simpa [here] using hp

/-! ## Rows of the events -/

section events
variable {dt : Nat} {s : State} (hrun : running (advance dt s) = true)
include hrun

theorem holdoverEntry_of_due (hstate : (advance dt s).tu.state = 1)
    (hdue : (advance dt s).tu.tsetAt + 25000000 * (advance dt s).tu.holdto ≤ (advance dt s).clk.now) :
    ∃ d, exec (.holdoverEntry dt) s = .next d ∧ d.tu.state = 2 ∧ d.ev.pend.getLsbD 44 = true ∧
      d.tu.uset = (advance dt s).tu.uset ∧ d.nv = (advance dt s).nv := by
  have due : (advance dt s).tu.tsetAt + msTicks (100 * (advance dt s).tu.holdto) ≤ (advance dt s).clk.now := by
    unfold msTicks
    omega
  obtain ⟨c, x, turn⟩ := waited_inTurn turnTime 0 1 (advance dt s)
  have new : 2 ≠ (inTurn turnTime 0 1 (advance dt s)).tu.state := by
    rw [turn]
    simp [hstate]
  obtain ⟨l, change⟩ := hwTimeState_of_new new
  have row : exec (.holdoverEntry dt) s = .next (hwTimeState 2 (inTurn turnTime 0 1 (advance dt s))) := by
    show execHoldoverEntry dt s = _
    simp only [execHoldoverEntry, hrun, hstate, due]
    rfl
  refine ⟨_, row, ?_, ?_, ?_, ?_⟩ <;> rw [change]
  · rw [raise_tu]
    rfl
  · exact raise_pend [] _ (by decide) (by decide)
  · rw [raise_tu, turn]
    rfl
  · rw [raise_nv (by decide) (by decide), turn]
    rfl

theorem freerunEntry_of_due (hstate : (advance dt s).tu.state = 2)
    (hdue : ((advance dt s).tu.umax : Int) * uScale < uEff (timeSnap (advance dt s).tu) (ptp16 (advance dt s))) :
    ∃ d, exec (.freerunEntry dt) s = .next d ∧ d.tu.state = 0 ∧ d.ev.pend.getLsbD 44 = true ∧
      d.tu.uset = (advance dt s).tu.uset ∧ d.nv = (advance dt s).nv := by
  have new : 0 ≠ (advance dt s).tu.state := by simp [hstate]
  obtain ⟨l, change⟩ := hwTimeState_of_new new
  have row : exec (.freerunEntry dt) s = .next (hwTimeState 0 (advance dt s)) := by
    show execFreerunEntry dt s = _
    simp only [execFreerunEntry, hrun, hstate, hdue]
    rfl
  refine ⟨_, row, ?_, ?_, ?_, ?_⟩ <;> rw [change]
  · rw [raise_tu]
    rfl
  · exact raise_pend [] _ (by decide) (by decide)
  · rw [raise_tu]
    rfl
  · rw [raise_nv (by decide) (by decide)]
    rfl

theorem referenceLost_of_selected (hsel : (advance dt s).tu.refSel = true) :
    ∃ d, exec (.referenceLost dt) s = .next d ∧ d.tu.refSel = false ∧ d.tu.refOk = false ∧ d.tu.refPresent = false ∧
      d.ev.pend.getLsbD 42 = true ∧ d.ev.sumpP.getLsbD 42 = true := by
  have row : exec (.referenceLost dt) s = .next (raise 42 [] (onTu (fun t => { t with
      refPresent := false, refSel := false, refOk := false }) (advance dt s))) := by
    show execReferenceLost dt s = _
    simp only [execReferenceLost, hrun, onTu_tu, hsel]
    rfl
  refine ⟨_, row, ?_, ?_, ?_, raise_pend [] _ (by decide) (by decide), raise_sticky (n := 42) [] _ (by decide) (by decide)⟩
  all_goals
    rw [raise_tu]
    rfl

theorem ppsInMissing_of_due (hnew : (advance dt s).tu.ppsMissing = false)
    (hdue : (advance dt s).tu.ppsLastAt + 275000000 ≤ (advance dt s).clk.now) :
    ∃ d, exec (.ppsInMissing dt) s = .next d ∧ d.tu = { (advance dt s).tu with ppsMissing := true } ∧ d.ev.pend.getLsbD 43 = true ∧
      d.nv = (advance dt s).nv := by
  have due : (advance dt s).tu.ppsLastAt + msTicks 1100 ≤ (advance dt s).clk.now := hdue
  have row : exec (.ppsInMissing dt) s = .next (raise 43 [] (onTu (fun t => { t with ppsMissing := true }) (advance dt s))) := by
    show execPpsInMissing dt s = _
    simp only [execPpsInMissing, hrun, hnew, due]
    rfl
  refine ⟨_, row, ?_, raise_pend [] _ (by decide) (by decide), ?_⟩
  · rw [raise_tu]
    rfl
  · rw [raise_nv (by decide) (by decide)]
    rfl

theorem ppsOutEdge_of_due (hen : (advance dt s).tu.ppsOutEn = true) (hnew : (advance dt s).tu.ppsLastEdge < ppsIndex (advance dt s)) :
    exec (.ppsOutEdge dt) s = .next (onTu (fun t => { t with
      ppsOut := true, ppsOutAt := (advance dt s).clk.now, ppsLastEdge := ppsIndex (advance dt s) }) (advance dt s)) := by
  show execPpsOutEdge dt s = _
  simp only [execPpsOutEdge, hrun, hen, hnew]
  rfl

theorem ppsOutPulseEnd_of_due (hout : (advance dt s).tu.ppsOut = true)
    (hdue : (advance dt s).tu.ppsOutAt + (advance dt s).tu.ppsWidth / 4 ≤ (advance dt s).clk.now) :
    exec (.ppsOutPulseEnd dt) s = .next (onTu (fun t => { t with ppsOut := false }) (advance dt s)) := by
  show execPpsOutPulseEnd dt s = _
  simp only [execPpsOutPulseEnd, hrun, hout, hdue]
  rfl

theorem replicaReanchor_of_due (hdue : (advance dt s).tu.reanchorAt + 250 ≤ (advance dt s).clk.now) :
    ∃ d, exec (.replicaReanchor dt) s = .next d ∧
      d.tu = { (advance dt s).tu with reanchorAt := (advance dt s).clk.now, replicas := d.tu.replicas } ∧ d.nv = (advance dt s).nv ∧
      d.fp = (advance dt s).fp ∧ ∀ p, p < 5 → (smGet 0 d.tu.replicas p).natAbs ≤ 32768 := by
  have due : (advance dt s).tu.reanchorAt + usTicks 1 ≤ (advance dt s).clk.now := hdue
  have row : exec (.replicaReanchor dt) s = .next ([0, 1, 2, 3, 4].foldl anchored
      (onTu (fun t => { t with reanchorAt := (advance dt s).clk.now }) (advance dt s))) := by
    show execReplicaReanchor dt s = _
    simp only [execReplicaReanchor, hrun, due]
    rfl
  obtain ⟨tu, nv, fp, near⟩ := foldl_anchored_spec [0, 1, 2, 3, 4]
    (onTu (fun t => { t with reanchorAt := (advance dt s).clk.now }) (advance dt s))
  refine ⟨_, row, tu, nv, fp, fun p hp => near p (.inl ?_)⟩
  simp only [List.mem_cons, List.not_mem_nil, or_false]
  omega

theorem utcoffEffective_of_due {off : Int} {at_ : Nat} (hnext : (advance dt s).tu.utcNext = some (off, at_))
    (hdue : at_ ≤ ptp16 (advance dt s)) : ∃ h, exec (.utcoffEffective dt) s =
      .next (onTu (fun t => { t with utcoff := off, utcvalid := true, utcNext := none, hist := h }) (advance dt s)) := by
  obtain ⟨h, change⟩ := tuChange_spec (fun t => { t with utcoff := off, utcvalid := true, utcNext := none }) (advance dt s)
  refine ⟨h, ?_⟩
  show execUtcoffEffective dt s = _
  simp only [execUtcoffEffective, hrun, hnext, hdue, change]
  rfl

theorem utcoffEffective_of_early {off : Int} {at_ : Nat} (hnext : (advance dt s).tu.utcNext = some (off, at_))
    (hearly : ptp16 (advance dt s) < at_) : exec (.utcoffEffective dt) s = .next (advance dt s) := by
  have notDue : ¬ at_ ≤ ptp16 (advance dt s) := by omega
  show execUtcoffEffective dt s = _
  simp only [execUtcoffEffective, hrun, hnext, notDue]
  rfl

/-! ## Edges on PPS_IN (R185) -/

section edge
variable (hpins : pinsTaken (advance dt s) = false) {sub : Nat}
include hpins

/-- What an active edge meets: the window behind the last one, or the servo's source. -/
theorem ppsInEdge_of_active (hsrc : (advance dt s).tu.src ≠ 2) (hsub : sub < 8) : let b := inTurn turnTime 0 0 (advance dt s)
    exec (.ppsInEdge dt (!(advance dt s).tu.ppsInFalling) sub) s = .next (
      if (advance dt s).tu.ppsLast.isSome && b.clk.now < (advance dt s).tu.ppsLastAt + msTicks (advance dt s).tu.ppsWindow then
        onTu (fun t => { t with ppsIgnored := t.ppsIgnored + 1 }) b
      else onTu (fun t => { t with
        ppsLast := some ((ptp16 b : Int) + sub * 32768 - calEff 0x0300 b).toNat, ppsLastAt := b.clk.now, ppsMissing := false }) b) := by
  intro b
  have waited : Waited (advance dt s) b := waited_inTurn turnTime 0 0 (advance dt s)
  have brun : running b = true := (waited.apart running (fun _ _ => rfl)).trans hrun
  have bpins : pinsTaken b = false := (waited.apart pinsTaken (fun _ _ => rfl)).trans hpins
  have btu (α : Type) (g : Tu → α) (hg : ∀ x, g { (advance dt s).tu with time := x } = g (advance dt s).tu) :
      g b.tu = g (advance dt s).tu := waited.apart (fun u => g u.tu) (fun _ => hg)
  have falling : b.tu.ppsInFalling = (advance dt s).tu.ppsInFalling := btu _ Tu.ppsInFalling (fun _ => rfl)
  have src : b.tu.src ≠ 2 := by rwa [btu _ Tu.src (fun _ => rfl)]
  have last : b.tu.ppsLast = (advance dt s).tu.ppsLast := btu _ Tu.ppsLast (fun _ => rfl)
  have at_ : b.tu.ppsLastAt = (advance dt s).tu.ppsLastAt := btu _ Tu.ppsLastAt (fun _ => rfl)
  have window : b.tu.ppsWindow = (advance dt s).tu.ppsWindow := btu _ Tu.ppsWindow (fun _ => rfl)
  have active : decide ((!(advance dt s).tu.ppsInFalling) = (advance dt s).tu.ppsInFalling) = false := by simp
  have part : ((sub % 8 * 32768 : Nat) : Int) = sub * 32768 := by omega
  show execPpsInEdge dt (!(advance dt s).tu.ppsInFalling) sub s = _
  unfold execPpsInEdge
  simp only [show inTurn turnTime 0 0 (advance dt s) = b from rfl, brun, bpins, falling, last, at_, window, part, onTu_tu,
    decide_eq_false src, active, Bool.not_true, Bool.false_or, Bool.false_and, Bool.false_eq_true, if_false]
  rfl

theorem ppsInEdge_taken (hsrc : (advance dt s).tu.src ≠ 2) (hsub : sub < 8) (hout : (advance dt s).tu.ppsLast = none ∨
      (advance dt s).tu.ppsLastAt + 250000 * (advance dt s).tu.ppsWindow ≤ (inTurn turnTime 0 0 (advance dt s)).clk.now) :
    let b := inTurn turnTime 0 0 (advance dt s)
    exec (.ppsInEdge dt (!(advance dt s).tu.ppsInFalling) sub) s = .next (onTu (fun t => { t with
      ppsLast := some ((ptp16 b : Int) + sub * 32768 - calEff 0x0300 b).toNat, ppsLastAt := b.clk.now, ppsMissing := false }) b) := by
  intro b
  have out : ((advance dt s).tu.ppsLast.isSome &&
      decide (b.clk.now < (advance dt s).tu.ppsLastAt + msTicks (advance dt s).tu.ppsWindow)) = false := by
    unfold msTicks
    rcases hout with hnone | hlate
    · rw [hnone]
      rfl
    · rw [Bool.and_eq_false_imp]
      intro _
      have late : (advance dt s).tu.ppsLastAt + 250000 * (advance dt s).tu.ppsWindow ≤ b.clk.now := hlate
      rw [decide_eq_false_iff_not]
      omega
  refine (ppsInEdge_of_active hrun hpins hsrc hsub).trans ?_
  rw [if_neg (by rw [out]; exact Bool.false_ne_true)]

theorem ppsInEdge_ignored (hsrc : (advance dt s).tu.src ≠ 2) (hsub : sub < 8) (hlast : (advance dt s).tu.ppsLast ≠ none)
    (hin : (inTurn turnTime 0 0 (advance dt s)).clk.now < (advance dt s).tu.ppsLastAt + 250000 * (advance dt s).tu.ppsWindow) :
    exec (.ppsInEdge dt (!(advance dt s).tu.ppsInFalling) sub) s =
      .next (onTu (fun t => { t with ppsIgnored := t.ppsIgnored + 1 }) (inTurn turnTime 0 0 (advance dt s))) := by
  have within : (inTurn turnTime 0 0 (advance dt s)).clk.now <
      (advance dt s).tu.ppsLastAt + msTicks (advance dt s).tu.ppsWindow := by
    unfold msTicks
    omega
  refine (ppsInEdge_of_active hrun hpins hsrc hsub).trans ?_
  rw [if_pos (by simp [Option.isSome_iff_ne_none.mpr hlast, within])]

end edge

end events


/-- Settles O47: the rows of the registers on a running device, and each event's row behind the ticks that pass before it. -/
theorem timeUnitEvents : Obligations.TimeUnitEvents := by
  unfold Obligations.TimeUnitEvents
  refine ⟨fun v s hrun => ⟨fun hstep hstate href => ?_, tuCtlStep_steps hrun, tuUncert_takes hrun v⟩, fun dt sub s => ?_⟩
  · obtain ⟨e, row⟩ := tuCtlSnap_takes hrun hstep hstate href
    exact ⟨_, row, rfl⟩
  · intro a hrun
    subst a
    refine ⟨holdoverEntry_of_due hrun, freerunEntry_of_due hrun, fun hsel _ => referenceLost_of_selected hrun hsel,
      fun hpins hsrc hsub => ?_, ppsInMissing_of_due hrun, ppsOutEdge_of_due hrun, ppsOutPulseEnd_of_due hrun,
      replicaReanchor_of_due hrun, fun off at_ hnext => ⟨utcoffEffective_of_due hrun hnext, utcoffEffective_of_early hrun hnext⟩⟩
    exact ⟨ppsInEdge_taken hrun hpins hsrc hsub, ppsInEdge_ignored hrun hpins hsrc hsub⟩

end Sys2Proof.Claim
end

section
/-! The time commands' operations: the servo's filter and lock (R190), and the ranges of instants and parameters (R179, R194). -/
namespace Sys2Proof.Claim
open Sys2Proof.Machine

/-! ## A command over what its operation leaves -/

/-- A Ready command whose operation keeps the commands' state ends with its reply over that operation. -/
theorem serve_next {opc : Nat} {c : Call} {s t : State} (h : Ready opc c s) {st : Nat} {tlvs : List Tlv}
    (hrun : run opc c (taken opc c s) = reply c st tlvs t) (ht : t.cmd = (taken opc c s).cmd) :
    (.next (serve opc c s) : Res) = .next (answered opc c st tlvs (onCmd (fun _ => s.cmd) t)) :=
  congrArg Host.Outcome.next (serve_body h hrun ht)

/-- A Ready command whose operation keeps the commands' state ends with OK over a state that reads as the operation left it. -/
theorem serve_with {opc : Nat} {c : Call} {s t : State} (h : Ready opc c s) {tlvs : List Tlv} {p : State → Prop}
    (hrun : run opc c (taken opc c s) = reply c stOk tlvs t) (ht : t.cmd = (taken opc c s).cmd) (hp : p (onCmd (fun _ => s.cmd) t)) :
    RepliesWith opc c tlvs p (.next (serve opc c s)) :=
  ⟨_, serve_next h hrun ht, hp⟩

theorem noneWaits_of_ready {opc : Nat} {c : Call} {s : State} (h : Ready opc c s) : NoneWaits (taken opc c s) := by
  obtain ⟨-, none, -⟩ := quiet_of_ready h
  exact none

theorem hasArg_eq (c : Call) (ty : Nat) : hasArg c ty = (argN c ty).isSome := by simp [hasArg, argN]

theorem badTime_of_range {c : Call} {ty : Nat} {b : Bytes} (hb : argOf c ty = some b) (hns : leNat (slice b 6 4) < 1000000000) :
    badTime c ty = false := by
  simp only [badTime, hb]
  exact decide_eq_false (by omega)

theorem badTime_of_missing {c : Call} {ty : Nat} (h : argOf c ty = none) : badTime c ty = false := by simp only [badTime, h]

theorem leNat_lt (b : Bytes) : leNat b < 256 ^ b.length := by
  induction b with
  | nil => simp [leNat]
  | cons x b ih =>
    have byte := x.isLt
    rw [leNat, List.length_cons, Nat.pow_succ']
    omega

/-- An instant with nanoseconds below a second lies within the 2^48 seconds the time has (R179, R218). -/
theorem bytesTime_lt {b : Bytes} (hns : leNat (slice b 6 4) < 1000000000) : bytesTime b / 65536 < 2 ^ 48 * 1000000000 := by
  have seconds : leNat (slice b 0 6) < 2 ^ 48 :=
    calc leNat (slice b 0 6) < 256 ^ (slice b 0 6).length := leNat_lt _
      _ ≤ 256 ^ 6 := Nat.pow_le_pow_right (by decide) (List.length_take_le _ _)
      _ = 2 ^ 48 := by decide
  have fraction : leNat (slice b 10 2) < 65536 :=
    calc leNat (slice b 10 2) < 256 ^ (slice b 10 2).length := leNat_lt _
      _ ≤ 256 ^ 2 := Nat.pow_le_pow_right (by decide) (List.length_take_le _ _)
      _ = 65536 := by decide
  unfold bytesTime
  omega

/-! ## The servo (R190) -/

/-- Whole nanoseconds of an offset, half upward (log 30). -/
theorem roundHalf_ns (x : Int) : roundHalf x 65536 = (2 * x + 65536) / 131072 := rfl

/-- A weight of one is no weight. -/
theorem roundHalf_weighted (x : Int) : roundHalf (x * (32768 : Nat)) (65536 * 32768) = (2 * x + 65536) / 131072 := by
  have scaled : 2 * (x * (32768 : Nat)) + 65536 * 32768 = (2 * x + 65536) * 32768 := by ring
  unfold roundHalf
  rw [scaled, show (2 * (65536 * 32768) : Int) = 131072 * 32768 by norm_num, Int.mul_ediv_mul_of_pos_left _ _ (by norm_num)]

/-- An offset within STEP_THR is not stepped over. -/
theorem notStepped_of_within {x : Int} {n : Nat} (h : x.natAbs ≤ n * 65536) : ¬ (n : Int) * (65536 * 32768) < (x * (32768 : Nat)).natAbs := by
  have within : (x.natAbs : Int) ≤ n * 65536 := by exact_mod_cast h
  rw [Int.natAbs_mul, Int.natAbs_natCast, Nat.cast_mul]
  push_cast at within ⊢
  linarith

/-- The rate at which the offset stands against the local time since the last measurement. -/
def servoRate (o t : Int) (u : Tu) : Int := (o * 65536 * 1000000000).tdiv (t - u.last)

/-- The integral term with a measurement. -/
def servoInteg (o t : Int) (u : Tu) : Int := clampI (u.integ + (u.ki : Int) * servoRate o t u / 65536) (-2147483648) 2147483647

/-- The frequency the filter sets. -/
def servoFreq (o t : Int) (u : Tu) : Int :=
  clampI (-((u.kp : Int) * servoRate o t u / 65536 + servoInteg o t u)) (-2147483648) 2147483647

/-- The filter behind an earlier measurement. -/
theorem servoFilter_of_later {o t : Int} {u : Tu} (hhave : u.haveLast = true) (hlater : u.last < t) :
    servoFilter o t u = { u with last := t, integ := servoInteg o t u, freq := servoFreq o t u } := by
  have forward : ¬ t - u.last ≤ 0 := by omega
  simp only [servoFilter, hhave, forward, Bool.not_true, Bool.false_eq_true, if_false]
  rfl

/-- After enough measurements in lock the STATE is written. -/
def lockJudged (s : State) : State := if s.tu.lockN ≤ s.tu.lockCount then writeTimeState 1 s else s

theorem lockJudged_spec (s : State) : (∃ v h, (lockJudged s).tu = { s.tu with state := v, hist := h }) ∧ (lockJudged s).fp = s.fp ∧
    (NoneWaits s → (lockJudged s).cmd = s.cmd) := by
  have judged : lockJudged s = s ∨ ∃ h, lockJudged s = raise 44 [] (onTu (fun t => { t with state := 1, hist := h }) s) := by
    unfold lockJudged
    split
    · exact writeTimeState_cases 1 s
    · exact .inl rfl
  rcases judged with h | ⟨l, h⟩
  · rw [h]
    exact ⟨⟨_, _, rfl⟩, rfl, fun _ => rfl⟩
  · rw [h, raise_tu, raise_fp]
    exact ⟨⟨_, _, rfl⟩, rfl, fun none => raise_cmd 44 [] none⟩

/-- The uncertainty is written in its turn, and the measurement counted towards the lock. -/
def uncertaintyJudged (v : Nat) (k : Tu → Nat) (s : State) : State := lockJudged (onTu (fun u => { u with lockCount := k u }) (writeUncert v s))

/-- The filter and the frames stay, and so does the time where the turn is now. -/
theorem uncertaintyJudged_spec (v : Nat) (k : Tu → Nat) (s : State) : let d := uncertaintyJudged v k s
    (d.tu.integ = s.tu.integ ∧ d.tu.freq = s.tu.freq ∧ d.tu.last = s.tu.last ∧ d.tu.offs = s.tu.offs ∧ d.tu.uset = v) ∧
      (smFind s.clk.turns (turnTime * 2 ^ 32) = none → d.tu.time = s.tu.time) ∧ d.fp = s.fp ∧ (NoneWaits s → d.cmd = s.cmd) := by
  obtain ⟨h, write⟩ := writeUncert_spec v s
  obtain ⟨c, x, turn⟩ := waited_inTurn turnTime 0 0 s
  have here (hfree : smFind s.clk.turns (turnTime * 2 ^ 32) = none) : x = s.tu.time := by
    have same := inTurn_time_of_free (s := s) 0 hfree
    rw [turn] at same
    exact congrArg Tu.time same
  simp only [uncertaintyJudged, write, turn, onTu_onTu]
  obtain ⟨⟨st, l, tu⟩, fp, cmd⟩ := lockJudged_spec (onTu _ { s with clk := c, tu := { s.tu with time := x } })
  refine ⟨?_, fun hfree => ?_, fp, cmd⟩ <;> rw [tu]
  · exact ⟨rfl, rfl, rfl, rfl, rfl⟩
  · exact here hfree

/-- The last eight offsets with a new one (R190). -/
def offsetsWith (o : Int) (t : Tu) : List Int := (t.offs ++ [o]).drop (t.offs.length - 7)

/-- The filter's work on a measurement that is not stepped over. -/
def filtered (o os t : Int) (s : State) : State := onTu (servoFilter os t) (onTu (fun u => { u with offs := offsetsWith o u }) s)

theorem filtered_of_later {o os t : Int} {s : State} (hhave : s.tu.haveLast = true) (hlater : s.tu.last < t) : (filtered o os t s).tu =
    { s.tu with offs := offsetsWith o s.tu, last := t, integ := servoInteg os t s.tu, freq := servoFreq os t s.tu } :=
  servoFilter_of_later (u := { s.tu with offs := offsetsWith o s.tu }) hhave hlater

/-- A measurement within STEP_THR runs the filter, writes the uncertainty in its turn and counts towards the lock. -/
theorem servoFeed_of_small {o16 : Int} {w : Nat} {t : Int} {s : State} (hsmall : ¬ (s.tu.stepThr : Int) * (65536 * 32768) < (o16 * w).natAbs) :
    servoFeed o16 w t s = uncertaintyJudged (min 0xFFFFFFFF (max 200 (2 * maxAbs (offsetsWith (roundHalf o16 65536) s.tu))))
      (fun u => if (u.lockThr : Int) * 65536 ≤ o16.natAbs then 0 else u.lockCount + 1)
      (filtered (roundHalf o16 65536) (roundHalf (o16 * w) (65536 * 32768)) t s) := by
  unfold servoFeed
  simp only [decide_eq_false hsmall, Bool.false_eq_true, if_false, Bool.false_or, decide_eq_true_eq]
  rfl

end Sys2Proof.Claim
end

section
/-! The time unit by command, and O30 (R187, R189, R190, R192, R194, R195). -/
namespace Sys2Proof.Claim
open Sys2Proof.Machine

section commands
variable {c : Call} {s : State}

/-! ## TIME_GET (R188, R194) -/

/-- A number rounded up to the next whole. -/
theorem ceil_eq {e u : Int} (hlow : (u - 1) * uScale < e) (hhigh : e ≤ u * uScale) : (e + uScale - 1) / uScale = u := by
  unfold uScale at *
  omega

theorem timeGet_reads (h : Ready 0x0601 c s) (hx : c.pkt.expert = false) {u : Nat} (hfree : s.tu.state = 0 → u = 0xFFFFFFFF)
    (hlocked : s.tu.state ≠ 0 → ((u : Int) - 1) * uScale < uEff (timeSnap s.tu) (ptp16 s) ∧
      uEff (timeSnap s.tu) (ptp16 s) ≤ u * uScale ∧ u ≤ 0xFFFFFFFE) :
    RepliesOk 0x0601 c [rtime 1 (ptp16 s), r8 2 s.tu.state, r32 3 u, r32 4 (ofSigned 4 s.tu.freq), r16 5 (ofSigned 2 s.tu.utcoff)]
      s (exec (.timeGet c) s) := by
  have shown : (if s.tu.state = 0 then 0xFFFFFFFF
      else min 0xFFFFFFFE ((uEff (timeSnap s.tu) (ptp16 s) + uScale - 1) / uScale).toNat) = u := by
    split
    next free => exact (hfree free).symm
    next known =>
      obtain ⟨hlow, hhigh, hmax⟩ := hlocked known
      rw [ceil_eq hlow hhigh, Int.toNat_natCast]
      exact Nat.min_eq_right hmax
  have hrun : run 0x0601 c (taken 0x0601 c s) = reply c stOk [rtime 1 (ptp16 s), r8 2 s.tu.state, r32 3 u,
      r32 4 (ofSigned 4 s.tu.freq), r16 5 (ofSigned 2 s.tu.utcoff)] (taken 0x0601 c s) := by
    show timeGetBody c (taken 0x0601 c s) = _
    rw [← shown]
    simp only [timeGetBody, hx, Bool.false_eq_true, if_false]
    rfl
  exact congrArg Host.Outcome.next (serve_replies h hrun)

/-! ## TIME_SET (R189) -/

theorem timeSet_steps (h : Ready 0x0602 c s) (hmay : c.pkt.expert = true ∨ s.tu.state = 0) (hrel : argN c 2 = none) {b : Bytes}
    (hb : argOf c 1 = some b) (hns : leNat (slice b 6 4) < 1000000000) :
    ∃ d, exec (.timeSet c) s = .next (answered 0x0602 c stOk [rtime 1 (ptp16 d)] d) ∧ d.tu.time = bytesTime b / 65536 * 2 ^ 48 ∧
      min 0xFFFFFFFF s.tu.uset ≤ d.tu.uset ∧ d.ev.pend.getLsbD 45 = true ∧ d.tu.freq = s.tu.freq ∧ d.tu.state = s.tu.state ∧
      d.nv = s.nv ∧ d.cpuC = s.cpuC := by
  have granted : (!c.pkt.expert && decide ((taken 0x0602 c s).tu.state ≠ 0)) = false := by
    rcases hmay with hx | hfree
    · rw [hx]
      rfl
    · rw [show (taken 0x0602 c s).tu.state = 0 from hfree]
      simp
  have absolute : (c.pkt.expert && hasArg c 2) = false := by rw [hasArg_eq, hrel, Option.isSome_none, Bool.and_false]
  have hrun : run 0x0602 c (taken 0x0602 c s) = reply c stOk [rtime 1 (ptp16 (stepAbs (bytesTime b / 65536) (taken 0x0602 c s)))]
      (stepAbs (bytesTime b / 65536) (taken 0x0602 c s)) := by
    show timeSetBody c (taken 0x0602 c s) = _
    simp only [timeSetBody, badTime_of_range hb hns, granted, absolute, hb, Bool.false_eq_true, if_false]
    rfl
  have row := serve_next h hrun (stepTo_cmd _ _ (noneWaits_of_ready h))
  have time := stepAbs_time (bytesTime b / 65536) (taken 0x0602 c s)
  rw [Nat.mod_eq_of_lt (bytesTime_lt hns)] at time
  rw [stepAbs_eq] at row time
  obtain ⟨_, m, _, _, _, tu⟩ := stepTo_tu ((bytesTime b / 65536 : Nat) * tuPerNs) (taken 0x0602 c s)
  have pend := stepTo_pend ((bytesTime b / 65536 : Nat) * tuPerNs) (taken 0x0602 c s)
  have nv := stepTo_nv ((bytesTime b / 65536 : Nat) * tuPerNs) (taken 0x0602 c s)
  have cpuC := stepTo_cpuC ((bytesTime b / 65536 : Nat) * tuPerNs) (taken 0x0602 c s)
  rw [show (taken 0x0602 c s).tu = s.tu from rfl] at tu
  generalize stepTo ((bytesTime b / 65536 : Nat) * tuPerNs) (taken 0x0602 c s) = t at row time tu pend nv cpuC
  have uset : min 0xFFFFFFFF s.tu.uset ≤ min 0xFFFFFFFF (max s.tu.uset m) := by omega
  refine ⟨_, row, time, ?_, pend, ?_, ?_, nv, cpuC⟩ <;> rw [onCmd_tu, tu]
  exact uset

/-! ## TIME_FEED (R190) -/

/-- The offset a measurement gives, in 2^-16 ns: CORR and MPD are in that unit (log 76). -/
def offsetFed (b1 b2 : Bytes) (m p : Nat) : Int := (bytesTime b2 : Int) - bytesTime b1 - toSigned 8 m - toSigned 8 p

theorem timeFeed_run (hx : c.pkt.expert = false) {b1 b2 : Bytes} {m p : Nat} (h1 : argOf c 1 = some b1) (h2 : argOf c 2 = some b2)
    (h3 : argN c 3 = some m) (h4 : argN c 4 = some p) (hns1 : leNat (slice b1 6 4) < 1000000000) (hns2 : leNat (slice b2 6 4) < 1000000000)
    {s : State} (hsrc : s.tu.src = 1) : run 0x0603 c s = reply c stOk [r64 1 (ofSigned 8 (roundHalf (offsetFed b1 b2 m p) 65536))]
      (servoFeed (offsetFed b1 b2 m p) 32768 ((bytesTime b2 / 65536 : Nat) : Int) s) := by
  show timeFeedBody c s = _
  simp only [timeFeedBody, badTime_of_range h1 hns1, badTime_of_range h2 hns2, hsrc, h1, h2, argD_of_argN h3, argD_of_argN h4, hx,
    Bool.false_eq_true, if_false, ne_eq, not_true_eq_false, Option.getD_some]
  rfl

theorem timeFeed_filters (h : Ready 0x0603 c s) (hx : c.pkt.expert = false) (hsrc : s.tu.src = 1) {b1 b2 : Bytes} {m p : Nat}
    (h1 : argOf c 1 = some b1) (h2 : argOf c 2 = some b2) (h3 : argN c 3 = some m) (h4 : argN c 4 = some p)
    (hns1 : leNat (slice b1 6 4) < 1000000000) (hns2 : leNat (slice b2 6 4) < 1000000000) :
    let o16 : Int := (bytesTime b2 : Int) - bytesTime b1 - toSigned 8 m - toSigned 8 p
    let o := (2 * o16 + 65536) / 131072
    let t : Int := ((bytesTime b2 / 65536 : Nat) : Int)
    o16.natAbs ≤ s.tu.stepThr * 65536 → s.tu.haveLast = true → s.tu.last < t →
    let r := (o * 65536 * 1000000000).tdiv (t - s.tu.last)
    let integ := clampI (s.tu.integ + (s.tu.ki : Int) * r / 65536) (-2147483648) 2147483647
    ∃ d, exec (.timeFeed c) s = .next (answered 0x0603 c stOk [r64 1 (ofSigned 8 o)] d) ∧ d.tu.integ = integ ∧
      d.tu.freq = clampI (-((s.tu.kp : Int) * r / 65536 + integ)) (-2147483648) 2147483647 ∧ d.tu.last = t ∧
      d.tu.offs = (s.tu.offs ++ [o]).drop (s.tu.offs.length - 7) ∧
      d.tu.uset = min 0xFFFFFFFF (max 200 (2 * maxAbs d.tu.offs)) ∧
      (smFind s.clk.turns (turnTime * 2 ^ 32) = none → d.tu.time = s.tu.time) ∧ d.fp = s.fp := by
  intro o16 o t hsmall hhave hlater r integ
  have rounded : roundHalf o16 65536 = o := roundHalf_ns o16
  have scaled : roundHalf (o16 * (32768 : Nat)) (65536 * 32768) = o := roundHalf_weighted o16
  have hrun := timeFeed_run hx h1 h2 h3 h4 hns1 hns2 (s := taken 0x0603 c s) hsrc
  change run 0x0603 c (taken 0x0603 c s) = reply c stOk [r64 1 (ofSigned 8 (roundHalf o16 65536))] (servoFeed o16 32768 t _) at hrun
  have feed := servoFeed_of_small (o16 := o16) (w := 32768) (t := t) (s := taken 0x0603 c s) (notStepped_of_within hsmall)
  rw [rounded, scaled, show (taken 0x0603 c s).tu = s.tu from rfl] at feed
  rw [rounded, feed] at hrun
  have filter := filtered_of_later (o := o) (os := o) (s := taken 0x0603 c s) hhave hlater
  have turns : (filtered o o t (taken 0x0603 c s)).clk.turns = s.clk.turns := rfl
  have fp : (filtered o o t (taken 0x0603 c s)).fp = s.fp := rfl
  have cmd : (filtered o o t (taken 0x0603 c s)).cmd = (taken 0x0603 c s).cmd := rfl
  generalize filtered o o t (taken 0x0603 c s) = f at hrun filter turns fp cmd
  obtain ⟨⟨hinteg, hfreq, hlast, hoffs, huset⟩, htime, hfp, hcmd⟩ := uncertaintyJudged_spec
    (min 0xFFFFFFFF (max 200 (2 * maxAbs (offsetsWith o s.tu))))
    (fun u => if (u.lockThr : Int) * 65536 ≤ o16.natAbs then 0 else u.lockCount + 1) f
  have none : NoneWaits f := by
    unfold NoneWaits
    rw [cmd]
    exact noneWaits_of_ready h
  have row := serve_next h hrun ((hcmd none).trans cmd)
  refine ⟨_, row, ?_, ?_, ?_, ?_, ?_, fun hfree => ?_, hfp.trans fp⟩ <;> rw [onCmd_tu]
  · rw [hinteg, filter]
    rfl
  · rw [hfreq, filter]
    rfl
  · rw [hlast, filter]
  · rw [hoffs, filter]
    rfl
  · rw [huset, hoffs, filter]
    rfl
  · rw [htime (by rw [turns]; exact hfree), filter]
    rfl

/-! ## TIME_SRC (R181, R190) -/

/-- The source and the servo's settings that TIME_SRC names. -/
def sourceGiven (c : Call) (v r : Nat) (t : Tu) : Tu :=
  let x (ty d : Nat) : Nat := if c.pkt.expert then argD c ty d else d
  { t with
    src := v, ref10 := decide (r = 1), haveLast := false, stepThr := x 3 t.stepThr, kp := x 4 t.kp, ki := x 5 t.ki
    lockThr := x 6 t.lockThr, lockN := x 7 t.lockN }

theorem timeSrc_sets (h : Ready 0x0604 c s) {v r : Nat} (hv : argN c 1 = some v) (hr : argN c 2 = some r) (hlock : argN c 7 ≠ some 0) :
    let x (ty d : Nat) : Nat := if c.pkt.expert then argD c ty d else d
    RepliesWith 0x0604 c [] (fun d =>
      d = { onTu (fun t => { t with
          src := v, ref10 := decide (r = 1), haveLast := false, stepThr := x 3 t.stepThr, kp := x 4 t.kp, ki := x 5 t.ki
          lockThr := x 6 t.lockThr, lockN := x 7 t.lockN, refSel := decide (r = 1), refOk := d.tu.refOk
          refPresent := d.tu.refPresent }) s with free := d.free } ∧
      (r = 0 ∨ s.tu.refPresent = true → d.tu.refOk = decide (r = 1) ∧ d.tu.refPresent = s.tu.refPresent ∧ d.free = s.free) ∧
      (d.tu.refOk = true → d.tu.refPresent = true ∨ r = 0))
      (exec (.timeSrc c) s) := by
  intro x
  let u := onTu (sourceGiven c v r) (taken 0x0604 c s)
  have hrun : run 0x0604 c (taken 0x0604 c s) = reply c stOk [] (writeRefSel (decide (r = 1)) u) := by
    show timeSrcBody c (taken 0x0604 c s) = _
    simp only [timeSrcBody, hlock, decide_false, Bool.and_false, Bool.false_eq_true, if_false, argD_of_argN hv, argD_of_argN hr]
    rfl
  obtain ⟨ok, there, n, write, known⟩ := writeRefSel_spec (decide (r = 1)) u
  refine serve_with h hrun (by rw [write]; rfl) ⟨?_, fun hpresent => ?_, fun hok => ?_⟩
  · rw [write]
    rfl
  · have present : decide (r = 1) = true → u.tu.refPresent = true := fun hsel => by
      rcases hpresent with rfl | hpresent
      · exact absurd hsel (by decide)
      · exact hpresent
    rw [writeRefSel_of_present present]
    exact ⟨rfl, rfl, rfl⟩
  · rw [write] at hok ⊢
    obtain ⟨-, hthere⟩ := known hok
    exact .inl hthere

/-! ## PPS_CFG (R185, R186) -/

theorem ppsMark_if (b : Bool) (s : State) : ∃ e, (if b then ppsMark s else s) = onTu (fun t => { t with ppsLastEdge := e }) s := by
  cases b
  · exact ⟨s.tu.ppsLastEdge, rfl⟩
  · exact ⟨_, rfl⟩

/-- The output is enabled as asked, or stays. -/
def outputAsked (c : Call) (s : State) : State := match argN c 1 with | some v => writePpsEn (v = 1) s | none => s

theorem outputAsked_spec (c : Call) (s : State) : ∃ e, outputAsked c s = onTu (fun t => { t with
    ppsOutEn := (match argN c 1 with | some v => decide (v = 1) | none => t.ppsOutEn), ppsLastEdge := e }) s := by
  unfold outputAsked
  cases argN c 1 with
  | none => exact ⟨s.tu.ppsLastEdge, rfl⟩
  | some v => exact writePpsEn_spec (decide (v = 1)) s

/-- The pulse's settings that PPS_CFG names, beside the output's enable. -/
def pulseGiven (c : Call) (w : Nat) (off : Int) (t : Tu) : Tu := { t with
  ppsWidth := w, ppsOffset := off, ppsInFalling := decide (argD c 4 (b2n t.ppsInFalling) = 1)
  ppsWindow := if c.pkt.expert then argD c 5 t.ppsWindow else t.ppsWindow }

theorem ppsCfg_sets (h : Ready 0x0605 c s) : let w := argD c 2 s.tu.ppsWidth
    let off := match argN c 3 with | some v => toSigned 4 v | none => s.tu.ppsOffset
    1000 ≤ w → w ≤ 500000000 → -500000000 ≤ off → off ≤ 500000000 →
    RepliesWith 0x0605 c [] (fun d => d = onTu (fun t => { t with
        ppsWidth := w, ppsOffset := off, ppsInFalling := decide (argD c 4 (b2n t.ppsInFalling) = 1)
        ppsWindow := if c.pkt.expert then argD c 5 t.ppsWindow else t.ppsWindow
        ppsOutEn := (match argN c 1 with | some v => decide (v = 1) | none => t.ppsOutEn), ppsLastEdge := d.tu.ppsLastEdge }) s)
      (exec (.ppsCfg c) s) := by
  intro w off hwlow hwhigh holow hohigh
  have width : (decide (w < 1000) || decide (500000000 < w)) = false := by simp [hwlow, hwhigh]
  have offset : (decide (off < -500000000) || decide (500000000 < off)) = false := by simp [holow, hohigh]
  let u := onTu (pulseGiven c w off) (taken 0x0605 c s)
  have hrun : run 0x0605 c (taken 0x0605 c s) = reply c stOk [] (outputAsked c (if hasArg c 3 then ppsMark u else u)) := by
    show (if decide (w < 1000) || decide (500000000 < w) then badParam c 2 (taken 0x0605 c s)
      else if decide (off < -500000000) || decide (500000000 < off) then badParam c 3 (taken 0x0605 c s)
      else replyOk c [] (outputAsked c (if hasArg c 3 then ppsMark u else u))) = _
    rw [width, offset]
    rfl
  obtain ⟨e, mark⟩ := ppsMark_if (hasArg c 3) u
  obtain ⟨e2, asked⟩ := outputAsked_spec c (if hasArg c 3 then ppsMark u else u)
  rw [asked, mark, onTu_onTu, onTu_onTu] at hrun
  exact serve_with h hrun rfl rfl

/-! ## TC_CFG (R192) -/

/-- The pair's correction settings that TC_CFG names. -/
def correctionGiven (c : Call) (q : Pair) : Pair :=
  { q with tcEn := decide (argD c 2 (b2n q.tcEn) = 1), tcMask := if c.pkt.expert then argD c 5 q.tcMask else q.tcMask }

/-- The link delays of the pair's two ports that TC_CFG names. -/
def delaysGiven (c : Call) (p : Nat) (l : SMap Nat) : SMap Nat :=
  let l := smSet 0 l (2 * p) (argD c 3 (smGet 0 l (2 * p)))
  smSet 0 l (2 * p + 1) (argD c 4 (smGet 0 l (2 * p + 1)))

theorem delaysGiven_spec (c : Call) (p : Nat) (l : SMap Nat) : smGet 0 (delaysGiven c p l) (2 * p) = argD c 3 (smGet 0 l (2 * p)) ∧
    smGet 0 (delaysGiven c p l) (2 * p + 1) = argD c 4 (smGet 0 l (2 * p + 1)) := by
  simp [delaysGiven, smGet_smSet]

theorem tcCfg_sets (h : Ready 0x0606 c s) {p : Nat} (hp : argN c 1 = some p) (hmax3 : argD c 3 0 ≤ 65535 * 65536)
    (hmax4 : argD c 4 0 ≤ 65535 * 65536) :
    RepliesWith 0x0606 c [] (fun d =>
      pairOf p d = { pairOf p s with
        tcEn := decide (argD c 2 (b2n (pairOf p s).tcEn) = 1)
        tcMask := if c.pkt.expert then argD c 5 (pairOf p s).tcMask else (pairOf p s).tcMask } ∧
      smGet 0 d.tu.ldelay (2 * p) = argD c 3 (smGet 0 s.tu.ldelay (2 * p)) ∧
      smGet 0 d.tu.ldelay (2 * p + 1) = argD c 4 (smGet 0 s.tu.ldelay (2 * p + 1)) ∧
      d = { s with tu := { s.tu with ldelay := d.tu.ldelay }, fp := { s.fp with pairs := d.fp.pairs } })
      (exec (.tcCfg c) s) := by
  have small3 : ¬ 65535 * 65536 < argD c 3 0 := by omega
  have small4 : ¬ 65535 * 65536 < argD c 4 0 := by omega
  have hrun : run 0x0606 c (taken 0x0606 c s) = reply c stOk []
      (onTu (fun t => { t with ldelay := delaysGiven c p t.ldelay }) (onPair p (correctionGiven c) (taken 0x0606 c s))) := by
    show tcCfgBody c (taken 0x0606 c s) = _
    simp only [tcCfgBody, argD_of_argN hp, small3, small4, decide_false, Bool.false_eq_true, if_false]
    rfl
  have pair : pairOf p (onPair p (correctionGiven c) s) = correctionGiven c (pairOf p s) :=
    (pairOf_onPair p p s (correctionGiven c)).trans (if_pos rfl)
  obtain ⟨even, odd⟩ := delaysGiven_spec c p s.tu.ldelay
  exact serve_with h hrun rfl ⟨pair, even, odd, rfl⟩

/-! ## TIME_CFG (R194, R195) -/

/-- The drift and the limits that TIME_CFG names. -/
def limitsGiven (c : Call) (t : Tu) : Tu := { t with drift := argD c 3 t.drift, holdto := argD c 4 t.holdto, umax := argD c 5 t.umax }

/-- The UTC offset comes into force as asked: at once, or at an instant to come. -/
def offsetGiven (c : Call) (s : State) : State :=
  match argN c 1 with
  | none => s
  | some v =>
    match (argOf c 2).map bytesTime with
    | some at_ =>
      if at_ ≤ ptp16 s then tuChange (fun t => { t with utcoff := toSigned 2 v, utcvalid := true, utcNext := none }) s
      else onTu (fun t => { t with utcNext := some (toSigned 2 v, at_) }) s
    | none => tuChange (fun t => { t with utcoff := toSigned 2 v, utcvalid := true, utcNext := none }) s

theorem offsetGiven_atOnce (hat : argOf c 2 = none) (s : State) : ∃ l, offsetGiven c s = onTu (fun t => { t with
    hist := l
    utcoff := (match argN c 1 with | some v => toSigned 2 v | none => t.utcoff)
    utcvalid := (match argN c 1 with | some _ => true | none => t.utcvalid)
    utcNext := (match argN c 1 with | some _ => none | none => t.utcNext) }) s := by
  unfold offsetGiven
  rw [hat]
  cases argN c 1 with
  | none => exact ⟨s.tu.hist, rfl⟩
  | some v => exact ⟨_, rfl⟩

theorem offsetGiven_later {v : Nat} {b : Bytes} (hv : argN c 1 = some v) (hb : argOf c 2 = some b) {s : State} (hlater : ptp16 s < bytesTime b) :
    offsetGiven c s = onTu (fun t => { t with utcNext := some (toSigned 2 v, bytesTime b) }) s := by
  unfold offsetGiven
  rw [hv, hb]
  exact if_neg (by omega)

theorem timeCfg_run (htime : badTime c 2 = false) (hdrift : argD c 3 0 ≤ 65535) (hhold : argD c 4 0 ≤ 255)
    (hmax : ∀ u, argN c 5 = some u → 1000 ≤ u ∧ (c.pkt.expert = true ∨ u ≤ 1000000)) (s : State) :
    run 0x0607 c s = reply c stOk [] (offsetGiven c (tuChange (limitsGiven c) s)) := by
  have drift : ¬ 65535 < argD c 3 0 := by omega
  have hold : ¬ 255 < argD c 4 0 := by omega
  have limit : (hasArg c 5 && (decide (argD c 5 s.tu.umax < 1000) || (!c.pkt.expert && decide (1000000 < argD c 5 s.tu.umax)))) = false := by
    rw [hasArg_eq, argD]
    cases hu : argN c 5 with
    | none => rfl
    | some u =>
      obtain ⟨hlow, hhigh⟩ := hmax u hu
      rcases hhigh with hx | hhigh
      · simp [hlow, hx]
      · simp [hlow, hhigh]
  show (if badTime c 2 then badParam c 2 s else if 65535 < argD c 3 0 then badParam c 3 s else if 255 < argD c 4 0 then badParam c 4 s
    else if hasArg c 5 && (decide (argD c 5 s.tu.umax < 1000) || (!c.pkt.expert && decide (1000000 < argD c 5 s.tu.umax))) then badParam c 5 s
    else replyOk c [] (offsetGiven c (tuChange (limitsGiven c) s))) = _
  rw [htime, if_neg drift, if_neg hold, limit]
  rfl

section config
variable (h : Ready 0x0607 c s)
include h

theorem timeCfg_sets (hat : argOf c 2 = none) (hdrift : argD c 3 0 ≤ 65535) (hhold : argD c 4 0 ≤ 255)
    (hmax : ∀ u, argN c 5 = some u → 1000 ≤ u ∧ (c.pkt.expert = true ∨ u ≤ 1000000)) :
    RepliesWith 0x0607 c [] (fun d => d = onTu (fun t => { t with
        drift := argD c 3 t.drift, holdto := argD c 4 t.holdto, umax := argD c 5 t.umax, hist := d.tu.hist
        utcoff := (match argN c 1 with | some v => toSigned 2 v | none => t.utcoff)
        utcvalid := (match argN c 1 with | some _ => true | none => t.utcvalid)
        utcNext := (match argN c 1 with | some _ => none | none => t.utcNext) }) s)
      (exec (.timeCfg c) s) := by
  have hrun := timeCfg_run (badTime_of_missing hat) hdrift hhold hmax (taken 0x0607 c s)
  obtain ⟨l, limits⟩ := tuChange_spec (limitsGiven c) (taken 0x0607 c s)
  obtain ⟨l2, given⟩ := offsetGiven_atOnce hat (tuChange (limitsGiven c) (taken 0x0607 c s))
  rw [given, limits, onTu_onTu] at hrun
  exact serve_with h hrun rfl rfl

theorem timeCfg_schedules (hdrift : argN c 3 = none) (hhold : argN c 4 = none) (hmax : argN c 5 = none) {v : Nat} {b : Bytes}
    (hv : argN c 1 = some v) (hb : argOf c 2 = some b) (hns : leNat (slice b 6 4) < 1000000000) (hlater : ptp16 s < bytesTime b) :
    RepliesWith 0x0607 c [] (fun d => d = onTu (fun t => { t with utcNext := some (toSigned 2 v, bytesTime b), hist := d.tu.hist }) s)
      (exec (.timeCfg c) s) := by
  have hrun := timeCfg_run (badTime_of_range hb hns) (by simp [argD, hdrift]) (by simp [argD, hhold]) (by simp [hmax]) (taken 0x0607 c s)
  have same (t : Tu) : limitsGiven c t = t := by simp [limitsGiven, argD, hdrift, hhold, hmax]
  obtain ⟨l, limits⟩ := tuChange_spec (limitsGiven c) (taken 0x0607 c s)
  simp only [same] at limits
  rw [offsetGiven_later hv hb (by rw [limits]; exact hlater), limits, onTu_onTu] at hrun
  exact serve_with h hrun rfl rfl

end config

end commands

/-- Settles O30, command by command. -/
theorem timeCommands : Obligations.TimeCommands := by
  unfold Obligations.TimeCommands
  intro c s
  exact ⟨fun h hx u hfree hlocked => timeGet_reads h hx hfree hlocked, fun h hmay hrel b hb hns => timeSet_steps h hmay hrel hb hns,
    fun h hx hsrc b1 b2 m p h1 h2 h3 h4 hns1 hns2 => timeFeed_filters h hx hsrc h1 h2 h3 h4 hns1 hns2,
    fun h v r hv hr hlock => timeSrc_sets h hv hr hlock, ppsCfg_sets, fun h p hp h3 h4 => tcCfg_sets h hp h3 h4,
    timeCfg_sets, fun h hdrift hhold hmax v b hv hb hns hlater => timeCfg_schedules h hdrift hhold hmax hv hb hns hlater⟩

end Sys2Proof.Claim
end

section
/-! Check groups by command, and O31 (R200, R201, R203, R208, R209). -/
namespace Sys2Proof.Claim
open Sys2Proof.Machine

/-! ## What the work on one group leaves (R203, R208, R209) -/

theorem groupOf_onGroup_other {g x : Nat} (h : x ≠ g) (f : Group → Group) (s : State) : groupOf x (onGroup g f s) = groupOf x s :=
  smGet_smMod_other ({} : Group) s.co.groups f h

/-- Entries and nonvolatile state stand, and so do the other groups, and the commands when no applet waits. -/
structure GroupAlone (g : Nat) (s u : State) : Prop where
  nv : u.nv = s.nv
  se : u.se = s.se
  others : ∀ x, x ≠ g → groupOf x u = groupOf x s
  cmd : NoneWaits s → u.cmd = s.cmd

section alone
variable {g : Nat}

theorem GroupAlone.refl (s : State) : GroupAlone g s s := ⟨rfl, rfl, fun _ _ => rfl, fun _ => rfl⟩

theorem GroupAlone.trans {s t u : State} (h : GroupAlone g s t) (k : GroupAlone g t u) : GroupAlone g s u := by
  refine ⟨k.nv.trans h.nv, k.se.trans h.se, fun x hx => (k.others x hx).trans (h.others x hx), fun none => ?_⟩
  have same := h.cmd none
  exact (k.cmd (by unfold NoneWaits; rw [same]; exact none)).trans same

theorem GroupAlone.foldl {α : Type} {f : State → α → State} {l : List α} (h : ∀ x ∈ l, ∀ s, GroupAlone g s (f s x)) (s : State) :
    GroupAlone g s (l.foldl f s) := by
  induction l generalizing s with
  | nil => exact .refl s
  | cons x l ih =>
    exact (h x (List.mem_cons_self ..) s).trans (ih (fun y hy => h y (List.mem_cons_of_mem _ hy)) _)

theorem groupAlone_onGroup (f : Group → Group) (s : State) : GroupAlone g s (onGroup g f s) :=
  ⟨rfl, rfl, fun _ hx => groupOf_onGroup_other hx f s, fun _ => rfl⟩

theorem groupAlone_raise (d : List Nat) (s : State) : GroupAlone g s (raise 77 d s) :=
  ⟨raise_nv (by decide) (by decide) d s, raise_se .., fun _ _ => by simp only [groupOf, raise_co], raise_cmd 77 d⟩

theorem groupAlone_retire (n : Nat) (s : State) : GroupAlone g s (retire g n s) := by
  have posted (a : Ans) (u : State) : GroupAlone g u (postAnswer g n a u) := ⟨rfl, rfl, fun _ _ => rfl, fun _ => rfl⟩
  have tallied (u : State) : GroupAlone g u (tally g .incomplete u) := by
    unfold tally
    simp only
    split
    · exact (groupAlone_onGroup _ u).trans (groupAlone_raise [g] _)
    · exact groupAlone_onGroup _ u
  exact ((groupAlone_onGroup _ s).trans (tallied _)).trans (posted _ _)

theorem groupAlone_clearGroup (s : State) : GroupAlone g s (clearGroup g s) := by
  unfold clearGroup
  extract_lets a b
  have retired : GroupAlone g s a := GroupAlone.foldl (fun c _ u => by
    split
    · exact .refl u
    · exact groupAlone_retire c.n u) s
  have unqueued : GroupAlone g a b := ⟨rfl, rfl, fun _ _ => rfl, fun _ => rfl⟩
  exact (retired.trans unqueued).trans (groupAlone_onGroup _ b)

/-! ## Removing a group (R208) -/

/-- A group's books are cleared and it is no group any more. -/
def groupRemoved (s : State) (g : Nat) : State := onCo (fun u => { u with groups := smDel u.groups g }) (clearGroup g s)

theorem groupOf_groupRemoved (s : State) (x : Nat) : groupOf x (groupRemoved s g) = if x = g then {} else groupOf x (clearGroup g s) := by
  unfold groupRemoved groupOf smGet
  rw [onCo_co, smFind_smDel]
  split <;> rfl

theorem groupAlone_groupRemoved (s : State) : GroupAlone g s (groupRemoved s g) :=
  (groupAlone_clearGroup s).trans ⟨rfl, rfl, fun x hx => by rw [groupOf_groupRemoved, if_neg hx], fun _ => rfl⟩

/-- Where every number named is that of one group, that group is removed, and blank when it was none. -/
theorem foldl_groupRemoved {l : List Nat} (hl : ∀ x ∈ l, x = g) {s : State} (hblank : g ∉ l → groupOf g s = {}) :
    groupOf g (l.foldl groupRemoved s) = {} ∧ GroupAlone g s (l.foldl groupRemoved s) := by
  constructor
  · rcases List.eq_nil_or_concat l with rfl | ⟨r, x, rfl⟩
    · exact hblank List.not_mem_nil
    · rw [List.concat_eq_append, List.foldl_append, hl x (by simp)]
      exact (groupOf_groupRemoved ..).trans (if_pos rfl)
  · refine GroupAlone.foldl (fun x hx u => ?_) s
    rw [hl x hx]
    exact groupAlone_groupRemoved u

theorem groupOf_of_unlisted {s : State} (h : g ∉ groupNos s.co.groups) : groupOf g s = {} := by
  rcases smGet_cases {} s.co.groups g with blank | listed
  · exact blank
  · exact absurd (List.mem_map_of_mem (f := (·.1)) listed) h

end alone

section commands
variable {c : Call} {s : State}

/-! ## CONS_SET (R200, R201, R208) -/

/-- The settings of the basic form over a group. -/
def groupGiven (ops : List Operand) (thr prop w : Nat) (p : Group) : Group :=
  { p with ops := ops, thr := thr, prop := prop, w := w, rate := w, d := 8, accept := 0 }

/-- What clearing does to a group with no instant open. -/
theorem clearGroup_of_blank {g : Nat} {s : State} (h : groupOf g s = {}) : clearGroup g s =
    onGroup g (fun p => { p with
      slots := [], pend := [], nCons := 0, nIncons := 0, nInc := 0, nStale := 0, incArmed := false, lastRec := none, primed := false, top := 0 })
      (onCo (fun u => { u with queue := u.queue.filter (fun e => e.group ≠ g) }) s) := by
  unfold clearGroup
  rw [h]
  rfl

theorem groupOf_clearGroup_of_blank {g : Nat} {s : State} (h : groupOf g s = {}) : groupOf g (clearGroup g s) = {} := by
  rw [clearGroup_of_blank h, groupOf_onGroup_same]
  simp only [groupOf, onCo_co]
  rw [show smGet {} s.co.groups g = {} from h]

theorem onGroup_clearGroup_of_blank {g : Nat} {f : Group → Group} {s : State} (h : groupOf g s = {}) :
    ∃ gs q, onGroup g f (clearGroup g s) = onCo (fun u => { u with groups := gs, queue := q }) s := by
  rw [clearGroup_of_blank h]
  exact ⟨_, _, rfl⟩

/-- The basic form's offsets are those of the channel (R201). -/
theorem basicOffsets (l : List Bytes) :
    (l.map parseOperand).map (fun o => { o with sOff := 8 * o.chan, qOff := 8 * o.chan + 4 }) = l.map parseOperand := by
  rw [List.map_map]
  rfl

section set
variable {g thr prop w : Nat} (hx : c.pkt.expert = false) (hg : argN c 1 = some g) (hthr : argN c 3 = some thr) (hprop : argN c 4 = some prop)
  (hgiven : argsOf c 2 ≠ [])
include hx hg hthr hprop hgiven

/-- A new group within the limits is made over cleared books. -/
theorem consSetBody_of_new {s : State} (hnew : groupOf g s = {}) (hgood : ∀ b ∈ argsOf c 2, operandBad b s = false)
    (hwrap : ∀ o ∈ (argsOf c 2).map parseOperand, smpWrapOf o.idx s = w) (hw : w ≤ 14400) (hrate : rateSum s + w ≤ 58982400)
    (hrefs : ∀ i, (s.co.groups.map (fun e => e.2.ops.countP (fun o => o.live && o.idx == i))).sum +
      ((argsOf c 2).map parseOperand).countP (fun o => o.idx == i) ≤ 16) :
    consSetBody c s = replyOk c [] (onGroup g (groupGiven ((argsOf c 2).map parseOperand) thr prop w) (clearGroup g s)) := by
  have good : (argsOf c 2).findIdx? (fun b => operandBad b s) = none := by
    simpa [List.findIdx?_eq_none_iff] using hgood
  have head : smpWrapOf (((argsOf c 2).map parseOperand).headD { idx := 0, chan := 0, gain := 0, sOff := 0, qOff := 0 }).idx s = w := by
    obtain ⟨b, l, hl⟩ := List.exists_cons_of_ne_nil hgiven
    exact hwrap _ (by simp [hl])
  have agree : ((argsOf c 2).map parseOperand).any (fun o => smpWrapOf o.idx s ≠ w) = false := by
    simpa using hwrap
  have refs (o : Operand) : ¬ 16 < (s.co.groups.map (fun (n, p) => if n = g then 0 else p.ops.countP (fun q => q.live && q.idx == o.idx))).sum +
      ((argsOf c 2).map parseOperand).countP (fun q => q.live && q.idx == o.idx) := by
    have others : (s.co.groups.map (fun (n, p) => if n = g then 0 else p.ops.countP (fun q => q.live && q.idx == o.idx))).sum ≤
        (s.co.groups.map (fun e => e.2.ops.countP (fun q => q.live && q.idx == o.idx))).sum :=
      List.sum_le_sum fun e _ => by
        simp only
        split <;> omega
    have own : ((argsOf c 2).map parseOperand).countP (fun q => q.live && q.idx == o.idx) ≤
        ((argsOf c 2).map parseOperand).countP (fun q => q.idx == o.idx) :=
      List.countP_mono_left fun q _ hq => by simp_all
    have most := hrefs o.idx
    omega
  have within : ((argsOf c 2).map parseOperand).any (fun o => o.live &&
      decide (16 < (s.co.groups.map (fun (n, p) => if n = g then 0 else p.ops.countP (fun q => q.live && q.idx == o.idx))).sum +
        ((argsOf c 2).map parseOperand).countP (fun q => q.live && q.idx == o.idx))) = false :=
    List.any_eq_false.2 fun o _ => by simp only [decide_eq_false (refs o), Bool.and_false, Bool.false_eq_true, not_false_eq_true]
  have limits : (decide (14400 < w) || decide (58982400 < rateSum s - 0 + w)) = false := by
    simp only [Bool.or_eq_false_iff, decide_eq_false_iff_not]
    omega
  unfold consSetBody
  simp only [argD_of_argN hg, argD_of_argN hthr, argD_of_argN hprop, hnew, hx, good, if_neg hgiven, basicOffsets, hasArg_eq, hthr, hprop,
    Bool.false_eq_true, if_false, Bool.false_and]
  simp only [head, agree, limits, within, hgiven, ne_eq, not_true_eq_false, decide_false, Option.isSome_some, Bool.not_true, Bool.false_and,
    Bool.and_false, Bool.false_eq_true, if_false]
  rfl

theorem consSet_makes (h : Ready 0x0701 c s) (hnew : groupOf g s = {}) (hgood : ∀ b ∈ argsOf c 2, operandBad b s = false) :
    let ops := (argsOf c 2).map parseOperand
    (∀ o ∈ ops, smpWrapOf o.idx s = w) → w ≤ 14400 → rateSum s + w ≤ 58982400 →
    (∀ i, (s.co.groups.map (fun e => e.2.ops.countP (fun o => o.live && o.idx == i))).sum + ops.countP (fun o => o.idx == i) ≤ 16) →
    RepliesWith 0x0701 c [] (fun d => groupOf g d = { ops := ops, thr := thr, prop := prop, w := w, rate := w, d := 8 } ∧
        (∀ x, x ≠ g → groupOf x d = groupOf x s) ∧ d = { s with co := { s.co with groups := d.co.groups, queue := d.co.queue } })
      (exec (.consSet c) s) := by
  intro ops hwrap hw hrate hrefs
  have hrun : run 0x0701 c (taken 0x0701 c s) =
      reply c stOk [] (onGroup g (groupGiven ops thr prop w) (clearGroup g (taken 0x0701 c s))) :=
    consSetBody_of_new hx hg hthr hprop hgiven (s := taken 0x0701 c s) hnew hgood hwrap hw hrate hrefs
  have alone : GroupAlone g (taken 0x0701 c s) (clearGroup g (taken 0x0701 c s)) := groupAlone_clearGroup _
  refine serve_with h hrun (alone.cmd (noneWaits_of_ready h)) ⟨?_, fun x hother => ?_, ?_⟩
  · show groupOf g (onGroup g _ (clearGroup g (taken 0x0701 c s))) = _
    rw [groupOf_onGroup_same, groupOf_clearGroup_of_blank (s := taken 0x0701 c s) hnew]
    rfl
  · show groupOf x (onGroup g _ (clearGroup g (taken 0x0701 c s))) = _
    rw [groupOf_onGroup_other hother]
    exact alone.others x hother
  · obtain ⟨gs, q, written⟩ := onGroup_clearGroup_of_blank (f := groupGiven ops thr prop w) (s := taken 0x0701 c s) hnew
    rw [written]
    rfl

end set

/-! ## CONS_DEL (R208) -/

theorem consDel_removes (h : Ready 0x0702 c s) (hx : c.pkt.expert = false) {g : Nat} (hg : argN c 1 = some g) :
    RepliesWith 0x0702 c [] (fun d => groupOf g d = {} ∧ (∀ x, x ≠ g → groupOf x d = groupOf x s) ∧ d.nv = s.nv ∧ d.se = s.se)
      (exec (.consDel c) s) := by
  let named := (groupNos s.co.groups).filter (fun x => g ≤ x && x ≤ g)
  have only (x : Nat) (hmem : x ∈ named) : x = g := by
    have bounds := List.of_mem_filter hmem
    simp only [Bool.and_eq_true, decide_eq_true_eq] at bounds
    omega
  have blank (hout : g ∉ named) : groupOf g (taken 0x0702 c s) = {} :=
    groupOf_of_unlisted (s := s) fun hmem => hout (List.mem_filter.2 ⟨hmem, by simp⟩)
  have hrun : run 0x0702 c (taken 0x0702 c s) = reply c stOk [] (named.foldl groupRemoved (taken 0x0702 c s)) := by
    show consDelBody c (taken 0x0702 c s) = _
    simp only [consDelBody, argD_of_argN hg, hx, Bool.false_eq_true, if_false, Nat.lt_irrefl]
    rfl
  obtain ⟨removed, alone⟩ := foldl_groupRemoved only blank
  generalize named.foldl groupRemoved (taken 0x0702 c s) = d at hrun removed alone
  exact serve_with h hrun (alone.cmd (noneWaits_of_ready h)) ⟨removed, alone.others, alone.nv, alone.se⟩

/-! ## CONS_GET and CONS_STATUS (R203, R209) -/

theorem consGet_reports (h : Ready 0x0703 c s) (hx : c.pkt.expert = false) {g : Nat} (hg : argN c 1 = some g)
    (hops : (groupOf g s).ops ≠ []) : let p := groupOf g s
    ∃ dfn last, RepliesOk 0x0703 c [rtlv 1 dfn, r32 2 p.nCons, r32 3 p.nIncons, r32 4 p.nInc, r32 5 p.nStale, rtlv 6 last] s
      (exec (.consGet c) s) := by
  intro p
  have hrun : run 0x0703 c (taken 0x0703 c s) = consGetBody c (taken 0x0703 c s) := rfl
  simp only [consGetBody, argD_of_argN hg, hx, Bool.false_eq_true, if_false] at hrun
  rw [show groupOf g (taken 0x0703 c s) = groupOf g s from rfl, if_neg hops] at hrun
  exact ⟨_, _, congrArg Host.Outcome.next (serve_replies h hrun)⟩

theorem consStatus_reports (h : Ready 0x0704 c s) :
    let ev := (s.co.evalTimes.filter (fun t => s.clk.now < t + 250000000)).length
    RepliesOk 0x0704 c ([r32 1 (s.co.groups.map (fun e => e.2.rate)).sum, r32 2 ev] ++ (if c.pkt.expert then [r32 3 s.co.hwm] else []))
      (if c.pkt.expert then onCo (fun u => { u with hwm := u.queue.length }) s else s) (exec (.consStatus c) s) := by
  intro ev
  have hrun : run 0x0704 c (taken 0x0704 c s) = consStatusBody c (taken 0x0704 c s) := rfl
  cases hx : c.pkt.expert with
  | true =>
    simp only [consStatusBody, hx, if_true] at hrun
    exact congrArg Host.Outcome.next (serve_over (d := onCo (fun u => { u with hwm := u.queue.length }) s) h hrun rfl)
  | false =>
    simp only [consStatusBody, hx, Bool.false_eq_true, if_false] at hrun
    exact congrArg Host.Outcome.next (serve_replies h hrun)

end commands

/-- Settles O31, command by command. -/
theorem consCommands : Obligations.ConsCommands := by
  unfold Obligations.ConsCommands
  intro c s
  exact ⟨fun h hx g thr prop hg hthr hprop hnew hgiven hgood w hwrap hw hrate hrefs =>
      consSet_makes hx hg hthr hprop hgiven h hnew hgood hwrap hw hrate hrefs,
    fun h hx g hg => consDel_removes h hx hg, fun h hx g hg hops => consGet_reports h hx hg hops, consStatus_reports⟩

end Sys2Proof.Claim
end

section
/-! A quiet device, and the commands of a sender that is gone (R232, R298, R522). -/
namespace Sys2Proof.Claim
open Sys2Proof.Machine

theorem stuck_nil_of_quiet {s : State} (h : Quiet s) : s.cmd.stuck = [] := by
  obtain ⟨-, -, hstuck⟩ := h
  exact hstuck

/-- Where no command of the transport is owed a reply and no badge read waits, only the transport's session is set aside. -/
theorem orphan_of_others {v : Via} {s : State} (h : ∀ o ∈ s.cmd.owed, o.call.via ≠ v ∧ o.wait ≠ .badge) :
    orphan v s = onApplet (100 + turnNo v) (fun a => { a with sess := sessOf v s }) s := by
  have kept (f : Owed × Nat → Owed) : s.cmd.owed.zipIdx.map (fun x => if x.1.call.via = v then f x else x.1) = s.cmd.owed := by
    refine Eq.trans (List.map_congr_left fun x hx => ?_) (List.zipIdx_map_fst 0 _)
    exact if_neg (h x.1 (List.fst_mem_of_mem_zipIdx hx)).1
  have noOwner : s.cmd.owed.find? (fun o => o.wait == .badge) = none := by simpa using fun o ho => (h o ho).2
  have sameBadge : s.cl.badge.map (fun b => b) = s.cl.badge := by cases s.cl.badge <;> rfl
  unfold orphan
  simp only [onCmd, onApplet, onCl, kept, noOwner, Option.map_none, Option.getD_none, sameBadge]

end Sys2Proof.Claim
end

section
/-! The ring registers and the doorbell of a command ring, and the SPI target (R227 to R230, R522), and O59. -/
namespace Sys2Proof.Claim
open Sys2Proof.Machine

/-! ## Changes of one ring -/

theorem ringOf_onRing (r q : Nat) (f : Ring → Ring) (s : State) :
    ringOf q (onRing r f s) = if q = r then f (ringOf r s) else ringOf q s := smGet_smMod ({} : Machine.Ring) s.cmd.rings r q f

@[simp] theorem ringOf_onRing_same (r : Nat) (f : Ring → Ring) (s : State) : ringOf r (onRing r f s) = f (ringOf r s) := by
  simp [ringOf_onRing]

/-- A change of a ring is what it makes of that ring. -/
theorem onRing_congr {r : Nat} {f g : Ring → Ring} {s : State} (h : f (ringOf r s) = g (ringOf r s)) :
    onRing r f s = onRing r g s := by
  have same : smMod {} s.cmd.rings r f = smMod {} s.cmd.rings r g := congrArg (smSet ({} : Machine.Ring) s.cmd.rings r) h
  exact congrArg (fun x => onCmd (fun c => { c with rings := x }) s) same

theorem onRing_onRing {r : Nat} {f g : Ring → Ring} {s : State} (hf : f (ringOf r s) ≠ {}) (hg : g (f (ringOf r s)) ≠ {}) :
    onRing r g (onRing r f s) = onRing r (fun x => g (f x)) s := by
  have both := smMod_smMod ({} : Machine.Ring) s.cmd.rings r f g hf hg
  exact congrArg (fun x => onCmd (fun c => { c with rings := x }) s) both

theorem Calm.onRing {s : State} (h : Calm s) (r : Nat) {f : Ring → Ring} (hf : ∀ g, g.fetched = [] → (f g).fetched = []) :
    Calm (onRing r f s) := by
  obtain ⟨run, owed, swap, ctl, vlt, quiet, due⟩ := h
  exact ⟨run, owed, swap, ctl, vlt, quiet.onRing r f hf, due.of_parts rfl rfl rfl rfl rfl⟩

theorem Calm.onApplet {s : State} (h : Calm s) (i : Nat) {f : Applet → Applet} (hf : ∀ a, a.wait = .none → (f a).wait = .none) :
    Calm (onApplet i f s) := by
  obtain ⟨run, owed, swap, ctl, vlt, quiet, due⟩ := h
  exact ⟨run, owed, swap, ctl, vlt, quiet.onApplet i f hf, due.of_parts rfl rfl rfl rfl rfl⟩

/-- A ring whose bases and size have been committed by a write of CRQ_BASE_HI (R522). -/
def committedRing (v : Word) (g : Machine.Ring) : Machine.Ring :=
  { g with
    reqHi := v, reqBase := g.reqLo.toNat + 2 ^ 32 * v.toNat, rspBase := g.rspLo.toNat + 2 ^ 32 * g.rspHi.toNat
    size := if 4 ≤ g.sizeReg ∧ g.sizeReg ≤ 10 then 2 ^ g.sizeReg else 0
    reqTail := 0, reqHead := 0, rspHead := 0, rspTail := 0, phase := true, sess := {}, fetched := [] }

section ring
variable {r : Fin 4} {s : State} (h : Calm s)
include h

/-! ## The registers (R522) -/

theorem commitRing_of_calm (v : Word) : commitRing r v s =
    onRing r (committedRing v) (onApplet (100 + turnNo (.ring r)) (fun a => { a with sess := sessOf (.ring r) s }) s) := by
  unfold commitRing
  rw [orphan_of_others (by simp [owed_nil_of_calm h])]
  exact onRing_congr (by simp [committedRing])

variable (hlink : pcieDown s = false)
include hlink

theorem hostReaches_of_calm : hostReaches s = true := by simp [hostReaches, running_of_calm h, hlink]

theorem crqBaseHi_commits (v : Word) : ∃ d, exec (.crqBaseHi r v) s = .next d ∧ ringOf r d = committedRing v (ringOf r s) ∧
    (∀ q, q ≠ r.val → ringOf q d = ringOf q s) ∧ d = { s with cmd := d.cmd } ∧ d.cmd.owed = [] ∧ d.cmd.spiSess = s.cmd.spiSess := by
  let t := onApplet (100 + turnNo (.ring r)) (fun a => { a with sess := sessOf (.ring r) s }) s
  have committed : commitRing r v s = onRing r (committedRing v) t := commitRing_of_calm h v
  have kept : Calm t := h.onApplet _ fun _ ha => ha
  have calm : Calm (onRing r (committedRing v) t) := kept.onRing _ fun _ _ => rfl
  have row : exec (.crqBaseHi r v) s = .next (onRing r (committedRing v) t) := by
    show execCrqBaseHi r v s = _
    simp only [execCrqBaseHi, hostReaches_of_calm h hlink, if_true, committed, settle_of_calm calm]
    rfl
  refine ⟨_, row, ringOf_onRing_same r _ t, fun q hq => ?_, rfl, owed_nil_of_calm calm, rfl⟩
  rw [ringOf_onRing, if_neg hq]
  rfl

theorem crpHead_returns (n : Nat) : exec (.crpHead r n) s = .next (onRing r (fun g => { g with
    rspHead := if g.size = 0 then n % 1024 else n % 1024 % g.size }) s) := by
  have calm : Calm (returnReplies r n s) := h.onRing r fun _ hg => hg
  show execCrpHead r n s = _
  simp only [execCrpHead, hostReaches_of_calm h hlink, if_true, settle_of_calm calm]
  rfl

/-! ## The doorbell (R228, R522) -/

theorem crqTail_rings (n : Nat) (l : List RingReq) : exec (.crqTail r n l) s = .next (settle (ringDoorbell r n l s)) := by
  show execCrqTail r n l s = _
  simp only [execCrqTail, hostReaches_of_calm h hlink, if_true, done]

/-- A tail that gives no entry is only noted. -/
theorem crqTail_of_none {n t : Nat} {l : List RingReq}
    (hnone : ringDoorbell r n l s = onRing r (fun g => { g with reqTail := t }) s) :
    exec (.crqTail r n l) s = .next (onRing r (fun g => { g with reqTail := t }) s) := by
  rw [crqTail_rings h hlink, hnone]
  exact congrArg Host.Outcome.next (settle_of_calm (h.onRing r fun _ hg => hg))

theorem crqTail_of_disabled (hsize : (ringOf r s).size = 0) (n : Nat) (l : List RingReq) :
    exec (.crqTail r n l) s = .next (onRing r (fun g => { g with reqTail := n % 1024 }) s) :=
  crqTail_of_none h hlink (onRing_congr (by simp only [hsize, if_true]))

theorem crqTail_of_sameTail (hsize : (ringOf r s).size ≠ 0) {n : Nat} (htail : n % 1024 % (ringOf r s).size = (ringOf r s).reqTail)
    (l : List RingReq) : exec (.crqTail r n l) s = .next (onRing r (fun g => { g with reqTail := g.reqTail }) s) := by
  have none_ : ringDoorbell r n l s = onRing r (fun g => { g with reqTail := (ringOf r s).reqTail }) s := by
    refine onRing_congr ?_
    simp only [hsize, if_false, htail, Nat.add_sub_cancel_left, Nat.mod_self, List.take_zero, Nat.zero_sub, List.replicate_zero,
      List.append_nil]
  rw [crqTail_of_none h hlink none_]
  exact congrArg Host.Outcome.next (onRing_congr rfl)

end ring

/-! ## The entry a doorbell gives (R228, R230) -/

/-- The ring's tail has moved over one entry, which the device holds. -/
def entryGiven (r : Nat) (q : RingReq) (s : State) : State :=
  onRing r (fun g => { g with reqTail := (g.reqTail + 1) % g.size, fetched := [q] }) s

/-- The ring's tail and head have moved over one entry, which the device has taken. -/
def entryTaken (r : Nat) (s : State) : State :=
  onRing r (fun g => { g with reqTail := (g.reqTail + 1) % g.size, reqHead := (g.reqHead + 1) % g.size }) s

theorem rings_filter_only : ∀ r : Fin 4, ([0, 1, 2, 3] : List (Fin 4)).filter (fun i => decide (i = r)) = [r] := by decide

theorem backlog_eq (s : State) : backlog s = (ringOf (0 : Fin 4) s).fetched.length + (ringOf (1 : Fin 4) s).fetched.length +
    (ringOf (2 : Fin 4) s).fetched.length + (ringOf (3 : Fin 4) s).fetched.length + s.cmd.stuck.length := by
  simp [backlog, Nat.add_assoc]

section entry
variable {r : Fin 4} {q : RingReq} {s : State}

theorem ringDoorbell_of_next (h : Calm s) {n : Nat} (hsize : 1 < (ringOf r s).size) (hold : (ringOf r s).reqTail < (ringOf r s).size)
    (htail : n % 1024 % (ringOf r s).size = ((ringOf r s).reqTail + 1) % (ringOf r s).size) :
    ringDoorbell r n [q] s = entryGiven r q s := by
  have enabled : (ringOf r s).size ≠ 0 := by omega
  have one : (((ringOf r s).reqTail + 1) % (ringOf r s).size + (ringOf r s).size - (ringOf r s).reqTail) % (ringOf r s).size = 1 := by
    by_cases hwrap : (ringOf r s).reqTail + 1 < (ringOf r s).size
    · rw [Nat.mod_eq_of_lt hwrap, show (ringOf r s).reqTail + 1 + (ringOf r s).size - (ringOf r s).reqTail = (ringOf r s).size + 1 by omega,
        Nat.add_mod_left, Nat.mod_eq_of_lt hsize]
    · rw [show (ringOf r s).reqTail + 1 = (ringOf r s).size by omega, Nat.mod_self,
        show 0 + (ringOf r s).size - (ringOf r s).reqTail = 1 by omega, Nat.mod_eq_of_lt hsize]
  refine onRing_congr ?_
  simp only [enabled, if_false, htail, one, (quiet_of_calm h).ring r]
  rfl

theorem Calm.entryTaken (h : Calm s) : Calm (entryTaken r s) := h.onRing r fun _ hg => hg

/-- The only request that waits is the one the ring has been given: the next turn is its. -/
theorem nextVia_of_only (hready : ∀ i : Fin 4, ringReady i s = decide (i = r)) (hstuck : s.cmd.stuck = []) :
    nextVia s = some (.ring r) := by
  unfold nextVia readyVias
  simp only [hready, rings_filter_only, hstuck]
  rfl

theorem fetched_entryGiven (h : Quiet s) (i : Fin 4) : (ringOf i (entryGiven r q s)).fetched = if i = r then [q] else [] := by
  rw [entryGiven, ringOf_onRing]
  by_cases hi : i = r
  · simp [hi]
  · rw [if_neg (fun hv => hi (Fin.ext hv)), if_neg hi, h.ring i]

theorem backlog_entryGiven (h : Quiet s) : backlog (entryGiven r q s) = 1 := by
  have stuck : (entryGiven r q s).cmd.stuck = [] := stuck_nil_of_quiet (s := s) h
  simp only [backlog_eq, fetched_entryGiven h, stuck]
  fin_cases r <;> rfl

/-- A calm device has room for the request, and its ring is ready while one more reply fits (R228, R235). -/
theorem ringReady_entryGiven (h : Calm s) (hsize : 1 < (ringOf r s).size)
    (hroom : ((ringOf r s).rspTail + (ringOf r s).size - (ringOf r s).rspHead) % (ringOf r s).size + 1 < (ringOf r s).size) (i : Fin 4) :
    ringReady i (entryGiven r q s) = decide (i = r) := by
  have held := fetched_entryGiven (r := r) (q := q) (quiet_of_calm h) i
  unfold ringReady
  by_cases hi : i = r
  · subst hi
    rw [if_pos rfl] at held
    have owed : (entryGiven i q s).cmd.owed = [] := owed_nil_of_calm (s := s) h
    have fits : packetFits (.ring i) (min (reqLen q) 16384) q.packet (entryGiven i q s) = true := by
      obtain ⟨-, -, hswap, -, hvlt, -⟩ := h
      have swap : (entryGiven i q s).plat.swap = none := hswap
      have vault : (entryGiven i q s).cpuV.restarting = none := hvlt
      simp [packetFits, holdRoom, swapHolds, swap, vault]
    have room : 0 < replyRoom (ringOf i (entryGiven i q s)) := by
      simp only [entryGiven, ringOf_onRing_same, replyRoom]
      omega
    have enabled : (ringOf i (entryGiven i q s)).size ≠ 0 := by
      simp only [entryGiven, ringOf_onRing_same]
      omega
    simp [held, fits, outstanding, owed, room, enabled]
  · rw [if_neg hi] at held
    simp [held, hi]

/-- The reply to the request at ring entry i when its buffer is too small: the BAD_PARAM header (R228). -/
def smallReply (r : Fin 4) (q : RingReq) (i : Nat) (s : State) : Reply :=
  let p := parsePacket (min (reqLen q) 16384) q.packet
  let c : Call := { via := .ring r, desc := i, pkt := p.pkt, rsp := rspAddr q }
  mkReply c p.opcode stBadParam [] (replyVersion c s)

/-- The request is not executed: the reply goes to its buffer, or below 16 bytes the ring entry alone is written (R228, R234). -/
def turnedAway (r : Fin 4) (q : RingReq) (a : Reply) (s : State) : State :=
  if 16 ≤ rspMax q then deliver a s else ringPut r a 0 s

theorem smallReply_congr {t : State} (h : sessOf (.ring r) t = sessOf (.ring r) s) (i : Nat) : smallReply r q i t = smallReply r q i s := by
  simp only [smallReply, replyVersion, h]

theorem takeRing_entryGiven (h : Quiet s) (hsize : 1 < (ringOf r s).size) :
    (16384 ≤ rspMax q → takeRing r (entryGiven r q s) =
      takeBytes (.ring r) (ringOf r s).reqHead (rspAddr q) (min (reqLen q) 16384) q.packet (entryTaken r s)) ∧
    (rspMax q < 16384 → controlDown s = false → takeRing r (entryGiven r q s) =
      turnedAway r q (smallReply r q (ringOf r s).reqHead s) (myTurn (.ring r) (entryTaken r s))) := by
  have enabled {g : Machine.Ring} (hg : g.size = (ringOf r s).size) : g ≠ {} := by
    rintro rfl
    exact absurd hsize (by rw [← hg]; decide)
  have given : ringOf r (entryGiven r q s) =
      { ringOf r s with reqTail := ((ringOf r s).reqTail + 1) % (ringOf r s).size, fetched := [q] } := ringOf_onRing_same _ _ _
  have left : onRing r (fun g => { g with fetched := [], reqHead := ((ringOf r s).reqHead + 1) % g.size }) (entryGiven r q s) =
      entryTaken r s := by
    unfold entryGiven
    rw [onRing_onRing (enabled rfl) (enabled rfl)]
    exact onRing_congr (by simp [h.ring r])
  unfold takeRing
  simp only [given, left]
  constructor
  · intro hmax
    rw [if_pos hmax]
  · intro hmax hup
    have up : controlDown (myTurn (.ring r) (entryTaken r s)) = false := hup
    have session : sessOf (.ring r) (myTurn (.ring r) (entryTaken r s)) = sessOf (.ring r) s := by
      rw [sessOf_myTurn]
      simp only [sessOf, entryTaken, ringOf_onRing_same]
    rw [← smallReply_congr session]
    simp only [if_neg (Nat.not_le.mpr hmax), up, Bool.false_eq_true, if_false]
    rfl

theorem startWaiting_of_noneOwed (h : s.cmd.owed = []) : startWaiting s = s := startWaiting_of_awaitsTime (by simp [h])

theorem crqTail_of_next (h : Calm s) (hlink : pcieDown s = false) {n : Nat} (hsize : 1 < (ringOf r s).size)
    (hold : (ringOf r s).reqTail < (ringOf r s).size) (htail : n % 1024 % (ringOf r s).size = ((ringOf r s).reqTail + 1) % (ringOf r s).size)
    (hroom : ((ringOf r s).rspTail + (ringOf r s).size - (ringOf r s).rspHead) % (ringOf r s).size + 1 < (ringOf r s).size) :
    exec (.crqTail r n [q]) s =
      .next (returnCall .vault (returnCall .control (startWaiting (takeRing r (entryGiven r q s))))) := by
  have idle : Idle (entryGiven r q s) := by
    obtain ⟨hswap, hctl, hvlt, hdue, hheld⟩ := idle_of_calm h
    exact ⟨hswap, hctl, hvlt, hdue.of_parts rfl rfl rfl rfl rfl, hheld⟩
  have owed : (entryGiven r q s).cmd.owed = [] := owed_nil_of_calm (s := s) h
  have stuck : (entryGiven r q s).cmd.stuck = [] := stuck_nil_of_quiet (s := s) (quiet_of_calm h)
  have caught : catchUp (entryGiven r q s) = entryGiven r q s := by rw [catchUp_of_idle idle, startWaiting_of_noneOwed owed]
  have next : nextVia (entryGiven r q s) = some (.ring r) := nextVia_of_only (ringReady_entryGiven h hsize hroom) stuck
  rw [crqTail_rings h hlink, ringDoorbell_of_next h hsize hold htail, settle, caught, backlog_entryGiven (quiet_of_calm h)]
  simp only [takeTurns, next]

theorem calm_turnedAway (h : Calm s) (a : Reply) : Calm (turnedAway r q a s) := by
  unfold turnedAway
  split
  · exact h.deliver _
  · obtain ⟨hrun, howed, hswap, hctl, hvlt, hquiet, hdue⟩ := h
    have quiet := ringPut_quiet r a 0 hquiet
    obtain ⟨_, _, _, _, _, _, _, parts⟩ := ringPut_handed r a 0 s
    rw [parts] at quiet ⊢
    exact ⟨hrun, howed, hswap, hctl, hvlt, quiet, hdue.of_parts rfl rfl rfl rfl rfl⟩

/-- The answer to a request that is not executed ends its row. -/
theorem rowEnd_turnedAway (h : Calm s) (a : Reply) :
    returnCall .vault (returnCall .control (startWaiting (turnedAway r q a s))) = turnedAway r q a s := by
  have calm : Calm (turnedAway r q a s) := calm_turnedAway h a
  rw [startWaiting_of_noneOwed (owed_nil_of_calm calm), returnCall_of_quiet _ (quiet_of_calm calm),
    returnCall_of_quiet _ (quiet_of_calm calm)]

end entry

/-! ## The SPI target (R229) -/

section spi
variable {s : State} (hrun : running s = true) (hpins : pinsTaken s = false)
include hrun hpins

theorem spiUp_of_running : spiUp s = true := by simp [spiUp, hrun, hpins]

/-- A PUT to a calm device with a free slot is taken. -/
theorem spiPut_taken (h : Calm s) (hslots : spiSlots s < 16) (b : Bytes) :
    exec (.spiPut b) s = .next (settle (takeBytes .spi 0 0 16384 b s)) := by
  have quiet := quiet_of_calm h
  have noneOwed : (outstanding .spi s).length = 0 := by simp [outstanding, owed_nil_of_calm h]
  have noneStuck (v : Via) : stuckOf v s = 0 := by simp [stuckOf, stuck_nil_of_quiet quiet]
  have space : spiSpace s = true := by simp [spiSpace, spiOutstanding, noneOwed, noneStuck, hslots]
  have fits : packetFits .spi 16384 b s = true := holdRoom_of_calm h _ _
  have offered : offer .spi b s = takeBytes .spi 0 0 16384 b s := by simp [offer, noneStuck, fits]
  show execSpiPut b s = _
  simp only [execSpiPut, spiUp_of_running hrun hpins, space, offered, Bool.not_true, Bool.false_eq_true, if_false, if_true, done]

/-- One made while SPACE is 0 is turned away. -/
theorem spiPut_turnedAway (hspace : spiSpace s = false) (b : Bytes) : exec (.spiPut b) s =
    .next (spiTurnAway (parsePacket 16384 b).opcode { via := .spi, desc := 0, pkt := (parsePacket 16384 b).pkt } s) := by
  show execSpiPut b s = _
  simp only [execSpiPut, spiUp_of_running hrun hpins, hspace, Bool.not_true, Bool.false_eq_true, if_false, done]

theorem spiPut_busy (hfull : 8 ≤ spiOutstanding s) (hslots : spiSlots s < 16) (b : Bytes) :
    ∃ x, exec (.spiPut b) s = .next (onCmd (fun c => { c with spiReplies := c.spiReplies ++ [x] }) (emit (.reply x) s)) ∧
      x.status = stBusy ∧ x.via = .spi ∧ x.tag = (parsePacket 16384 b).pkt.tag := by
  have space : spiSpace s = false := by simp [spiSpace, Nat.not_lt.mpr hfull]
  let c : Call := { via := .spi, desc := 0, pkt := (parsePacket 16384 b).pkt }
  refine ⟨mkReply c (parsePacket 16384 b).opcode stBusy [] (replyVersion c s), ?_, rfl, rfl, rfl⟩
  rw [spiPut_turnedAway hrun hpins space, spiTurnAway, if_pos hslots]
  rfl

theorem spiPut_discarded (hslots : 16 ≤ spiSlots s) (b : Bytes) :
    exec (.spiPut b) s = .next (raise 101 [] (onCmd (fun c => { c with spiOverrun := (c.spiOverrun + 1) % 2 ^ 32 }) s)) := by
  have space : spiSpace s = false := by simp [spiSpace, Nat.not_lt.mpr hslots]
  rw [spiPut_turnedAway hrun hpins space, spiTurnAway, if_neg (Nat.not_lt.mpr hslots)]

theorem spiGet_of_empty (hnone : s.cmd.spiReplies = []) (n : Nat) :
    exec (.spiGet n) s = .next (emit (.spi ([0, 0].take n)) s) := by
  show execSpiGet n s = _
  simp only [execSpiGet, spiUp_of_running hrun hpins, hnone, Bool.not_true, Bool.false_eq_true, if_false, done]

theorem spiGet_of_reply {x : Reply} {l : List Reply} (hsome : s.cmd.spiReplies = x :: l) (n : Nat) : let b := replyBytes x
    exec (.spiGet n) s = .next (emit (.spi ((natLE 2 b.length ++ b).take n))
      (if 2 + b.length ≤ n then onCmd (fun c => { c with spiReplies := l }) s else s)) := by
  intro b
  show execSpiGet n s = _
  simp only [execSpiGet, spiUp_of_running hrun hpins, hsome, Bool.not_true, Bool.false_eq_true, if_false, done]
  split <;> rfl

theorem spiStatus_tells : exec .spiStatus s = .next (emit (.spi [BitVec.ofNat 8 ((if isReady s then 1 else 0) +
    (if spiOutstanding s < 8 ∧ spiSlots s < 16 then 2 else 0) + (if s.cmd.spiReplies = [] then 0 else 4))]) s) := by
  have rdy : b2n (isReady s) = if isReady s then 1 else 0 := rfl
  have space : 2 * b2n (spiSpace s) = if spiOutstanding s < 8 ∧ spiSlots s < 16 then 2 else 0 := by
    by_cases h : spiOutstanding s < 8 ∧ spiSlots s < 16 <;> simp [spiSpace, b2n, h]
  have rsp : 4 * b2n (s.cmd.spiReplies ≠ []) = if s.cmd.spiReplies = [] then 0 else 4 := by
    by_cases h : s.cmd.spiReplies = [] <;> simp [b2n, h]
  show execSpiStatus s = _
  simp only [execSpiStatus, spiUp_of_running hrun hpins, rdy, space, rsp, Bool.not_true, Bool.false_eq_true, if_false, done]

end spi

/-- Settles O59: the registers, the doorbell and its one entry, and the SPI rows. -/
theorem ringsAndSpi : Obligations.RingsAndSpi := by
  unfold Obligations.RingsAndSpi
  refine ⟨fun r v n s h hlink => ?_, fun s hrun hpins => ?_⟩
  · refine ⟨crqBaseHi_commits h hlink v, crpHead_returns h hlink n, fun hsize => crqTail_of_disabled h hlink hsize n,
      fun hsize htail => crqTail_of_sameTail h hlink hsize htail, fun q _ hsize hold htail hroom => ?_⟩
    have row := crqTail_of_next (q := q) h hlink hsize hold htail hroom
    obtain ⟨executed, turned⟩ := takeRing_entryGiven (q := q) (quiet_of_calm h) hsize
    refine ⟨fun hmax => ?_, fun hmax hup => ?_⟩
    · rw [row, executed hmax]
      rfl
    · have calm : Calm (myTurn (.ring r) (entryTaken r s)) := h.entryTaken.myTurn _
      have turn : myTurn (.ring r) (entryTaken r s) = onCmd (fun y => { y with turn := r.val + 1 }) (entryTaken r s) := by
        have short : (r.val + 1) % turnCount = r.val + 1 := Nat.mod_eq_of_lt (by unfold turnCount; omega)
        simp only [myTurn, turnNo, short]
      rw [row, turned hmax hup, rowEnd_turnedAway calm, turn]
      rfl
  · exact ⟨fun b h hslots => spiPut_taken hrun hpins h hslots b, fun b hfull hslots => spiPut_busy hrun hpins hfull hslots b,
      fun b hslots => spiPut_discarded hrun hpins hslots b, fun n hnone => spiGet_of_empty hrun hpins hnone n,
      fun n x l hsome => spiGet_of_reply hrun hpins hsome n, spiStatus_tells hrun hpins⟩

end Sys2Proof.Claim
end

section
/-! The tag in the field: its identifier, its activation, the selection of an application and the exchange with the vault core
(R287 to R299), and O51. -/
namespace Sys2Proof.Claim
open Sys2Proof.Machine

/-! ## What the field changes -/

/-- A write of the tag memory changes its bytes, its faulty words and, in a collapse, the writes that still complete. -/
theorem tagPut_parts (a : Nat) (b : Bytes) (s : State) : ∃ m w f,
    tagPut a b s = { s with nv := { s.nv with tag := m, torn := w }, cl := { s.cl with fuel := f } } := by
  unfold tagPut
  split
  · exact ⟨_, _, s.cl.fuel, rfl⟩
  · exact ⟨_, _, _, rfl⟩

@[simp] theorem tagPut_plat (a : Nat) (b : Bytes) (s : State) : (tagPut a b s).plat = s.plat := by
  obtain ⟨_, _, _, h⟩ := tagPut_parts a b s
  rw [h]

@[simp] theorem orphan_plat (v : Via) (s : State) : (orphan v s).plat = s.plat := rfl

@[simp] theorem quieted_plat (iso : Iso) (s : State) : (quieted iso s).plat = s.plat := by simp [quieted]

theorem running_congr {s t : State} (h : t.plat = s.plat) : running t = running s := by simp only [running, h]

/-- The commands of a sender that is gone stay owed, to another sender. -/
theorem orphan_owed (v : Via) (s : State) : (orphan v s).cmd.owed.length = s.cmd.owed.length ∧
    (v ≠ .applet .control (100 + turnNo v) → ∀ o ∈ (orphan v s).cmd.owed, o.call.via ≠ v) := by
  unfold orphan
  simp only [onCl_cmd, onCmd_cmd]
  refine ⟨by simp [onApplet], fun hv o ho => ?_⟩
  obtain ⟨x, -, rfl⟩ := List.mem_map.mp ho
  split
  · exact hv.symm
  · assumption

/-! ## Field on and field loss (R287, R291, R292, R294) -/

section coming
variable {s : State}

theorem fieldOn_of_noField (hfield : s.cl.field = false) :
    let v := (tctr s + 1) % 2 ^ 64
    let w := tagPut 112 (natLE 8 v) s
    let b := aesEnc (tagBytes 96 16 w) (natBE 8 v ++ List.replicate 8 0xA5)
    let d := onCl (fun c => { c with field := true, uid := BitVec.ofNat 32 (beNat (0x08#8 :: b.take 3)) }) (quieted .idle w)
    (running s = false → exec .fieldOn s = .next d) ∧ (running s = true → exec .fieldOn s = .next (raise 151 [] d)) := by
  intro v w b d
  have same : running d = running s := running_congr (by simp [d, w])
  have row : exec .fieldOn s = .next (if running d then raise 151 [] d else d) := by
    show execFieldOn s = _
    simp only [execFieldOn, hfield, Bool.false_eq_true, if_false]
    rfl
  rw [row, same]
  exact ⟨fun h => by simp [h], fun h => by simp [h]⟩

variable (hfield : s.cl.field = true)
include hfield

theorem fieldOn_again : exec .fieldOn s = .next s := by
  show execFieldOn s = _
  simp only [execFieldOn, hfield, if_true, done]

theorem fieldLoss_quiets : let d := quieted .idle (onCl (fun c => { c with field := false }) s)
    exec .fieldLoss s = .next d ∧ d.cmd.owed.length = s.cmd.owed.length ∧ ∀ o ∈ d.cmd.owed, o.call.via ≠ .contactless := by
  intro d
  obtain ⟨kept, others⟩ := orphan_owed .contactless (onCl (fun c => { c with
    field := false, iso := .idle, fromHalted := false, rats := false, dsi := 0, dri := 0, app := .none, sec := .closed, rndB := none, cc := 0 }) s)
  refine ⟨?_, kept, others (by simp)⟩
  show execFieldLoss s = _
  simp only [execFieldLoss, hfield, if_true]
  rfl

end coming

/-! ## Activation (R291 to R293) and the exchange of blocks (R295 to R299) -/

/-- The state in which an application has been selected, or not (R295, R303). -/
def selecting (app : TagApp) (s : State) : State :=
  onCl (fun c => { c with sec := .closed, rndB := none, frameTo := s.clk.now + 295, app := app }) s

theorem vaultRuns_iff (s : State) : vaultRuns s = true ↔
    s.plat.pwrOk = true ∧ isReady s = true ∧ s.cpuV.stopped = false ∧ s.cpuV.halted = false := by
  simp [vaultRuns, and_assoc]

section answering
variable {s : State} (hfield : s.cl.field = true) (hrole : (if s.plat.pwrOk then s.cl.role else storedMode s) = 1)
include hfield hrole

theorem tagUp_of_field : tagUp s = true := by simp [tagUp, clRole, hfield, hrole]

/-- What a row answers while the tag engine is up. -/
theorem up_answers (x y : Res) : (if !tagUp s then x else y) = y := by simp [tagUp_of_field hfield hrole]

theorem reqaWupa_of_idle (hiso : s.cl.iso = .idle) (i : Instr) (hi : i = .reqa ∨ i = .wupa) :
    exec i s = .next (emit (.field [0x04, 0x00]) (onCl (fun c => { c with iso := .ready, fromHalted := false }) s)) := by
  rcases hi with rfl | rfl
  · show execReqa s = _
    simp only [execReqa, up_answers hfield hrole, hiso]
    rfl
  · show execWupa s = _
    simp only [execWupa, up_answers hfield hrole, hiso]
    rfl

theorem reqaWupa_of_halted (hiso : s.cl.iso = .halted) : exec .reqa s = .next s ∧
    exec .wupa s = .next (emit (.field [0x04, 0x00]) (onCl (fun c => { c with iso := .ready, fromHalted := true }) s)) := by
  constructor
  · show execReqa s = _
    simp only [execReqa, up_answers hfield hrole, hiso, done]
  · show execWupa s = _
    simp only [execWupa, up_answers hfield hrole, hiso]
    rfl

theorem reqaWupa_is_error (hiso : s.cl.iso = .ready ∨ s.cl.iso = .active) :
    exec .reqa s = .next (tagError s) ∧ exec .wupa s = .next (tagError s) := by
  constructor
  · show execReqa s = _
    rcases hiso with hiso | hiso <;>
      simp only [execReqa, up_answers hfield hrole, hiso, done]
  · show execWupa s = _
    rcases hiso with hiso | hiso <;>
      simp only [execWupa, up_answers hfield hrole, hiso, done]

/-- SELECT with the identifier of the field, where no journal group is left open (R291, R310). -/
theorem selectCard_of_uid (hiso : s.cl.iso = .ready) (hclosed : jhdrSeq s = jdoneSeq s) :
    exec (.selectCard s.cl.uid) s = .next (emit (.field (withCrc [0x20])) (onCl (fun c => { c with iso := .active }) s)) := by
  have recovered : tagRecover (say (withCrc [0x20]) (onCl (fun c => { c with iso := .active }) s)) =
      say (withCrc [0x20]) (onCl (fun c => { c with iso := .active }) s) := if_pos hclosed
  show execSelectCard s.cl.uid s = _
  simp only [execSelectCard, up_answers hfield hrole, hiso, recovered, if_true]
  rfl

theorem selectCard_of_other (hiso : s.cl.iso = .ready) {u : BitVec 32} (hu : u ≠ s.cl.uid) :
    exec (.selectCard u) s = .next (tagError s) := by
  show execSelectCard u s = _
  simp only [execSelectCard, up_answers hfield hrole, hiso, hu, if_true, if_false, done]

theorem selectCard_of_active (hiso : s.cl.iso = .active) (u : BitVec 32) : exec (.selectCard u) s = .next (tagError s) := by
  show execSelectCard u s = _
  simp only [execSelectCard, up_answers hfield hrole, hiso, reduceCtorEq, if_false, if_true, done]

theorem hlta_of_ready (hiso : s.cl.iso = .ready) : exec .hlta s = .next (tagError s) := by
  show execHlta s = _
  simp only [execHlta, up_answers hfield hrole, hiso, done]

theorem hlta_of_active (hiso : s.cl.iso = .active) : exec .hlta s = .next (quieted .halted s) := by
  show execHlta s = _
  simp only [execHlta, up_answers hfield hrole, hiso]
  rfl

theorem rats_answers (hiso : s.cl.iso = .active) (hrats : s.cl.rats = false) : exec .rats s =
    .next (emit (.field (withCrc [0x05, 0x78, 0x33, 0x60, 0x02])) (onCl (fun c => { c with rats := true, frameTo := s.clk.now + 295 }) s)) := by
  show execRats s = _
  simp only [execRats, tagUp_of_field hfield hrole, hiso, hrats, Bool.not_false, beq_self_eq_true, Bool.and_self, if_true]
  rfl

section block
variable (hiso : s.cl.iso = .active) (hrats : s.cl.rats = true)
include hiso hrats

theorem apduReady_of_rats : apduReady s = true := by simp [apduReady, tagUp_of_field hfield hrole, hiso, hrats]

theorem pps_answers (happ : s.cl.app = .none) {dsi dri : Nat} (hdsi : dsi ≤ 2) (hdri : dri ≤ 2) : exec (.pps dsi dri) s =
    .next (emit (.field (withCrc [0xD0])) (onCl (fun c => { c with dsi := dsi, dri := dri, frameTo := s.clk.now + 295 }) s)) := by
  show execPps dsi dri s = _
  simp only [execPps, tagUp_of_field hfield hrole, hiso, hrats, happ, hdsi, hdri, beq_self_eq_true, decide_true, Bool.and_self, if_true]
  rfl

theorem sDeselect_answers : exec .sDeselect s =
    .next (emit (.field (withCrc [0xC2])) (onCl (fun c => { c with frameTo := s.clk.now + 295 }) (quieted .halted s))) := by
  show execSDeselect s = _
  simp only [execSDeselect, tagUp_of_field hfield hrole, hiso, hrats, beq_self_eq_true, Bool.and_self, if_true]
  rfl

theorem selectApplication_eq (aid : Bytes) : exec (.selectApplication aid) s = .next (
    if aid = aidTag then emit (.sw 0x9000 []) (selecting .tag s)
    else if aid = aidCommand then
      if vaultRuns s = true then emit (.sw 0x9000 []) (onCmd (fun c => { c with clSess := true }) (selecting .command s))
      else emit (.sw 0x6985 []) (selecting s.cl.app s)
    else emit (.sw 0x6A82 []) (selecting s.cl.app s)) := by
  have same : vaultRuns (onCl (fun c => { c with sec := .closed, rndB := none }) (hears s)) = vaultRuns s := rfl
  show execSelectApplication aid s = _
  simp only [execSelectApplication, apduReady_of_rats hfield hrole hiso hrats, same, Bool.not_true, Bool.false_eq_true, if_false]
  split
  · rfl
  · split
    · cases vaultRuns s <;> rfl
    · rfl

theorem selectApplication_tag : exec (.selectApplication aidTag) s = .next (emit (.sw 0x9000 []) (selecting .tag s)) := by
  rw [selectApplication_eq hfield hrole hiso hrats, if_pos rfl]

theorem selectApplication_command (hup : vaultRuns s = true) : exec (.selectApplication aidCommand) s =
    .next (emit (.sw 0x9000 []) (onCmd (fun c => { c with clSess := true }) (selecting .command s))) := by
  rw [selectApplication_eq hfield hrole hiso hrats, if_neg (by decide), if_pos rfl, if_pos hup]

theorem selectApplication_unavailable (hup : ¬ vaultRuns s = true) : exec (.selectApplication aidCommand) s =
    .next (emit (.sw 0x6985 []) (selecting s.cl.app s)) := by
  rw [selectApplication_eq hfield hrole hiso hrats, if_neg (by decide), if_pos rfl, if_neg hup]

theorem selectApplication_unknown {aid : Bytes} (htag : aid ≠ aidTag) (hcmd : aid ≠ aidCommand) : exec (.selectApplication aid) s =
    .next (emit (.sw 0x6A82 []) (selecting s.cl.app s)) := by
  rw [selectApplication_eq hfield hrole hiso hrats, if_neg htag, if_neg hcmd]

section command
variable (happ : s.cl.app = .command) (hexec : s.cl.execAt = none)
include happ hexec

theorem exec7816_offers (hup : vaultRuns s = true) (pkt : Bytes) : exec (.exec7816 pkt) s = .next (settle (offer .contactless pkt
    (onCl (fun c => { c with execAt := some s.clk.now, frameTo := s.clk.now + 295 }) s))) := by
  have framed : readerFrame (onCl (fun c => { c with execAt := some s.clk.now }) s) =
      onCl (fun c => { c with execAt := some s.clk.now, frameTo := s.clk.now + 295 }) s := by
    simp [readerFrame, onCl, happ, lockTicks]
  show execExec7816 pkt s = _
  simp only [execExec7816, apduReady_of_rats hfield hrole hiso hrats, happ, hexec, hup, framed]
  rfl

theorem exec7816_unavailable (hup : ¬ vaultRuns s = true) (pkt : Bytes) : exec (.exec7816 pkt) s = .next (emit (.sw 0x6985 []) s) := by
  rw [Bool.not_eq_true] at hup
  show execExec7816 pkt s = _
  simp only [execExec7816, apduReady_of_rats hfield hrole hiso hrats, happ, hexec, hup]
  rfl

end command
end block
end answering

/-- A running EXEC asks for more time once 80 % of the frame waiting time are over (R299). -/
theorem sWtx_asks {dt at_ : Nat} {s : State} (hexec : (advance dt s).cl.execAt = some at_) (hsess : (advance dt s).cmd.clSess = true)
    (hdue : at_ + 3866430 ≤ (advance dt s).clk.now) : let a := advance dt s
    ∃ m, 1 ≤ m ∧ m ≤ 16 ∧ exec (.sWtx dt) s = .next (emit (.field (withCrc [0xF2, BitVec.ofNat 8 m]))
      (onCl (fun c => { c with execAt := some a.clk.now }) { a with free := a.free + 1 })) := by
  intro a
  have late : at_ + wtxTicks ≤ (advance dt s).clk.now := hdue
  have bound := draw_lt (advance dt s) 4
  refine ⟨(draw 4 (advance dt s)).1 + 1, by omega, by omega, ?_⟩
  show execSWtx dt s = _
  simp only [execSWtx, hexec, hsess, late, decide_true, Bool.and_self, if_true]
  rfl

/-- Settles O51, row by row in the order of R291. -/
theorem cardActivation : Obligations.CardActivation := by
  unfold Obligations.CardActivation
  refine ⟨fun s hfield => fieldOn_of_noField hfield, fun s hfield => ⟨fieldOn_again hfield, fieldLoss_quiets hfield⟩, fun s hfield hrole => ?_⟩
  refine ⟨reqaWupa_of_idle hfield hrole, reqaWupa_of_halted hfield hrole, reqaWupa_is_error hfield hrole, fun hiso u => ?ready,
    fun hiso => ?active, fun ⟨hiso, hrats⟩ happ dsi dri => pps_answers hfield hrole hiso hrats happ,
    fun ⟨hiso, hrats⟩ => sDeselect_answers hfield hrole hiso hrats, fun ⟨hiso, hrats⟩ => ?applications, fun dt at_ => sWtx_asks⟩
  case ready =>
    refine ⟨?_, selectCard_of_other hfield hrole hiso, hlta_of_ready hfield hrole hiso⟩
    rintro rfl hclosed
    exact selectCard_of_uid hfield hrole hiso hclosed
  case active =>
    exact ⟨hlta_of_active hfield hrole hiso, selectCard_of_active hfield hrole hiso, rats_answers hfield hrole hiso⟩
  case applications =>
    intro up cl
    have runs : up ↔ vaultRuns s = true := (vaultRuns_iff s).symm
    rw [runs]
    refine ⟨selectApplication_tag hfield hrole hiso hrats, selectApplication_command hfield hrole hiso hrats,
      selectApplication_unavailable hfield hrole hiso hrats, fun aid => selectApplication_unknown hfield hrole hiso hrats,
      fun happ hexec pkt => ⟨fun hup => ?_, fun hdown => ?_⟩⟩
    · exact exec7816_offers hfield hrole hiso hrats happ hexec hup pkt
    · exact exec7816_unavailable hfield hrole hiso hrats happ hexec hdown pkt

end Sys2Proof.Claim
end

section
/-! The tag memory: what a write of whole words, a group written through the journal and the copies of a counter leave to be
read (R307 to R311, R404). -/
namespace Sys2Proof.Claim
open Sys2Proof.Machine

/-! ## Bytes -/

/-- Nothing but the tag memory and its faulty words differs. -/
def OnlyTag (s t : State) : Prop := ∃ m w, t = onNv (fun n => { n with tag := m, torn := w }) s

theorem OnlyTag.trans {s t u : State} (h : OnlyTag s t) (k : OnlyTag t u) : OnlyTag s u := by
  obtain ⟨_, _, rfl⟩ := h
  obtain ⟨_, _, rfl⟩ := k
  exact ⟨_, _, rfl⟩

theorem onlyTag_tagStore (a : Nat) (b : Bytes) (s : State) : OnlyTag s (tagStore a b s) := ⟨_, _, rfl⟩

theorem OnlyTag.cl {s t : State} (h : OnlyTag s t) : t.cl = s.cl := by obtain ⟨_, _, rfl⟩ := h; rfl
theorem OnlyTag.cmd {s t : State} (h : OnlyTag s t) : t.cmd = s.cmd := by obtain ⟨_, _, rfl⟩ := h; rfl

/-- Where the field does not collapse, every word is written (R288). -/
theorem tagPut_of_noCollapse {s : State} (h : s.cl.fuel = none) (a : Nat) (b : Bytes) : tagPut a b s = tagStore a b s := by
  simp only [tagPut, h]

theorem getD_smFind_tagPutByte (a : Nat) (x : Byte) (m : SMap Byte) (j : Nat) :
    (smFind (tagPutByte a x m) j).getD (tagFactory j) = if j = a then x else (smFind m j).getD (tagFactory j) := by
  unfold tagPutByte
  by_cases hx : x = tagFactory a <;> by_cases hj : j = a <;> simp [hx, hj]

theorem getD_smFind_tagFold (a : Nat) (b : Bytes) (n : Nat) (m : SMap Byte) (j : Nat) :
    (smFind ((b.zipIdx n).foldl (fun m (x, i) => tagPutByte (a + i) x m) m) j).getD (tagFactory j) =
      if a + n ≤ j ∧ j < a + n + b.length then b.getD (j - (a + n)) 0 else (smFind m j).getD (tagFactory j) := by
  induction b generalizing n m with
  | nil => simp
  | cons x b ih =>
    rw [List.zipIdx_cons, List.foldl_cons, ih, getD_smFind_tagPutByte, List.length_cons]
    by_cases first : j = a + n
    · simp [first]
    · by_cases later : a + (n + 1) ≤ j ∧ j < a + (n + 1) + b.length
      · have step : j - (a + n) = j - (a + (n + 1)) + 1 := by omega
        rw [if_pos later, if_pos (by omega), step, List.getD_cons_succ]
      · rw [if_neg later, if_neg first, if_neg (by omega)]

/-- Reading any byte of the tag memory after a write. -/
theorem tagByte_tagStore (a : Nat) (b : Bytes) (s : State) (j : Nat) :
    tagByte j (tagStore a b s) = if a ≤ j ∧ j < a + b.length then b.getD (j - a) 0 else tagByte j s :=
  getD_smFind_tagFold a b 0 s.nv.tag j

theorem tagBytes_congr {a n : Nat} {s t : State} (h : ∀ i, i < n → tagByte (a + i) t = tagByte (a + i) s) :
    tagBytes a n t = tagBytes a n s :=
  List.map_congr_left fun i hi => h i (List.mem_range.mp hi)

@[simp] theorem length_tagBytes (a n : Nat) (s : State) : (tagBytes a n s).length = n := by simp [tagBytes]

theorem tagBytes_append (a m n : Nat) (s : State) : tagBytes a (m + n) s = tagBytes a m s ++ tagBytes (a + m) n s := by
  simp [tagBytes, List.range_add, Nat.add_assoc]

theorem slice_tagBytes {off n len : Nat} (h : off + n ≤ len) (a : Nat) (s : State) :
    slice (tagBytes a len s) off n = tagBytes (a + off) n s := by
  obtain ⟨k, rfl⟩ := Nat.exists_eq_add_of_le h
  rw [Nat.add_assoc, tagBytes_append, slice_skip _ _ _ _ (by simp), tagBytes_append]
  simpa using slice_here _ _ n (length_tagBytes (a + off) n s)

theorem tagBytes_tagStore {n : Nat} {b : Bytes} (h : b.length = n) (a : Nat) (s : State) : tagBytes a n (tagStore a b s) = b := by
  refine List.ext_getElem (by simp [h]) fun i hi hb => ?_
  simp [tagBytes, tagByte_tagStore, hb]

theorem tagBytes_tagStore_apart {a c n : Nat} {b : Bytes} (h : c + n ≤ a ∨ a + b.length ≤ c) (s : State) :
    tagBytes c n (tagStore a b s) = tagBytes c n s := by
  refine tagBytes_congr fun i hi => ?_
  rw [tagByte_tagStore, if_neg (by omega)]

/-! ## Groups written through the journal (R309 to R311) -/

/-- The bytes at an address have been written through the journal: they read as written, of the rest of the tag memory only
the journal differs, and no group is left open. -/
structure Journalled (a : Nat) (b : Bytes) (s t : State) : Prop where
  only : OnlyTag s t
  reads : tagBytes a b.length t = b
  apart : ∀ j, j < 1280 ∨ 1360 ≤ j → j < a ∨ a + b.length ≤ j → tagByte j t = tagByte j s
  closed : jhdrSeq t = jdoneSeq t

theorem journalled_nil (a : Nat) {s : State} (h : jhdrSeq s = jdoneSeq s) : Journalled a [] s s :=
  ⟨⟨_, _, rfl⟩, rfl, fun _ _ _ => rfl, h⟩

section journalled
variable {a : Nat} {b : Bytes} {s t : State} (h : Journalled a b s t)
include h

theorem Journalled.fuel (hfuel : s.cl.fuel = none) : t.cl.fuel = none := by
  rw [h.only.cl]
  exact hfuel

theorem Journalled.slice {off n : Nat} (hin : off + n ≤ b.length) : tagBytes (a + off) n t = slice b off n := by
  rw [← slice_tagBytes hin, h.reads]

theorem Journalled.keeps {c n : Nat} (hout : c + n ≤ 1280 ∨ 1360 ≤ c) (hapart : c + n ≤ a ∨ a + b.length ≤ c) :
    tagBytes c n t = tagBytes c n s :=
  tagBytes_congr fun i hi => h.apart (c + i) (by omega) (by omega)

theorem Journalled.append {b' : Bytes} {u : State} (k : Journalled (a + b.length) b' t u) (hout : a + b.length ≤ 1280 ∨ 1360 ≤ a) :
    Journalled a (b ++ b') s u where
  only := h.only.trans k.only
  reads := by rw [List.length_append, tagBytes_append, k.reads, k.keeps hout (.inl (Nat.le_refl _)), h.reads]
  apart j hj hrange := by
    rw [List.length_append] at hrange
    rw [k.apart j hj (by omega), h.apart j hj (by omega)]
  closed := k.closed

end journalled

/-- The sequence number of a journal word is what was written (R309). -/
theorem bitsN_journalWord {x seq : Nat} (hx : x < 65536) (hseq : seq < 2 ^ 32) :
    bitsN (leNat (natLE 8 (x + 65536 * seq))) 47 16 = seq := by
  rw [leNat_natLE]
  unfold bitsN
  omega

theorem tagGroup_eq {s : State} (h : s.cl.fuel = none) (page : Nat) (data : Bytes) : let seq := (jdoneSeq s + 1) % 2 ^ 32
    tagGroup page data s = tagStore 1352 (natLE 8 (65536 * seq)) (tagStore (16 * page) data
      (tagStore 1344 (natLE 8 (page + 2048 * (data.length / 16 - 1) + 65536 * seq)) (tagStore 1280 data s))) := by
  have kept (a : Nat) (b : Bytes) (u : State) : (tagStore a b u).cl = u.cl := rfl
  simp [tagGroup, tagPut_of_noCollapse, kept, h]

theorem tagGroup_journalled {s : State} {page : Nat} {data : Bytes} (hfuel : s.cl.fuel = none) (hpage : page < 2048)
    (hlen : data.length ≤ 64) (hout : 16 * page + data.length ≤ 1280 ∨ 1360 ≤ 16 * page) :
    Journalled (16 * page) data s (tagGroup page data s) := by
  have word (v : Nat) : (natLE 8 v).length = 8 := length_natLE 8 v
  have bound : (jdoneSeq s + 1) % 2 ^ 32 < 2 ^ 32 := Nat.mod_lt _ (by decide)
  rw [tagGroup_eq hfuel]
  generalize (jdoneSeq s + 1) % 2 ^ 32 = seq at bound
  refine ⟨?only, ?reads, fun j hj hrange => ?apart, ?closed⟩
  case only => exact ((((onlyTag_tagStore _ _ _).trans (onlyTag_tagStore _ _ _)).trans (onlyTag_tagStore _ _ _)).trans (onlyTag_tagStore _ _ _))
  case reads => rw [tagBytes_tagStore_apart (by rw [word]; omega), tagBytes_tagStore rfl]
  case apart =>
    simp only [tagByte_tagStore, word]
    rw [if_neg (by omega), if_neg (by omega), if_neg (by omega), if_neg (by omega)]
  case closed =>
    unfold jhdrSeq jdoneSeq
    rw [tagBytes_tagStore (word _), tagBytes_tagStore_apart (by omega), tagBytes_tagStore_apart (by omega), tagBytes_tagStore (word _),
      bitsN_journalWord (by omega) bound]
    have plain := bitsN_journalWord (x := 0) (by decide) bound
    rw [Nat.zero_add] at plain
    exact plain.symm

theorem tagWrite_nil (f page : Nat) (s : State) : tagWrite f page [] s = s := by cases f <;> simp [tagWrite]

/-- Pages of the user area written in groups of four (R311). -/
theorem tagWrite_journalled (f : Nat) {page : Nat} {data : Bytes} {s : State} (hfuel : s.cl.fuel = none) (hclosed : jhdrSeq s = jdoneSeq s)
    (hpage : 96 ≤ page) (hend : 16 * page + data.length ≤ 32768) (hfit : data.length ≤ 64 * f) :
    Journalled (16 * page) data s (tagWrite f page data s) := by
  induction f generalizing page data s with
  | zero =>
    have empty : data = [] := List.eq_nil_of_length_eq_zero (by omega)
    rw [empty]
    exact journalled_nil _ hclosed
  | succ f ih =>
    by_cases hnil : data = []
    · rw [hnil, tagWrite_nil]
      exact journalled_nil _ hclosed
    · have some_ : 0 < data.length := List.length_pos_of_ne_nil hnil
      have group : Journalled (16 * page) (data.take 64) s (tagGroup page (data.take 64) s) :=
        tagGroup_journalled hfuel (by omega) (by simp) (by omega)
      rw [tagWrite, if_neg hnil]
      by_cases hlast : data.length ≤ 64
      · rw [List.drop_eq_nil_of_le hlast, tagWrite_nil]
        rwa [List.take_of_length_le hlast] at group ⊢
      · have full : (data.take 64).length = 64 := by simp; omega
        have rest := ih (page := page + 4) (data := data.drop 64) (group.fuel hfuel) group.closed (by omega)
          (by simp; omega) (by simp; omega)
        rw [show 16 * (page + 4) = 16 * page + (data.take 64).length by omega] at rest
        simpa using group.append rest (by omega)

/-! ## Counters (R307, R308) -/

section counters
variable {s : State}

theorem tagTorn_tagStore_same {a : Nat} {b : Bytes} (ha : a % 8 = 0) (hb : b.length = 8) (s : State) : tagTorn a 8 (tagStore a b s) = false := by
  simp only [tagTorn, tagStore, onNv_nv, List.any_filter, List.any_eq_false]
  intro w _
  simp
  omega

theorem tagTorn_tagStore_apart {a c : Nat} {b : Bytes} (ha : a % 8 = 0) (hc : c % 8 = 0) (hb : b.length = 8) (h : a ≠ c) (s : State) :
    tagTorn c 8 (tagStore a b s) = tagTorn c 8 s := by
  simp only [tagTorn, tagStore, onNv_nv, List.any_filter]
  refine congrArg (List.any s.nv.torn) (funext fun w => ?_)
  rw [Bool.eq_iff_iff]
  simp
  omega

/-- Where a copy of a counter stands. -/
def ctrAt (n : Nat) (backup : Bool) : Nat := 16 * (16 + n) + if backup then 8 else 0

theorem ctrAt_mod (n : Nat) (k : Bool) : ctrAt n k % 8 = 0 := by unfold ctrAt; split <;> omega

theorem ctrAt_inj {m n : Nat} {h k : Bool} (heq : ctrAt m h = ctrAt n k) : m = n ∧ h = k := by
  unfold ctrAt at heq
  cases h <;> cases k <;> simp at heq ⊢ <;> omega

theorem ctrCopy_eq_some_iff {n v : Nat} {k : Bool} : ctrCopy n k s = some v ↔ leNat (tagBytes (ctrAt n k) 4 s) = v ∧
    leNat (tagBytes (ctrAt n k + 4) 4 s) + v = 0xFFFFFFFF ∧ tagTorn (ctrAt n k) 8 s = false := by
  simp only [ctrCopy, ctrAt, Option.ite_none_right_eq_some, Option.some.injEq, Bool.and_eq_true, decide_eq_true_eq, Bool.not_eq_true']
  constructor
  · rintro ⟨⟨hsum, hclean⟩, rfl⟩
    exact ⟨rfl, hsum, hclean⟩
  · rintro ⟨rfl, hsum, hclean⟩
    exact ⟨⟨hsum, hclean⟩, rfl⟩

theorem ctrPut_eq (h : s.cl.fuel = none) (n : Nat) (k : Bool) (v : Nat) :
    ctrPut n k v s = tagStore (ctrAt n k) (natLE 4 v ++ natLE 4 (0xFFFFFFFF - v)) s := tagPut_of_noCollapse h _ _

theorem onlyTag_ctrPut (h : s.cl.fuel = none) (n : Nat) (k : Bool) (v : Nat) : OnlyTag s (ctrPut n k v s) := by
  rw [ctrPut_eq h]
  exact onlyTag_tagStore _ _ _

theorem ctrCopy_ctrPut_same (h : s.cl.fuel = none) (n : Nat) (k : Bool) {v : Nat} (hv : v ≤ 0xFFFFFFFF) :
    ctrCopy n k (ctrPut n k v s) = some v := by
  have len : (natLE 4 v ++ natLE 4 (0xFFFFFFFF - v)).length = 8 := by simp [length_natLE]
  have stored := tagBytes_tagStore len (ctrAt n k) s
  have value : tagBytes (ctrAt n k) 4 (ctrPut n k v s) = natLE 4 v := by
    rw [ctrPut_eq h, ← Nat.add_zero (ctrAt n k), ← slice_tagBytes (len := 8) (by decide), Nat.add_zero, stored]
    exact slice_here _ _ _ (length_natLE 4 v)
  have check : tagBytes (ctrAt n k + 4) 4 (ctrPut n k v s) = natLE 4 (0xFFFFFFFF - v) := by
    rw [ctrPut_eq h, ← slice_tagBytes (len := 8) (by decide), stored, slice_skip _ _ _ _ (by simp [length_natLE])]
    simp [slice, length_natLE]
  rw [ctrCopy_eq_some_iff, value, check, leNat_natLE, leNat_natLE, ctrPut_eq h]
  exact ⟨by omega, by omega, tagTorn_tagStore_same (ctrAt_mod n k) len s⟩

theorem ctrCopy_ctrPut_other (hfuel : s.cl.fuel = none) {m n : Nat} {h k : Bool} (hne : m ≠ n ∨ h ≠ k) (v : Nat) :
    ctrCopy m h (ctrPut n k v s) = ctrCopy m h s := by
  have len : (natLE 4 v ++ natLE 4 (0xFFFFFFFF - v)).length = 8 := by simp [length_natLE]
  have alignedN := ctrAt_mod n k
  have alignedM := ctrAt_mod m h
  have apart : ctrAt n k ≠ ctrAt m h := fun heq => by
    obtain ⟨rfl, rfl⟩ := ctrAt_inj heq
    simp at hne
  refine Option.ext fun x => ?_
  rw [ctrCopy_eq_some_iff, ctrCopy_eq_some_iff, ctrPut_eq hfuel, tagBytes_tagStore_apart (by omega), tagBytes_tagStore_apart (by omega),
    tagTorn_tagStore_apart alignedN alignedM len apart]

variable {n v : Nat} (hprim : ctrCopy n false s = some v) (hback : ctrCopy n true s = some v)
include hprim hback

/-- A counter whose copies both hold its value is read as it is (R308). -/
theorem ctrValue_of_both : ctrValue n s = (some v, s) := by
  have clean : tagTorn (16 * (16 + n)) 16 s = false := by
    obtain ⟨-, -, first⟩ := ctrCopy_eq_some_iff.mp hprim
    obtain ⟨-, -, second⟩ := ctrCopy_eq_some_iff.mp hback
    simp only [tagTorn, ctrAt, List.any_eq_false] at first second ⊢
    intro w hw
    have one := first w hw
    have two := second w hw
    simp at one two ⊢
    omega
  simp [ctrValue, clean, hprim, hback]

theorem ctrIncr_wraps {i : Nat} (h : 0xFFFFFFFF < v + i) : ctrIncr n i s = (.wrap, s) := by
  simp only [ctrIncr, ctrValue_of_both hprim hback, if_pos h]

/-- An increment writes both copies and leaves every other copy (R308). -/
theorem ctrIncr_moves (hfuel : s.cl.fuel = none) {i : Nat} (h : v + i ≤ 0xFFFFFFFF) : ∃ t, ctrIncr n i s = (.value (v + i), t) ∧
    OnlyTag s t ∧ ctrCopy n false t = some (v + i) ∧ ctrCopy n true t = some (v + i) ∧
    ∀ m k, m ≠ n → ctrCopy m k t = ctrCopy m k s := by
  have first := onlyTag_ctrPut hfuel n false (v + i)
  have fuel : (ctrPut n false (v + i) s).cl.fuel = none := first.cl ▸ hfuel
  refine ⟨ctrPut n true (v + i) (ctrPut n false (v + i) s), ?_, first.trans (onlyTag_ctrPut fuel n true (v + i)), ?_,
    ctrCopy_ctrPut_same fuel n true h, fun m k hm => ?_⟩
  · simp only [ctrIncr, ctrValue_of_both hprim hback, if_neg (Nat.not_lt.mpr h)]
  · rw [ctrCopy_ctrPut_other fuel (.inr (by decide)), ctrCopy_ctrPut_same hfuel n false h]
  · rw [ctrCopy_ctrPut_other fuel (.inl hm), ctrCopy_ctrPut_other hfuel (.inl hm)]

end counters

end Sys2Proof.Claim
end

section
/-! The host's tag and badge commands (R236, R289, R290, R297, R300 to R302, R307 to R313, R315), and O34. -/
namespace Sys2Proof.Claim
open Sys2Proof.Machine

/-! ## The lock of the tag memory (R236, R313), and recovery (R310) -/

theorem hostLock_of_held {s : State} (h : s.clk.now < s.cl.lockTo) (c : Call) (f : State → State) :
    hostLock c f s = reply c stDeferred [] s := if_pos h

theorem hostLock_of_free {s : State} (h : s.cl.lockTo ≤ s.clk.now) (c : Call) (f : State → State) : hostLock c f s = f s :=
  if_neg (Nat.not_lt.mpr h)

theorem tagRecover_of_closed {s : State} (h : jhdrSeq s = jdoneSeq s) : tagRecover s = s := if_pos h

/-! ## What the operations of the tag-area commands do (R307 to R312) -/

section operations
variable {c : Call} {s : State}

section read
variable {p n : Nat} (hp : argN c 1 = some p) (hn : argN c 2 = some n) (hsome : n ≠ 0) (hrange : readRange p n = true)
include hp hn hsome hrange

theorem tagReadBody_locks : tagReadBody c s = hostLock c (fun s =>
    let s := tagRecover s
    if tagTorn (16 * p) (16 * n) s then refuse c stHwFault (raise 146 [p] (tagReadError s))
    else replyOk c [rtlv 1 (tagPages p n s)] s) s := by
  simp only [tagReadBody, argD_of_argN hp, argD_of_argN hn, hsome, hrange, Bool.not_true, Bool.false_eq_true, if_false]

theorem tagReadBody_reads (hlock : s.cl.lockTo ≤ s.clk.now) (hclosed : jhdrSeq s = jdoneSeq s) (hclean : tagTorn (16 * p) (16 * n) s = false) :
    tagReadBody c s = reply c stOk [rtlv 1 (tagPages p n s)] s := by
  simp only [tagReadBody_locks hp hn hsome hrange, hostLock_of_free hlock, tagRecover_of_closed hclosed, hclean, Bool.false_eq_true,
    if_false, replyOk]

end read

theorem tagWriteBody_locks {p : Nat} {b : Bytes} (hp : argN c 1 = some p) (hb : argOf c 2 = some b) (hpages : b.length % 16 = 0)
    (hfirst : 96 ≤ p) (hlast : p + b.length / 16 ≤ 2048) :
    tagWriteBody c s = hostLock c (fun s => replyOk c [] (tagWrite 250 p b (tagRecover s))) s := by
  have inside : ¬ (p < 96 ∨ 2048 < p + b.length / 16) := by omega
  simp only [tagWriteBody, argD_of_argN hp, hb, Option.getD_some, hpages, inside, Bool.or_eq_true, decide_eq_true_eq, ne_eq,
    not_true_eq_false, if_false]

theorem tagCounterBody_deferred (hsome : argN c 2 ≠ some 0) (hlock : s.clk.now < s.cl.lockTo) :
    tagCounterBody c s = reply c stDeferred [] s := by
  unfold tagCounterBody
  split
  · contradiction
  · exact hostLock_of_held hlock _ _
  · exact hostLock_of_held hlock _ _

section counter
variable {n : Nat} (hn : argN c 1 = some n) (hlock : s.cl.lockTo ≤ s.clk.now) (hclosed : jhdrSeq s = jdoneSeq s)
include hn hlock hclosed

theorem tagCounterBody_reads (hnone : argN c 2 = none) {v : Nat} (hvalue : ctrValue n s = (some v, s)) :
    tagCounterBody c s = reply c stOk [r32 1 v] s := by
  simp only [tagCounterBody, hnone, argD_of_argN hn, hostLock_of_free hlock, tagRecover_of_closed hclosed, hvalue, replyOk]

section increment
variable {i : Nat} {t : State} (hi : argN c 2 = some (i + 1))
include hi

theorem tagCounterBody_moves {v : Nat} (hincr : ctrIncr n (i + 1) s = (.value v, t)) : tagCounterBody c s = reply c stOk [r32 1 v] t := by
  simp only [tagCounterBody, hi, argD_of_argN hn, hostLock_of_free hlock, tagRecover_of_closed hclosed, hincr, replyOk]

theorem tagCounterBody_wraps (hincr : ctrIncr n (i + 1) s = (.wrap, t)) : tagCounterBody c s = reply c stWrapRefused [] t := by
  simp only [tagCounterBody, hi, argD_of_argN hn, hostLock_of_free hlock, tagRecover_of_closed hclosed, hincr]
  rfl

end increment
end counter
end operations

/-- The commands aside, what a write through the journal has left is what it makes of the state before the command. -/
theorem OnlyTag.answered {opc : Nat} {c : Call} {s t : State} (h : OnlyTag (taken opc c s) t) :
    onCmd (fun _ => s.cmd) t = { s with nv := { s.nv with tag := t.nv.tag, torn := t.nv.torn } } := by
  obtain ⟨_, _, rfl⟩ := h
  rfl

/-! ## TAG_READ, TAG_WRITE and TAG_COUNTER -/

section commands
variable {c : Call} {s : State}

/-- A Ready command whose operation replies at once. -/
theorem serve_refuses {opc st : Nat} (h : Ready opc c s) (hrun : run opc c (taken opc c s) = reply c st [] (taken opc c s)) :
    Refuses opc c st [] s (.next (serve opc c s)) := congrArg Host.Outcome.next (serve_replies h hrun)

theorem tagCommands_deferred (hlock : s.clk.now < s.cl.lockTo) :
    (Ready 0x0901 c s → ∀ p n, argN c 1 = some p → argN c 2 = some n → n ≠ 0 → readRange p n = true →
      Refuses 0x0901 c stDeferred [] s (exec (.tagRead c) s)) ∧
    (Ready 0x0902 c s → ∀ p b, argN c 1 = some p → argOf c 2 = some b → b.length % 16 = 0 → 96 ≤ p → p + b.length / 16 ≤ 2048 →
      Refuses 0x0902 c stDeferred [] s (exec (.tagWrite c) s)) ∧
    (Ready 0x0903 c s → argN c 2 ≠ some 0 → Refuses 0x0903 c stDeferred [] s (exec (.tagCounter c) s)) := by
  have held (opc : Nat) : (taken opc c s).clk.now < (taken opc c s).cl.lockTo := hlock
  refine ⟨fun h p n hp hn hsome hrange => serve_refuses h ?_, fun h p b hp hb hpages hfirst hlast => serve_refuses h ?_,
    fun h hsome => serve_refuses h (tagCounterBody_deferred hsome (held _))⟩
  · exact (tagReadBody_locks hp hn hsome hrange).trans (hostLock_of_held (held _) _ _)
  · exact (tagWriteBody_locks hp hb hpages hfirst hlast).trans (hostLock_of_held (held _) _ _)

section free
variable (hclosed : jhdrSeq s = jdoneSeq s) (hlock : s.cl.lockTo ≤ s.clk.now)
include hclosed hlock

theorem tagRead_replies (h : Ready 0x0901 c s) {p n : Nat} (hp : argN c 1 = some p) (hn : argN c 2 = some n) (hsome : n ≠ 0)
    (hrange : readRange p n = true) (hclean : tagTorn (16 * p) (16 * n) s = false) :
    RepliesOk 0x0901 c [rtlv 1 (tagPages p n s)] s (exec (.tagRead c) s) :=
  congrArg Host.Outcome.next (serve_replies h (tagReadBody_reads (s := taken 0x0901 c s) hp hn hsome hrange hlock hclosed hclean))

theorem tagWrite_writes (hfuel : s.cl.fuel = none) (h : Ready 0x0902 c s) {p : Nat} {b : Bytes} (hp : argN c 1 = some p)
    (hb : argOf c 2 = some b) (hpages : b.length % 16 = 0) (hlen : b.length ≤ 16000) (hfirst : 96 ≤ p) (hlast : p + b.length / 16 ≤ 2048) :
    RepliesWith 0x0902 c [] (fun d => tagBytes (16 * p) b.length d = b ∧
        (∀ a, a < 1280 ∨ 1360 ≤ a → a < 16 * p ∨ 16 * p + b.length ≤ a → tagByte a d = tagByte a s) ∧
        jhdrSeq d = jdoneSeq d ∧ d = { s with nv := { s.nv with tag := d.nv.tag, torn := d.nv.torn } })
      (exec (.tagWrite c) s) := by
  let t := tagWrite 250 p b (taken 0x0902 c s)
  have written : Journalled (16 * p) b (taken 0x0902 c s) t :=
    tagWrite_journalled (s := taken 0x0902 c s) 250 hfuel hclosed hfirst (by omega) (by omega)
  have recovered : tagRecover (taken 0x0902 c s) = taken 0x0902 c s := tagRecover_of_closed hclosed
  have hrun : run 0x0902 c (taken 0x0902 c s) = reply c stOk [] t := by
    show tagWriteBody c (taken 0x0902 c s) = _
    rw [tagWriteBody_locks hp hb hpages hfirst hlast, hostLock_of_free (s := taken 0x0902 c s) hlock, recovered]
    rfl
  exact serve_with h hrun written.only.cmd ⟨written.reads, written.apart, written.closed, written.only.answered⟩

section counter
variable {n v : Nat} (h : Ready 0x0903 c s) (hn : argN c 1 = some n) (hprim : ctrCopy n false s = some v) (hback : ctrCopy n true s = some v)
include h hn hprim hback

theorem tagCounter_replies (hnone : argN c 2 = none) : RepliesOk 0x0903 c [r32 1 v] s (exec (.tagCounter c) s) :=
  congrArg Host.Outcome.next (serve_replies h (tagCounterBody_reads (s := taken 0x0903 c s) hn hlock hclosed hnone
    (ctrValue_of_both (s := taken 0x0903 c s) hprim hback)))

theorem tagCounter_wraps {i : Nat} (hi : argN c 2 = some i) (hwrap : 0xFFFFFFFF < v + i) :
    Refuses 0x0903 c stWrapRefused [] s (exec (.tagCounter c) s) := by
  obtain ⟨-, hsum, -⟩ := ctrCopy_eq_some_iff.mp hprim
  obtain ⟨k, rfl⟩ := Nat.exists_eq_succ_of_ne_zero (n := i) (by omega)
  exact serve_refuses h (tagCounterBody_wraps (s := taken 0x0903 c s) hn hlock hclosed hi
    (ctrIncr_wraps (s := taken 0x0903 c s) hprim hback hwrap))

theorem tagCounter_moves (hfuel : s.cl.fuel = none) {i : Nat} (hi : argN c 2 = some i) (hsome : i ≠ 0) (hfits : v + i ≤ 0xFFFFFFFF) :
    RepliesWith 0x0903 c [r32 1 (v + i)] (fun d => (ctrCopy n false d = some (v + i) ∧ ctrCopy n true d = some (v + i)) ∧
        (∀ m h, m < 64 → m ≠ n → ctrCopy m h d = ctrCopy m h s) ∧
        d = { s with nv := { s.nv with tag := d.nv.tag, torn := d.nv.torn } }) (exec (.tagCounter c) s) := by
  obtain ⟨k, rfl⟩ := Nat.exists_eq_succ_of_ne_zero hsome
  obtain ⟨t, moved, only, first, second, others⟩ := ctrIncr_moves (s := taken 0x0903 c s) hprim hback hfuel hfits
  exact serve_with h (tagCounterBody_moves (s := taken 0x0903 c s) hn hlock hclosed hi moved) only.cmd
    ⟨⟨first, second⟩, fun m k _ hm => others m k hm, only.answered⟩

end counter

end free
end commands

/-! ## TAG_ACCESS (R301, R302, R304, R305, R312) -/

/-- The access maps of 80 bytes, pages 8 to 12, in two groups. -/
def mapsWritten (maps : Bytes) (s : State) : State := tagGroup 12 (maps.drop 64) (tagGroup 8 (maps.take 64) s)

/-- Page 7 again with the failure count at 0 (R304). -/
def failsCleared (s : State) : State := tagGroup 7 (tagBytes 112 8 s ++ [0, 0] ++ tagBytes 122 6 s) s

section access
variable {s : State} {pwd key maps : Bytes}

theorem mapsWritten_journalled (hfuel : s.cl.fuel = none) (hmaps : maps.length = 80) : Journalled 128 maps s (mapsWritten maps s) := by
  have first : Journalled 128 (maps.take 64) s (tagGroup 8 (maps.take 64) s) :=
    tagGroup_journalled (page := 8) hfuel (by decide) (by simp) (by simp; omega)
  have second := tagGroup_journalled (page := 12) (data := maps.drop 64) (first.fuel hfuel) (by decide) (by simp [hmaps]) (by simp [hmaps])
  rw [show 16 * 12 = 128 + (maps.take 64).length by simp [hmaps]] at second
  have both := first.append second (by simp; omega)
  rwa [List.take_append_drop] at both

theorem failsCleared_journalled (hfuel : s.cl.fuel = none) :
    Journalled 112 (tagBytes 112 8 s ++ [0, 0] ++ tagBytes 122 6 s) s (failsCleared s) :=
  tagGroup_journalled (page := 7) hfuel (by decide) (by simp) (by simp)

/-- What the three writes of TAG_ACCESS leave to be read. -/
theorem access_reads {t u d : State} (hpwd : pwd.length = 8) (hkey : key.length = 16) (hmaps : maps.length = 80)
    (first : Journalled 128 maps s t) (second : Journalled 64 (pwd ++ List.replicate 8 0 ++ key) t u)
    (last : Journalled 112 (tagBytes 112 8 u ++ [0, 0] ++ tagBytes 122 6 u) u d) :
    OnlyTag s d ∧ tagBytes 64 8 d = pwd ∧ tagBytes 80 16 d = key ∧ tagBytes 128 80 d = maps ∧ pwdFails d = 0 ∧ tctr d = tctr s ∧
      storedMode d = storedMode s ∧ ∀ a, 1536 ≤ a → tagByte a d = tagByte a s := by
  have len4 : (pwd ++ List.replicate 8 0 ++ key).length = 32 := by simp [hpwd, hkey]
  have len7 : (tagBytes 112 8 u ++ [0, 0] ++ tagBytes 122 6 u).length = 16 := by simp
  have page7 (off n : Nat) (h : off + n ≤ 16) : tagBytes (112 + off) n u = tagBytes (112 + off) n s := by
    rw [second.keeps (by omega) (by omega), first.keeps (by omega) (by omega)]
  refine ⟨(first.only.trans second.only).trans last.only, ?password, ?key, ?maps, ?fails, ?counter, ?mode, fun a ha => ?rest⟩
  case password =>
    rw [last.keeps (by decide) (by omega), ← Nat.add_zero 64, second.slice (by omega), List.append_assoc]
    exact slice_here _ _ _ hpwd
  case key =>
    rw [last.keeps (by decide) (by omega), show 80 = 64 + 16 from rfl, second.slice (by omega), slice_skip _ _ _ _ (by simp [hpwd])]
    simp [slice, hpwd, hkey]
  case maps => rw [last.keeps (by decide) (by omega), second.keeps (by decide) (by omega), ← hmaps, first.reads]
  case fails =>
    unfold pwdFails
    rw [show 120 = 112 + 8 from rfl, last.slice (by omega), List.append_assoc, slice_skip _ _ _ _ (by simp)]
    simp [slice, leNat]
  case counter =>
    unfold tctr
    rw [← Nat.add_zero 112, last.slice (by omega), List.append_assoc, slice_here _ _ _ (by simp), ← page7 0 8 (by decide)]
  case mode =>
    unfold storedMode
    rw [show 122 = 112 + 10 from rfl, last.slice (by omega), slice_skip _ _ _ _ (by simp), ← page7 10 1 (by decide)]
    simpa using congrArg leNat (slice_tagBytes (off := 0) (n := 1) (len := 6) (by decide) 122 u)
  case rest => rw [last.apart a (by omega) (by omega), second.apart a (by omega) (by omega), first.apart a (by omega) (by omega)]

/-- All that TAG_ACCESS writes: maps, password with key, failure count. -/
def accessWritten (pwd key maps : Bytes) (s : State) : State :=
  failsCleared (tagGroup 4 (pwd ++ List.replicate 8 0 ++ key) (mapsWritten maps s))

theorem accessWritten_reads (hfuel : s.cl.fuel = none) (hpwd : pwd.length = 8) (hkey : key.length = 16) (hmaps : maps.length = 80)
    {d : State} (hd : accessWritten pwd key maps s = d) :
    OnlyTag s d ∧ tagBytes 64 8 d = pwd ∧ tagBytes 80 16 d = key ∧ tagBytes 128 80 d = maps ∧ pwdFails d = 0 ∧ tctr d = tctr s ∧
      storedMode d = storedMode s ∧ ∀ a, 1536 ≤ a → tagByte a d = tagByte a s := by
  have first := mapsWritten_journalled hfuel hmaps
  have fuel := first.fuel hfuel
  have second := tagGroup_journalled (page := 4) (data := pwd ++ List.replicate 8 0 ++ key) fuel (by decide) (by simp [hpwd, hkey])
    (by simp [hpwd, hkey])
  have last := failsCleared_journalled (second.fuel fuel)
  rw [show failsCleared _ = d from hd] at last
  exact access_reads hpwd hkey hmaps first second last

end access

section entering
variable {c : Call} {s : State}

theorem tagAccessBody_writes {o : AuthObj} {p : KeyPkg} {t : State} {pwd maps : Bytes} (hpwd : argOf c 1 = some pwd)
    (ho : authArg c 2 [0x13] s = some o) (hmaps : argOf c 3 = some maps) (hok : mapsOk maps = true) (hopen : openPackage c o s = (.ok p, t))
    (htype : p.ktype = 0) (hlock : t.cl.lockTo ≤ t.clk.now) (hclosed : jhdrSeq t = jdoneSeq t) : tagAccessBody c s =
      reply c stOk [] (accessWritten pwd p.key maps t) := by
  simp only [tagAccessBody, hpwd, hmaps, ho, hok, hopen, htype, Option.getD_some, hostLock_of_free hlock, tagRecover_of_closed hclosed]
  rfl

theorem tagAccess_writes (hclosed : jhdrSeq s = jdoneSeq s) (hfuel : s.cl.fuel = none) (hlock : s.cl.lockTo ≤ s.clk.now)
    (h : Ready 0x0904 c s) {pwd maps : Bytes} {o : AuthObj} {p : KeyPkg} (hpwd : argOf c 1 = some pwd) (ho : authArg c 2 [0x13] s = some o)
    (hopen : (openPackage c o s).1 = .ok p) (hmaps : argOf c 3 = some maps) (hpwdLen : pwd.length = 8) (hmapsLen : maps.length = 80)
    (hkeyLen : p.key.length = 16) (htype : p.ktype = 0) (hok : mapsOk maps = true) :
    RepliesWith 0x0904 c [] (fun d => tagBytes 64 8 d = pwd ∧ tagBytes 80 16 d = p.key ∧ tagBytes 128 80 d = maps ∧
        pwdFails d = 0 ∧ tctr d = tctr s ∧ storedMode d = storedMode s ∧ (∀ a, 1536 ≤ a → tagByte a d = tagByte a s) ∧
        d = { s with
          nv := { s.nv with tag := d.nv.tag, torn := d.nv.torn }
          eng := { s.eng with vcCache := d.eng.vcCache, vcGen := d.eng.vcGen } }) (exec (.tagAccess c) s) := by
  obtain ⟨read, opened⟩ := openPackage_taken hopen 0x0904
  generalize (openPackage c o s).2 = t at read opened
  obtain ⟨l, g, rfl⟩ := read
  let t := taken 0x0904 c (onEng (fun e => { e with vcCache := l, vcGen := g }) s)
  obtain ⟨d, hd⟩ : ∃ d, accessWritten pwd p.key maps t = d := ⟨_, rfl⟩
  have hrun : run 0x0904 c (taken 0x0904 c s) = reply c stOk [] d := by
    show tagAccessBody c (taken 0x0904 c s) = _
    rw [← hd]
    exact tagAccessBody_writes hpwd ho hmaps hok opened htype hlock hclosed
  obtain ⟨only, password, key, map, fails, counter, mode, rest⟩ := accessWritten_reads (s := t) hfuel hpwdLen hkeyLen hmapsLen hd
  refine serve_with h hrun only.cmd ⟨password, key, map, fails, counter, mode, rest, ?_⟩
  obtain ⟨_, _, rfl⟩ := only
  rfl

end entering

/-! ## CL_MODE (R289, R290) -/

/-- A command that the field may not send does not come from the field (R213). -/
theorem via_of_ready {opc : Nat} {c : Call} {s : State} (h : Ready opc c s) (hop : opcodes.contains opc = true)
    (hno : contactlessOps.contains opc = false) : c.via ≠ .contactless := by
  intro hvia
  obtain ⟨-, -, -, -, -, -, -, hacc, -⟩ := h
  have forbids : FieldForbids opc c := ⟨hvia, .inr hno⟩
  rw [acceptRefuse_eq hop] at hacc
  split_ifs at hacc

section mode
variable {s : State}

/-- The tag in the state given, with what it knew of its reader forgotten (R291). -/
def forgotten (iso : Iso) (s : State) : State :=
  onCl (fun c => { c with
    iso := iso, fromHalted := false, rats := false, dsi := 0, dri := 0, app := .none, sec := .closed, rndB := none, cc := 0 }) s

/-- The field's session closed, and the tag in the state given. -/
def tagQuieted (iso : Iso) (s : State) : State :=
  onCmd (fun c => { c with clSess := false, stuck := c.stuck.filter (fun e => e.1 ≠ .contactless) })
    (onCl (fun c => { c with execAt := none })
      (onApplet (100 + turnNo .contactless) (fun a => { a with sess := sessOf .contactless s }) (forgotten iso s)))

theorem quietTag_of_others (h : ∀ o ∈ s.cmd.owed, o.call.via ≠ .contactless ∧ o.wait ≠ .badge) (iso : Iso) :
    quietTag iso s = tagQuieted iso s := by
  have orphaned := orphan_of_others (v := .contactless) (s := forgotten iso s) h
  unfold quietTag closeField tagQuieted
  exact congrArg (fun t => onCmd _ (onCl _ t)) orphaned

theorem others_of_taken {opc : Nat} {c : Call} (hvia : c.via ≠ .contactless) :
    ∀ o ∈ (taken opc c s).cmd.owed, o.call.via ≠ .contactless ∧ o.wait ≠ .badge := by simpa [taken] using hvia

theorem setRole_taken {opc : Nat} {c : Call} (hvia : c.via ≠ .contactless) (howed : s.cmd.owed = []) (m : Nat) :
    setRole m (taken opc c s) = taken opc c (setRole m s) := by
  unfold setRole
  rw [quietTag_of_others (others_of_taken hvia), quietTag_of_others (by simp [howed])]
  split <;> rfl

theorem selectRole_taken {opc : Nat} {c : Call} (hvia : c.via ≠ .contactless) (howed : s.cmd.owed = []) (m : Nat) :
    selectRole m (taken opc c s) = taken opc c (selectRole m s) := by
  have badge : (taken opc c s).cl.badge = s.cl.badge := rfl
  unfold selectRole
  rw [badge, setRole_taken hvia howed]
  split
  · rfl
  · split <;> rfl

theorem quiet_tagQuieted (h : Quiet s) (iso : Iso) : Quiet (tagQuieted iso s) := by
  obtain ⟨rings, waits, stuck⟩ := h.onApplet (100 + turnNo .contactless) (fun a => { a with sess := sessOf .contactless s }) fun _ ha => ha
  have unstuck : s.cmd.stuck = [] := stuck
  exact ⟨rings, waits, by simp [tagQuieted, forgotten, onApplet, unstuck]⟩

section quiet
variable (howed : s.cmd.owed = [])
include howed

theorem quiet_setRole (h : Quiet s) (m : Nat) : Quiet (setRole m s) ∧ (setRole m s).cmd.owed = [] := by
  unfold setRole
  rw [quietTag_of_others (by simp [howed])]
  split
  · exact ⟨quiet_tagQuieted h .idle, howed⟩
  · exact ⟨h, howed⟩

theorem quiet_selectRole (h : Quiet s) (m : Nat) : Quiet (selectRole m s) ∧ (selectRole m s).cmd.owed = [] := by
  have set := quiet_setRole howed h m
  unfold selectRole
  split
  · exact set
  · split
    · exact set
    · exact ⟨h, howed⟩

/-- What a change of the role leaves alone, and what leaving tag mode ends (R289). -/
theorem setRole_parts (m : Nat) : (setRole m s).nv = s.nv ∧ (setRole m s).cl.role = m ∧ (setRole m s).cl.field = s.cl.field ∧
    (setRole m s).cl.fuel = s.cl.fuel ∧
    (m ≠ 1 → (setRole m s).cl.iso = .idle ∧ (setRole m s).cl.app = .none ∧ (setRole m s).cmd.clSess = false) := by
  unfold setRole
  rw [quietTag_of_others (by simp [howed])]
  split
  · exact ⟨rfl, rfl, rfl, rfl, fun _ => ⟨rfl, rfl, rfl⟩⟩
  · exact ⟨rfl, rfl, rfl, rfl, fun h => absurd h (by assumption)⟩

/-- CL_MODE's choice of role, during a badge read too (R289, R315). -/
theorem selectRole_parts (m : Nat) : (selectRole m s).nv = s.nv ∧ (selectRole m s).cl.field = s.cl.field ∧
    (selectRole m s).cl.fuel = s.cl.fuel ∧ (s.cl.badge = none → (selectRole m s).cl.role = m) ∧
    (∀ b, s.cl.badge = some b → (selectRole m s).cl.badge = some { b with saved := m } ∧
      (b.step ≠ .waiting → (selectRole m s).cl.role = s.cl.role)) ∧
    (m ≠ 1 → s.cl.badge = none →
      (selectRole m s).cl.iso = .idle ∧ (selectRole m s).cl.app = .none ∧ (selectRole m s).cmd.clSess = false) := by
  obtain ⟨nv, role, field, fuel, left⟩ := setRole_parts howed m
  unfold selectRole
  cases hbadge : s.cl.badge with
  | none => exact ⟨nv, field, fuel, fun _ => role, nofun, fun hm _ => left hm⟩
  | some b =>
    by_cases hstep : b.step = .waiting
    · simp only [if_pos hstep]
      refine ⟨nv, field, fuel, nofun, fun x hx => ?_, nofun⟩
      obtain rfl := Option.some.inj hx
      exact ⟨rfl, fun h => absurd hstep h⟩
    · simp only [if_neg hstep]
      refine ⟨rfl, rfl, rfl, nofun, fun x hx => ?_, nofun⟩
      obtain rfl := Option.some.inj hx
      exact ⟨rfl, fun _ => rfl⟩

end quiet

/-- The tuning that an expert form of CL_MODE gives (R290). -/
def givenTuning (c : Call) : Option Int := if c.pkt.expert then (argOf c 2).map (fun b => toSigned b.length (leNat b)) else none

/-- The tuning set: an expert form's own, else none. -/
def tuned (c : Call) (s : State) : State := onCl (fun x => { x with tuning := givenTuning c }) s

/-- What CL_MODE leaves: the role, the tuning an expert form gives, and the mode stored for tag and off. -/
def modeSelected (c : Call) (m : Nat) (s : State) : State :=
  let t := tuned c (selectRole m s)
  if m ≤ 1 then tagStore 122 (natLE 1 m) t else t

variable {c : Call} {m : Nat}

theorem clModeBody_selects (hm : argN c 1 = some m) (hfree : fieldBusy s = false) (hfuel : (selectRole m s).cl.fuel = none) :
    clModeBody c s = reply c stOk [r8 1 m] (modeSelected c m s) := by
  have stored : setStoredMode m (tuned c (selectRole m s)) = tagStore 122 (natLE 1 m) (tuned c (selectRole m s)) :=
    tagPut_of_noCollapse (s := tuned c (selectRole m s)) hfuel _ _
  simp only [modeSelected, ← stored, clModeBody, argD_of_argN hm, hfree, Bool.false_eq_true, if_false]
  rfl

theorem modeSelected_taken {opc : Nat} (hvia : c.via ≠ .contactless) (howed : s.cmd.owed = []) :
    modeSelected c m (taken opc c s) = taken opc c (modeSelected c m s) := by
  unfold modeSelected
  rw [selectRole_taken hvia howed]
  split <;> rfl

theorem quiet_modeSelected (h : Quiet s) (howed : s.cmd.owed = []) : Quiet (modeSelected c m s) ∧ (modeSelected c m s).cmd.owed = [] := by
  have selected := quiet_selectRole howed h m
  unfold modeSelected
  split <;> exact selected

theorem modeSelected_cl : (modeSelected c m s).cl = { (selectRole m s).cl with tuning := givenTuning c } := by
  unfold modeSelected
  split <;> rfl

theorem modeSelected_clSess : (modeSelected c m s).cmd.clSess = (selectRole m s).cmd.clSess := by
  unfold modeSelected
  split <;> rfl

theorem storedMode_modeSelected (hnv : (selectRole m s).nv = s.nv) : storedMode (modeSelected c m s) = if m ≤ 1 then m else storedMode s := by
  unfold modeSelected storedMode
  split
  · rw [tagBytes_tagStore (length_natLE 1 m), leNat_natLE]
    omega
  · simp [tagBytes, tagByte, tuned, hnv]

theorem clMode_deferred (h : Ready 0x0905 c s) (hbusy : fieldBusy s = true) : Refuses 0x0905 c stDeferred [] s (exec (.clMode c) s) := by
  have busy : fieldBusy (taken 0x0905 c s) = true := hbusy
  refine serve_refuses h ?_
  show clModeBody c (taken 0x0905 c s) = _
  simp only [clModeBody, busy, if_true]
  rfl

theorem clMode_selects (hfuel : s.cl.fuel = none) (h : Ready 0x0905 c s) (hm : argN c 1 = some m) (hfree : fieldBusy s = false) :
    RepliesOk 0x0905 c [r8 1 m] (modeSelected c m s) (exec (.clMode c) s) := by
  have howed := owed_nil_of_ready h
  have hvia := via_of_ready h rfl rfl
  obtain ⟨quiet, owed⟩ := quiet_modeSelected (c := c) (m := m) (quiet_of_ready h) howed
  obtain ⟨-, -, fuel, -⟩ := selectRole_parts howed m
  refine congrArg Host.Outcome.next (serve_answers h ?_ owed quiet)
  rw [← modeSelected_taken hvia howed]
  refine clModeBody_selects hm hfree ?_
  rw [selectRole_taken hvia howed]
  exact fuel.trans hfuel

end mode

/-! ## BADGE_READ (R315) -/

theorem badgeRead_waits {c : Call} {s : State} (h : Ready 0x0906 c s) {t : Nat} (ht : argN c 1 = some t) (hmin : 100 ≤ t)
    (hmax : t ≤ 30000) (hdrbg : s.nw.lost = false) :
    exec (.badgeRead c) s = .next (waits 0x0906 c .badge (onCl (fun x => { x with badge := some {
      call := c, step := .waiting, startedAt := s.clk.now, timeout := t, pollAt := s.clk.now, saved := s.cl.role
      cert := [], challenge := [] } }) s)) := by
  have inside : ¬ (t < 100 ∨ 30000 < t) := by omega
  have lost : (taken 0x0906 c s).nw.lost = false := hdrbg
  refine congrArg Host.Outcome.next (serve_awaits h ?_ rfl)
  show badgeReadBody c (taken 0x0906 c s) = _
  simp only [badgeReadBody, argD_of_argN ht, inside, lost, Bool.or_eq_true, decide_eq_true_eq, Bool.false_eq_true, if_false]
  exact await_taken 0x0906 c .badge (onCl (fun x => { x with badge := some {
    call := c, step := .waiting, startedAt := s.clk.now, timeout := t, pollAt := s.clk.now, saved := s.cl.role
    cert := [], challenge := [] } }) s)

/-- Settles O34: the lock held, then command by command. -/
theorem tagCommands : Obligations.TagCommands := by
  unfold Obligations.TagCommands
  refine ⟨fun c s => tagCommands_deferred, fun c s hclosed hfuel hlock => ?_⟩
  refine ⟨fun h p n hp hn hsome hrange hclean => tagRead_replies hclosed hlock h hp hn hsome hrange hclean,
    fun h p b hp hb hpages hlen hfirst hlast => tagWrite_writes hclosed hlock hfuel h hp hb hpages hlen hfirst hlast,
    fun h n v hn _ ⟨hprim, hback⟩ => ?counter,
    fun h pwd o p maps hpwd ho hopen hmaps hpwdLen hmapsLen hkeyLen htype hok =>
      tagAccess_writes hclosed hfuel hlock h hpwd ho hopen hmaps hpwdLen hmapsLen hkeyLen htype hok,
    fun h m hm _ => ⟨fun hfield hbusy => ?busy, fun hfree => ?free⟩,
    fun h t ht hmin hmax hdrbg => badgeRead_waits h ht hmin hmax hdrbg⟩
  case counter =>
    exact ⟨tagCounter_replies hclosed hlock h hn hprim hback,
      fun i hi hsome hfits => tagCounter_moves hclosed hlock h hn hprim hback hfuel hi hsome hfits,
      fun i hi hwrap _ => tagCounter_wraps hclosed hlock h hn hprim hback hi hwrap⟩
  case busy =>
    refine clMode_deferred h ?_
    simpa [fieldBusy, hfield, Option.isSome_iff_ne_none, or_assoc] using hbusy
  case free =>
    have free : fieldBusy s = false := by
      rcases hfree with hfield | ⟨hrnd, hexec, hframe⟩
      · simp [fieldBusy, hfield]
      · simp [fieldBusy, hrnd, hexec, Nat.not_lt.mpr hframe]
    obtain ⟨nv, field, -, role, badge, left⟩ := selectRole_parts (owed_nil_of_ready h) m
    refine ⟨_, clMode_selects hfuel h hm free, ?_⟩
    simp only [modeSelected_cl, modeSelected_clSess, storedMode_modeSelected nv]
    exact ⟨role, badge, trivial, left, field, fun hbasic => by simp [givenTuning, hbasic]⟩

end Sys2Proof.Claim
end
